-- ==== Sys2Proof/Word.lean ====
section
/-! DEFINITION. The machine's words and the plainest arithmetic on them (00 R2, R3), and the small
operand types that instructions are made of (04 R85 to R98; 19 R417 to R425 for messages). -/
namespace Sys2Proof

/-- 8 bits (R3). -/
abbrev Byte := BitVec 8
/-- 32 bits (R3). -/
abbrev W32 := BitVec 32
/-- 64 bits: a dword (R3). -/
abbrev W64 := BitVec 64

/-- `sext(x)` of the sequencer chapter: a 32-bit word extended by its sign (05 intro). -/
abbrev sext64 (x : W32) : W64 := x.signExtend 64
/-- `zext(x)` of the sequencer chapter: a 32-bit word extended by zeros (05 intro). -/
abbrev zext64 (x : W32) : W64 := x.setWidth 64

/-- A 5-bit g-register field (R93). -/
abbrev Reg := BitVec 5
/-- A 3-bit predicate field (R93). -/
abbrev PReg := BitVec 3
/-- A 32-bit immediate or literal word (R86, R87). -/
abbrev Imm := BitVec 32

/-- Guard of a sequencer instruction: predicate GP and sense GS (R64, R85). -/
structure Guard where
  p : PReg
  neg : Bool
  deriving DecidableEq, Repr

/-- Condition codes 0 to 9 (R95). -/
inductive Cond where
  | eq | ne | lt | le | gt | ge | ltu | leu | gtu | geu
  deriving DecidableEq, Repr

/-- Scope codes 0 to 6 (R95). -/
inductive Scope where
  | dune | page | region | core | die | pkg | sys
  deriving DecidableEq, Repr

/-- Atomic operation codes 0 to 9 (R95). -/
inductive Aop where
  | add | and | or | xor | min | max | minu | maxu | swap | cas
  deriving DecidableEq, Repr

/-- Memory type codes 0 to 5 (R95). -/
inductive MTy where
  | i8 | ui8 | i16 | i32 | ui32 | i64
  deriving DecidableEq, Repr

/-- The special registers (R108). -/
inductive Csr where
  | cyc | stat | acs | budget | best | bestres | monmask | pageid | ctxid | dupmap
  | epc | ecause | eaddr | einfo | tvec
  deriving DecidableEq, Repr

/-- The memory references of form SM, by MODE (R88). -/
inductive MemRef where
  | base (b : Reg) (disp : BitVec 28)
  | index (b x : Reg) (sc : BitVec 2)
  | pcRel (disp : BitVec 28)
  deriving DecidableEq, Repr

/-- A node in form N32 (R96): NC, C1, C2, TC. -/
structure N32 where
  k : BitVec 2
  c1 : BitVec 9
  c2 : BitVec 9
  t : BitVec 2
  deriving DecidableEq, Repr

/-- A node in form N64 (R98): N32 with TC = 0 and the extension word. -/
structure N64 where
  k : BitVec 2
  c1 : BitVec 9
  c2 : BitVec 9
  fmt : BitVec 8
  den : BitVec 4
  xc : BitVec 2
  c3 : BitVec 9
  c4 : BitVec 9
  deriving DecidableEq, Repr

/-- A node in form N96 (R98): N64 with a literal word. -/
structure N96 where
  k : BitVec 2
  c1 : BitVec 9
  c2 : BitVec 9
  fmt : BitVec 8
  den : BitVec 4
  xc : BitVec 2
  c3 : BitVec 9
  c4 : BitVec 9
  lit : BitVec 32
  deriving DecidableEq, Repr

/-- What a failed fetch check raises (R109): the cause (0 illegal opcode, 1 pool execute, 3
translation, 12 poison) with EADDR and EINFO. -/
structure FetchErr where
  cause : Nat
  eaddr : BitVec 64
  einfo : BitVec 64
  deriving DecidableEq, Repr

/-- Why a running group is pre-empted (R384). -/
inductive Preempt where
  | contract | hold | move | remap
  deriving DecidableEq, Repr

/-- Where an incoming remote memory access comes from (R417, R422): the host over a context's
queue window, or another device over a bound channel. `gen` is the generation its session or its
binding carries. -/
structure Rma where
  host : Bool
  ctx : Nat
  gen : BitVec 16
  addr : BitVec 64
  deriving DecidableEq, Repr

/-- The session a message arrives on (R418, R425). -/
inductive Session where
  | none
  | management
  | tenant (ctx : Nat) (gen : BitVec 16)
  deriving DecidableEq, Repr

/-- The endpoint a message arrives at (R418). -/
inductive Endpoint where
  | management
  | window (ctx : Nat)
  | boot
  deriving DecidableEq, Repr

/-- A Nimale message (R423): both header dwords, the payload as dwords, and how it arrived. -/
structure Msg where
  hdr : BitVec 64
  tag : BitVec 64
  payload : List (BitVec 64)
  at_ : Endpoint
  session : Session
  deriving DecidableEq, Repr

/-- A signed lifecycle request (R451): the signing key, the request's own data, the nonce it
covers and the signature. -/
structure Signed where
  key : List (BitVec 8)
  data : List (BitVec 8)
  nonce : List (BitVec 8)
  sig : List (BitVec 8)
  deriving DecidableEq, Repr

/-- Whose outstanding access performs (R316): the oldest buffered store of a sequencer, or the
access of a node's begun position number `i`. -/
inductive AccessWho where
  | seqStore (r pg : Nat)
  | node (r b n i : Nat)
  deriving DecidableEq, Repr

end Sys2Proof
end

