-- ==== Sys2Proof/Syntax.lean ====
section
/-! DEFINITION. The instruction set as syntax: one constructor of `Instr` per row of
spec/opcode_table.json. Sequencer, engine, task and Erg instructions carry the operands their
encodings give them (04 R85 to R95); node instructions carry the encoded node in its form N32, N64
or N96 (R96 to R98); machine events and host messages carry the names of the objects they act on
and the data that arrives with them. -/
namespace Sys2Proof

/-- The instruction set: one constructor per row of spec/opcode_table.json, in its order. The
docstring of a constructor gives the row's mnemonic and rule. -/
inductive Instr where
  /-- NOP (R124). -/
  | nop
  /-- ADD (R118). -/
  | add (g : Guard) (d a b : Reg)
  /-- ADD_SI (R118). -/
  | addSi (g : Guard) (d a : Reg) (imm : Imm)
  /-- SUB (R118). -/
  | sub (g : Guard) (d a b : Reg)
  /-- SUB_SI (R118). -/
  | subSi (g : Guard) (d a : Reg) (imm : Imm)
  /-- MUL (R118). -/
  | mul (g : Guard) (d a b : Reg)
  /-- MUL_SI (R118). -/
  | mulSi (g : Guard) (d a : Reg) (imm : Imm)
  /-- MULH (R118). -/
  | mulh (g : Guard) (u : Bool) (d a b : Reg)
  /-- MULH_SI (R118). -/
  | mulhSi (g : Guard) (u : Bool) (d a : Reg) (imm : Imm)
  /-- DIV (R119). -/
  | div (g : Guard) (u : Bool) (d a b : Reg)
  /-- DIV_SI (R119). -/
  | divSi (g : Guard) (u : Bool) (d a : Reg) (imm : Imm)
  /-- REM (R119). -/
  | rem (g : Guard) (u : Bool) (d a b : Reg)
  /-- REM_SI (R119). -/
  | remSi (g : Guard) (u : Bool) (d a : Reg) (imm : Imm)
  /-- AND (R118). -/
  | andR (g : Guard) (d a b : Reg)
  /-- AND_SI (R118). -/
  | andSi (g : Guard) (d a : Reg) (imm : Imm)
  /-- OR (R118). -/
  | orR (g : Guard) (d a b : Reg)
  /-- OR_SI (R118). -/
  | orSi (g : Guard) (d a : Reg) (imm : Imm)
  /-- XOR (R118). -/
  | xorR (g : Guard) (d a b : Reg)
  /-- XOR_SI (R118). -/
  | xorSi (g : Guard) (d a : Reg) (imm : Imm)
  /-- ANDN (R118). -/
  | andn (g : Guard) (d a b : Reg)
  /-- ANDN_SI (R118). -/
  | andnSi (g : Guard) (d a : Reg) (imm : Imm)
  /-- SHL (R118). -/
  | shl (g : Guard) (d a b : Reg)
  /-- SHL_SI (R118). -/
  | shlSi (g : Guard) (d a : Reg) (imm : Imm)
  /-- SHR (R118). -/
  | shr (g : Guard) (d a b : Reg)
  /-- SHR_SI (R118). -/
  | shrSi (g : Guard) (d a : Reg) (imm : Imm)
  /-- SAR (R118). -/
  | sar (g : Guard) (d a b : Reg)
  /-- SAR_SI (R118). -/
  | sarSi (g : Guard) (d a : Reg) (imm : Imm)
  /-- ROT (R118). -/
  | rot (g : Guard) (d a b : Reg)
  /-- ROT_SI (R118). -/
  | rotSi (g : Guard) (d a : Reg) (imm : Imm)
  /-- MIN (R118). -/
  | min (g : Guard) (u : Bool) (d a b : Reg)
  /-- MIN_SI (R118). -/
  | minSi (g : Guard) (u : Bool) (d a : Reg) (imm : Imm)
  /-- MAX (R118). -/
  | max (g : Guard) (u : Bool) (d a b : Reg)
  /-- MAX_SI (R118). -/
  | maxSi (g : Guard) (u : Bool) (d a : Reg) (imm : Imm)
  /-- CLZ (R120). -/
  | clz (g : Guard) (d a : Reg)
  /-- POPC (R120). -/
  | popc (g : Guard) (d a : Reg)
  /-- EXT (R120). -/
  | ext (g : Guard) (u : Bool) (d a b : Reg)
  /-- EXT_SI (R120). -/
  | extSi (g : Guard) (u : Bool) (d a : Reg) (imm : Imm)
  /-- BITF (R120). -/
  | bitf (g : Guard) (ins sgn : Bool) (d a : Reg) (lsb wm1 : BitVec 6)
  /-- CMP (R121). -/
  | cmp (g : Guard) (c : Cond) (p : PReg) (a b : Reg)
  /-- CMP_SI (R121). -/
  | cmpSi (g : Guard) (c : Cond) (p : PReg) (a : Reg) (imm : Imm)
  /-- PLOG (R122). -/
  | plog (g : Guard) (d a b : PReg) (table : BitVec 4)
  /-- SEL (R123). -/
  | sel (g : Guard) (q : PReg) (d a b : Reg)
  /-- MOV_GG (R124). -/
  | movGG (g : Guard) (d a : Reg)
  /-- MOV_GP (R124). -/
  | movGP (g : Guard) (d : Reg) (a : PReg)
  /-- MOV_PG (R124). -/
  | movPG (g : Guard) (d : PReg) (a : Reg)
  /-- MOV_PP (R124). -/
  | movPP (g : Guard) (d a : PReg)
  /-- LIT_SI (R124). -/
  | litSi (g : Guard) (d : Reg) (imm : Imm)
  /-- LIT_SL (R124). -/
  | litSl (g : Guard) (d : Reg) (imm lit : Imm)
  /-- LEA (R124). -/
  | lea (g : Guard) (d : Reg) (m : MemRef)
  /-- LD (R125). -/
  | ld (g : Guard) (ty : MTy) (d : Reg) (m : MemRef)
  /-- ST (R126). -/
  | st (g : Guard) (ty : MTy) (d : Reg) (m : MemRef)
  /-- AMO (R127). -/
  | amo (g : Guard) (op : Aop) (ty : MTy) (d a b : Reg) (disp : BitVec 24)
  /-- FENCE (R128). -/
  | fence (g : Guard) (sc : Scope)
  /-- BR (R129). -/
  | br (g : Guard) (off : BitVec 15)
  /-- BR_SBL (R129). -/
  | brSbl (g : Guard) (off : Imm)
  /-- JMP (R129). -/
  | jmp (g : Guard) (a : Reg)
  /-- JMP_SBL (R129). -/
  | jmpSbl (g : Guard) (off : Imm)
  /-- CALL (R129). -/
  | call (g : Guard) (d a : Reg)
  /-- CALL_SBL (R129). -/
  | callSbl (g : Guard) (d : Reg) (off : Imm)
  /-- RET (R129). -/
  | ret (g : Guard) (a : Reg)
  /-- LOOP (R130). -/
  | loop (g : Guard) (d : Reg) (off : Imm)
  /-- MONARM (R131). -/
  | monarm (g : Guard) (a : Reg)
  /-- MONARM_CLR (R131). -/
  | monarmClr (g : Guard)
  /-- SLEEP (R134). -/
  | sleep (g : Guard) (p : PReg) (a : Reg)
  /-- SLEEP_SI (R134). -/
  | sleepSi (g : Guard) (p : PReg) (imm : Imm)
  /-- SLEEP_EXPIRY (R134). -/
  | sleepExpiry (r pg : Nat)
  /-- TESTSEQ (R135). -/
  | testseq (g : Guard) (p : PReg) (a b : Reg)
  /-- TESTSEQ_SI (R135). -/
  | testseqSi (g : Guard) (p : PReg) (a b : Reg) (imm : Imm)
  /-- CFG (R137). -/
  | cfg (g : Guard) (d a : Reg)
  /-- CFG_SI (R137). -/
  | cfgSi (g : Guard) (d a : Reg) (imm : Imm)
  /-- CFG_LIST (R137). -/
  | cfgList (g : Guard) (d a : Reg)
  /-- CFG_LIST_SI (R137). -/
  | cfgListSi (g : Guard) (d a : Reg) (imm : Imm)
  /-- CFGSTEP (R138). -/
  | cfgstep (g : Guard) (d : Reg)
  /-- CFGSTEP_SI (R138). -/
  | cfgstepSi (g : Guard) (d : Reg) (imm : Imm)
  /-- RUN (R139). -/
  | run (g : Guard) (p : PReg) (a : Reg)
  /-- RUN_SI (R139). -/
  | runSi (g : Guard) (p : PReg) (imm : Imm)
  /-- BOUND (R140). -/
  | bound (g : Guard) (p : PReg) (a b : Reg)
  /-- BOUND_SI (R140). -/
  | boundSi (g : Guard) (p : PReg) (b : Reg) (node : BitVec 7) (blk : BitVec 4)
  /-- ACCRST (R141). -/
  | accrst (g : Guard) (n : BitVec 4)
  /-- ACCRST_SI (R141). -/
  | accrstSi (g : Guard) (n : BitVec 4) (imm : Imm)
  /-- ACCRD (R142). -/
  | accrd (g : Guard) (part : BitVec 3) (d : Reg) (n : BitVec 4)
  /-- ACCRD_SI (R142). -/
  | accrdSi (g : Guard) (part : BitVec 3) (d : Reg) (n : BitVec 4)
  /-- PORTW (R143). -/
  | portw (g : Guard) (eos : Bool) (p : PReg) (a b : Reg)
  /-- PORTW_SI (R143). -/
  | portwSi (g : Guard) (eos : Bool) (p : PReg) (a : Reg) (port : BitVec 6)
  /-- PORTR (R144). -/
  | portr (g : Guard) (f : PReg) (d a : Reg)
  /-- PORTR_SI (R144). -/
  | portrSi (g : Guard) (f : PReg) (d : Reg) (port : BitVec 6)
  /-- TRAP (R145). -/
  | trap (g : Guard) (imm : Imm)
  /-- RETT (R145). -/
  | rett (g : Guard)
  /-- RETT_NEXT (R145). -/
  | rettNext (g : Guard)
  /-- CSRR (R146). -/
  | csrr (g : Guard) (d : Reg) (n : Csr)
  /-- CSRW (R146). -/
  | csrw (g : Guard) (a : Reg) (n : Csr)
  /-- CSRX (R146). -/
  | csrx (g : Guard) (d a : Reg) (n : Csr) (lsb wm1 : BitVec 6)
  /-- HALT (R147). -/
  | halt
  /-- SNAP (R148). -/
  | snap (g : Guard) (a : Reg)
  /-- BUDGET (R149). -/
  | budget (g : Guard) (a : Reg)
  /-- BUDGET_SI (R149). -/
  | budgetSi (g : Guard) (imm : Imm)
  /-- BUDGET_TEST (R149). -/
  | budgetTest (g : Guard) (p : PReg)
  /-- BUDGET_TEST_SI (R149). -/
  | budgetTestSi (g : Guard) (p : PReg)
  /-- BUDGET_EXPIRE (R149). -/
  | budgetExpire (r pg : Nat)
  /-- BEST (R150). -/
  | best (g : Guard) (p : PReg) (a b : Reg)
  /-- BEST_SI (R150). -/
  | bestSi (g : Guard) (p : PReg) (a : Reg) (imm : Imm)
  /-- BEST_CLR (R150). -/
  | bestClr (g : Guard) (p : PReg)
  /-- BEST_CLR_SI (R150). -/
  | bestClrSi (g : Guard) (p : PReg)
  /-- FETCH_FAULT (R109). -/
  | fetchFault (f : FetchErr)
  /-- SLOAD (R162). -/
  | sload (g : Guard) (d a : Reg)
  /-- SLOAD_SI (R162). -/
  | sloadSi (g : Guard) (d a : Reg) (imm : Imm)
  /-- SSTORE (R163). -/
  | sstore (g : Guard) (d a : Reg)
  /-- SSTORE_SI (R163). -/
  | sstoreSi (g : Guard) (d a : Reg) (imm : Imm)
  /-- SCLOSE (R166). -/
  | sclose (g : Guard) (p : PReg) (a : Reg)
  /-- SCLOSE_SI (R166). -/
  | scloseSi (g : Guard) (p : PReg) (n : BitVec 6)
  /-- SCLOSE_CANCEL (R166). -/
  | scloseCancel (g : Guard) (p : PReg) (a : Reg)
  /-- SCLOSE_CANCEL_SI (R166). -/
  | scloseCancelSi (g : Guard) (p : PReg) (n : BitVec 6)
  /-- SCLOSE_QUEUE (R166). -/
  | scloseQueue (g : Guard) (p : PReg) (a : Reg)
  /-- SCLOSE_QUEUE_SI (R166). -/
  | scloseQueueSi (g : Guard) (p : PReg) (n : BitVec 3)
  /-- SBAR (R167). -/
  | sbar (g : Guard) (p : PReg) (a : Reg)
  /-- SBAR_SI (R167). -/
  | sbarSi (g : Guard) (p : PReg) (mask : BitVec 8)
  /-- SSTAT (R168). -/
  | sstat (g : Guard) (d a : Reg)
  /-- SSTAT_SI (R168). -/
  | sstatSi (g : Guard) (d : Reg) (eq : BitVec 3) (field : BitVec 5)
  /-- CPY (R169). -/
  | cpy (g : Guard) (d a : Reg)
  /-- CPY_SI (R169). -/
  | cpySi (g : Guard) (d a : Reg) (imm : Imm)
  /-- ETBL (R170). -/
  | etbl (g : Guard) (d a : Reg)
  /-- ETBL_SI (R170). -/
  | etblSi (g : Guard) (d a : Reg) (imm : Imm)
  /-- XPOSE (R172). -/
  | xpose (g : Guard) (d a : Reg)
  /-- XPOSE_SI (R172). -/
  | xposeSi (g : Guard) (d a : Reg) (imm : Imm)
  /-- GATHER (R174). -/
  | gather (g : Guard) (d a : Reg)
  /-- GATHER_SI (R174). -/
  | gatherSi (g : Guard) (d a : Reg) (imm : Imm)
  /-- SCATTER (R175). -/
  | scatter (g : Guard) (d a : Reg)
  /-- SCATTER_SI (R175). -/
  | scatterSi (g : Guard) (d a : Reg) (imm : Imm)
  /-- MCAST (R176). -/
  | mcast (g : Guard) (d a : Reg)
  /-- MCAST_SI (R176). -/
  | mcastSi (g : Guard) (d a : Reg) (imm : Imm)
  /-- MCAST_DETACH (R176). -/
  | mcastDetach (r q m : Nat)
  /-- PIN (R177). -/
  | pin (g : Guard) (d a b : Reg)
  /-- PIN_SI (R177). -/
  | pinSi (g : Guard) (d a : Reg) (imm : Imm)
  /-- UNPIN (R177). -/
  | unpin (g : Guard) (d a b : Reg)
  /-- UNPIN_SI (R177). -/
  | unpinSi (g : Guard) (d a : Reg) (imm : Imm)
  /-- PREF (R177). -/
  | pref (g : Guard) (q : BitVec 3) (d a b : Reg)
  /-- PREF_SI (R177). -/
  | prefSi (g : Guard) (q : BitVec 3) (d a : Reg) (imm : Imm)
  /-- FLUSH (R177). -/
  | flush (g : Guard) (q : BitVec 3) (d a b : Reg)
  /-- FLUSH_SI (R177). -/
  | flushSi (g : Guard) (q : BitVec 3) (d a : Reg) (imm : Imm)
  /-- CHAINW (R178). -/
  | chainw (g : Guard) (d a : Reg)
  /-- CHAINW_SI (R178). -/
  | chainwSi (g : Guard) (d a : Reg) (imm : Imm)
  /-- CHAIN_HOLD_REREAD (R178). -/
  | chainHoldReread (r q : Nat)
  /-- CHAINT (R179). -/
  | chaint (g : Guard) (p : PReg) (a b : Reg)
  /-- CHAINT_SI (R179). -/
  | chaintSi (g : Guard) (p : PReg) (a : Reg) (imm : Imm)
  /-- QPUSH (R180). -/
  | qpush (g : Guard) (d a b : Reg)
  /-- QPUSH_SI (R180). -/
  | qpushSi (g : Guard) (d b : Reg) (q : BitVec 13)
  /-- QPOP (R180). -/
  | qpop (g : Guard) (p : PReg) (a b : Reg)
  /-- QPOP_SI (R180). -/
  | qpopSi (g : Guard) (p : PReg) (b : Reg) (q : BitVec 13)
  /-- QFENCE (R181). -/
  | qfence (g : Guard) (sc : Scope) (p : PReg) (a : Reg)
  /-- QFENCE_SI (R181). -/
  | qfenceSi (g : Guard) (sc : Scope) (p : PReg) (mask : BitVec 8)
  /-- QSEQ (R180). -/
  | qseq (g : Guard) (issued : Bool) (d a : Reg)
  /-- QSEQ_SI (R180). -/
  | qseqSi (g : Guard) (issued : Bool) (d : Reg) (q : BitVec 13)
  /-- BARINIT (R182). -/
  | barinit (g : Guard) (p : PReg) (a b : Reg)
  /-- BARINIT_SI (R182). -/
  | barinitSi (g : Guard) (p : PReg) (a : Reg) (imm : Imm)
  /-- BARARR (R182). -/
  | bararr (g : Guard) (d a : Reg)
  /-- BARARR_SI (R182). -/
  | bararrSi (g : Guard) (d a : Reg) (imm : Imm)
  /-- BARTEST (R182). -/
  | bartest (g : Guard) (p : PReg) (a b : Reg)
  /-- BARTEST_SI (R182). -/
  | bartestSi (g : Guard) (p : PReg) (a : Reg) (imm : Imm)
  /-- SPAWN (R310). -/
  | spawn (g : Guard) (p : PReg) (a : Reg)
  /-- SPAWN_SI (R310). -/
  | spawnSi (g : Guard) (p : PReg) (a : Reg) (imm : Imm)
  /-- VDECL (R311). -/
  | vdecl (g : Guard) (d a b : Reg)
  /-- VDECL_SI (R311). -/
  | vdeclSi (g : Guard) (d a b : Reg) (vid : BitVec 4)
  /-- TEND (R312). -/
  | tend (g : Guard) (p : PReg)
  /-- TEND_CHILD (R312). -/
  | tendChild (g : Guard) (p : PReg) (a : Reg)
  /-- TSYNC (R312). -/
  | tsync (g : Guard) (p : PReg)
  /-- TSYNC_TAKE (R312). -/
  | tsyncTake (g : Guard) (d : Reg)
  /-- TRESUME (R312). -/
  | tresume (g : Guard) (p : PReg) (a : Reg)
  /-- TRESUME_SKIP (R312). -/
  | tresumeSkip (g : Guard) (p : PReg) (a : Reg)
  /-- TINFO (R313). -/
  | tinfo (g : Guard) (d b : Reg)
  /-- TINFO_SI (R313). -/
  | tinfoSi (g : Guard) (d : Reg) (field : BitVec 5) (view : BitVec 4)
  /-- TINFO_CH (R313). -/
  | tinfoCh (g : Guard) (d a b : Reg)
  /-- TINFO_CH_SI (R313). -/
  | tinfoChSi (g : Guard) (d a : Reg) (field : BitVec 5) (view : BitVec 4)
  /-- ELOAD (R285). -/
  | eload (g : Guard) (d a : Reg)
  /-- ELOAD_SI (R285). -/
  | eloadSi (g : Guard) (d a : Reg) (imm : Imm)
  /-- EWIRE (R285). -/
  | ewire (g : Guard) (d a : Reg)
  /-- EWIRE_SI (R285). -/
  | ewireSi (g : Guard) (d a : Reg) (imm : Imm)
  /-- ESEL (R286). -/
  | esel (g : Guard) (d a : Reg)
  /-- ESEL_SI (R286). -/
  | eselSi (g : Guard) (d : Reg) (w t : BitVec 2)
  /-- ETHR (R288). -/
  | ethr (g : Guard) (d a : Reg)
  /-- ETHR_SI (R288). -/
  | ethrSi (g : Guard) (d a : Reg) (imm : Imm)
  /-- EXF (R289). -/
  | exf (g : Guard) (d a : Reg)
  /-- EXF_SI (R289). -/
  | exfSi (g : Guard) (d a : Reg) (imm : Imm)
  /-- EEVAL (R287). -/
  | eeval (g : Guard) (d a b : Reg)
  /-- EEVAL_SI (R287). -/
  | eevalSi (g : Guard) (d : Reg) (first cm1 : BitVec 12)
  /-- EPOP (R290). -/
  | epop (g : Guard) (d a : Reg)
  /-- EPOP_SI (R290). -/
  | epopSi (g : Guard) (d a : Reg) (imm : Imm)
  /-- EXB (R289). -/
  | exb (g : Guard) (d a : Reg)
  /-- EXB_SI (R289). -/
  | exbSi (g : Guard) (d a : Reg) (imm : Imm)
  /-- INGR (R194). -/
  | ingr (x : N32)
  /-- INGR_N64 (R194). -/
  | ingrN64 (x : N64)
  /-- INGR_N96 (R194). -/
  | ingrN96 (x : N96)
  /-- EGR (R194). -/
  | egr (x : N32)
  /-- EGR_N64 (R194). -/
  | egrN64 (x : N64)
  /-- EGR_N96 (R194). -/
  | egrN96 (x : N96)
  /-- CONST (R195). -/
  | cst (x : N32)
  /-- CONST_N64 (R195). -/
  | cstN64 (x : N64)
  /-- CONST_N96 (R195). -/
  | cstN96 (x : N96)
  /-- ADD_NODE (R196). -/
  | addNode (x : N32)
  /-- ADD_NODE_N64 (R196). -/
  | addNodeN64 (x : N64)
  /-- ADD_NODE_N96 (R196). -/
  | addNodeN96 (x : N96)
  /-- SUB_NODE (R196). -/
  | subNode (x : N32)
  /-- SUB_NODE_N64 (R196). -/
  | subNodeN64 (x : N64)
  /-- SUB_NODE_N96 (R196). -/
  | subNodeN96 (x : N96)
  /-- MUL_NODE (R196). -/
  | mulNode (x : N32)
  /-- MUL_NODE_N64 (R196). -/
  | mulNodeN64 (x : N64)
  /-- MUL_NODE_N96 (R196). -/
  | mulNodeN96 (x : N96)
  /-- MAD (R196). -/
  | mad (x : N32)
  /-- MAD_N64 (R196). -/
  | madN64 (x : N64)
  /-- MAD_N96 (R196). -/
  | madN96 (x : N96)
  /-- MIN_NODE (R196). -/
  | minNode (x : N32)
  /-- MIN_NODE_N64 (R196). -/
  | minNodeN64 (x : N64)
  /-- MIN_NODE_N96 (R196). -/
  | minNodeN96 (x : N96)
  /-- MAX_NODE (R196). -/
  | maxNode (x : N32)
  /-- MAX_NODE_N64 (R196). -/
  | maxNodeN64 (x : N64)
  /-- MAX_NODE_N96 (R196). -/
  | maxNodeN96 (x : N96)
  /-- ABS (R196). -/
  | absNode (x : N32)
  /-- ABS_N64 (R196). -/
  | absNodeN64 (x : N64)
  /-- ABS_N96 (R196). -/
  | absNodeN96 (x : N96)
  /-- AND_NODE (R196). -/
  | andNode (x : N32)
  /-- AND_NODE_N64 (R196). -/
  | andNodeN64 (x : N64)
  /-- AND_NODE_N96 (R196). -/
  | andNodeN96 (x : N96)
  /-- OR_NODE (R196). -/
  | orNode (x : N32)
  /-- OR_NODE_N64 (R196). -/
  | orNodeN64 (x : N64)
  /-- OR_NODE_N96 (R196). -/
  | orNodeN96 (x : N96)
  /-- XOR_NODE (R196). -/
  | xorNode (x : N32)
  /-- XOR_NODE_N64 (R196). -/
  | xorNodeN64 (x : N64)
  /-- XOR_NODE_N96 (R196). -/
  | xorNodeN96 (x : N96)
  /-- SHL_NODE (R196). -/
  | shlNode (x : N32)
  /-- SHL_NODE_N64 (R196). -/
  | shlNodeN64 (x : N64)
  /-- SHL_NODE_N96 (R196). -/
  | shlNodeN96 (x : N96)
  /-- SHR_NODE (R196). -/
  | shrNode (x : N32)
  /-- SHR_NODE_N64 (R196). -/
  | shrNodeN64 (x : N64)
  /-- SHR_NODE_N96 (R196). -/
  | shrNodeN96 (x : N96)
  /-- SAR_NODE (R196). -/
  | sarNode (x : N32)
  /-- SAR_NODE_N64 (R196). -/
  | sarNodeN64 (x : N64)
  /-- SAR_NODE_N96 (R196). -/
  | sarNodeN96 (x : N96)
  /-- CMP_NODE (R197). -/
  | cmpNode (x : N32)
  /-- CMP_NODE_N64 (R197). -/
  | cmpNodeN64 (x : N64)
  /-- CMP_NODE_N96 (R197). -/
  | cmpNodeN96 (x : N96)
  /-- SEL_NODE (R197). -/
  | selNode (x : N32)
  /-- SEL_NODE_N64 (R197). -/
  | selNodeN64 (x : N64)
  /-- SEL_NODE_N96 (R197). -/
  | selNodeN96 (x : N96)
  /-- CVT (R199). -/
  | cvt (x : N32)
  /-- CVT_N64 (R199). -/
  | cvtN64 (x : N64)
  /-- CVT_N96 (R199). -/
  | cvtN96 (x : N96)
  /-- FADD (R198). -/
  | fadd (x : N32)
  /-- FADD_N64 (R198). -/
  | faddN64 (x : N64)
  /-- FADD_N96 (R198). -/
  | faddN96 (x : N96)
  /-- FMUL (R198). -/
  | fmul (x : N32)
  /-- FMUL_N64 (R198). -/
  | fmulN64 (x : N64)
  /-- FMUL_N96 (R198). -/
  | fmulN96 (x : N96)
  /-- FMA (R198). -/
  | fma (x : N32)
  /-- FMA_N64 (R198). -/
  | fmaN64 (x : N64)
  /-- FMA_N96 (R198). -/
  | fmaN96 (x : N96)
  /-- FMIN (R198). -/
  | fmin (x : N32)
  /-- FMIN_N64 (R198). -/
  | fminN64 (x : N64)
  /-- FMIN_N96 (R198). -/
  | fminN96 (x : N96)
  /-- FMAX (R198). -/
  | fmax (x : N32)
  /-- FMAX_N64 (R198). -/
  | fmaxN64 (x : N64)
  /-- FMAX_N96 (R198). -/
  | fmaxN96 (x : N96)
  /-- FCMP (R198). -/
  | fcmp (x : N32)
  /-- FCMP_N64 (R198). -/
  | fcmpN64 (x : N64)
  /-- FCMP_N96 (R198). -/
  | fcmpN96 (x : N96)
  /-- FRCP (R45). -/
  | frcp (x : N32)
  /-- FRCP_N64 (R45). -/
  | frcpN64 (x : N64)
  /-- FRCP_N96 (R45). -/
  | frcpN96 (x : N96)
  /-- FRSQ (R45). -/
  | frsq (x : N32)
  /-- FRSQ_N64 (R45). -/
  | frsqN64 (x : N64)
  /-- FRSQ_N96 (R45). -/
  | frsqN96 (x : N96)
  /-- FEXP2 (R45). -/
  | fexp2 (x : N32)
  /-- FEXP2_N64 (R45). -/
  | fexp2N64 (x : N64)
  /-- FEXP2_N96 (R45). -/
  | fexp2N96 (x : N96)
  /-- FLOG2 (R45). -/
  | flog2 (x : N32)
  /-- FLOG2_N64 (R45). -/
  | flog2N64 (x : N64)
  /-- FLOG2_N96 (R45). -/
  | flog2N96 (x : N96)
  /-- UNPK3 (R200). -/
  | unpk3 (x : N32)
  /-- UNPK3_N64 (R200). -/
  | unpk3N64 (x : N64)
  /-- UNPK3_N96 (R200). -/
  | unpk3N96 (x : N96)
  /-- BMAND_N64 (R201). -/
  | bmandN64 (x : N64)
  /-- BMAND_N96 (R201). -/
  | bmandN96 (x : N96)
  /-- PFXPOP (R202). -/
  | pfxpop (x : N32)
  /-- PFXPOP_N64 (R202). -/
  | pfxpopN64 (x : N64)
  /-- PFXPOP_N96 (R202). -/
  | pfxpopN96 (x : N96)
  /-- SIX (R203). -/
  | six (x : N32)
  /-- SIX_N64 (R203). -/
  | sixN64 (x : N64)
  /-- SIX_N96 (R203). -/
  | sixN96 (x : N96)
  /-- SUN (R204). -/
  | sun (x : N32)
  /-- SUN_N64 (R204). -/
  | sunN64 (x : N64)
  /-- SUN_N96 (R204). -/
  | sunN96 (x : N96)
  /-- TOPK (R205). -/
  | topk (x : N32)
  /-- TOPK_N64 (R205). -/
  | topkN64 (x : N64)
  /-- TOPK_N96 (R205). -/
  | topkN96 (x : N96)
  /-- MM (R223). -/
  | mm (x : N32)
  /-- MM_N64 (R223). -/
  | mmN64 (x : N64)
  /-- MM_N96 (R223). -/
  | mmN96 (x : N96)
  /-- MMPL (R227). -/
  | mmpl (x : N32)
  /-- MMPL_N64 (R227). -/
  | mmplN64 (x : N64)
  /-- MMPL_N96 (R227). -/
  | mmplN96 (x : N96)
  /-- ACC (R228). -/
  | acc (x : N32)
  /-- ACC_N64 (R228). -/
  | accN64 (x : N64)
  /-- ACC_N96 (R228). -/
  | accN96 (x : N96)
  /-- DRAIN (R229). -/
  | drain (x : N32)
  /-- DRAIN_N64 (R229). -/
  | drainN64 (x : N64)
  /-- DRAIN_N96 (R229). -/
  | drainN96 (x : N96)
  /-- CNT (R207). -/
  | cnt (x : N32)
  /-- CNT_N64 (R207). -/
  | cntN64 (x : N64)
  /-- CNT_N96 (R207). -/
  | cntN96 (x : N96)
  /-- AGEN (R208). -/
  | agen (x : N32)
  /-- AGEN_N64 (R208). -/
  | agenN64 (x : N64)
  /-- AGEN_N96 (R208). -/
  | agenN96 (x : N96)
  /-- JOIN (R209). -/
  | join (x : N32)
  /-- JOIN_N64 (R209). -/
  | joinN64 (x : N64)
  /-- JOIN_N96 (R209). -/
  | joinN96 (x : N96)
  /-- SPLIT (R210). -/
  | split (x : N32)
  /-- SPLIT_N64 (R210). -/
  | splitN64 (x : N64)
  /-- SPLIT_N96 (R210). -/
  | splitN96 (x : N96)
  /-- MERGE (R210). -/
  | merge (x : N32)
  /-- MERGE_N64 (R210). -/
  | mergeN64 (x : N64)
  /-- MERGE_N96 (R210). -/
  | mergeN96 (x : N96)
  /-- STEER (R211). -/
  | steer (x : N32)
  /-- STEER_N64 (R211). -/
  | steerN64 (x : N64)
  /-- STEER_N96 (R211). -/
  | steerN96 (x : N96)
  /-- BARTOK (R400). -/
  | bartok (x : N32)
  /-- BARTOK_N64 (R400). -/
  | bartokN64 (x : N64)
  /-- BARTOK_N96 (R400). -/
  | bartokN96 (x : N96)
  /-- LDN (R236). -/
  | ldn (x : N32)
  /-- LDN_N64 (R236). -/
  | ldnN64 (x : N64)
  /-- LDN_N96 (R236). -/
  | ldnN96 (x : N96)
  /-- STN (R237). -/
  | stn (x : N32)
  /-- STN_N64 (R237). -/
  | stnN64 (x : N64)
  /-- STN_N96 (R237). -/
  | stnN96 (x : N96)
  /-- ATOM (R238). -/
  | atomNode (x : N32)
  /-- ATOM_N64 (R238). -/
  | atomNodeN64 (x : N64)
  /-- ATOM_N96 (R238). -/
  | atomNodeN96 (x : N96)
  /-- ACQN (R239). -/
  | acqn (x : N32)
  /-- ACQN_N64 (R239). -/
  | acqnN64 (x : N64)
  /-- ACQN_N96 (R239). -/
  | acqnN96 (x : N96)
  /-- RELN_N64 (R239). -/
  | relnN64 (x : N64)
  /-- RELN_N96 (R239). -/
  | relnN96 (x : N96)
  /-- WCVT (R240). -/
  | wcvt (x : N32)
  /-- WCVT_N64 (R240). -/
  | wcvtN64 (x : N64)
  /-- WCVT_N96 (R240). -/
  | wcvtN96 (x : N96)
  /-- MSTORE (R241). -/
  | mstore (x : N32)
  /-- MSTORE_N64 (R241). -/
  | mstoreN64 (x : N64)
  /-- MSTORE_N96 (R241). -/
  | mstoreN96 (x : N96)
  /-- PIVDIV (R243). -/
  | pivdiv (x : N32)
  /-- PIVDIV_N64 (R243). -/
  | pivdivN64 (x : N64)
  /-- PIVDIV_N96 (R243). -/
  | pivdivN96 (x : N96)
  /-- RESID (R245). -/
  | resid (x : N32)
  /-- RESID_N64 (R245). -/
  | residN64 (x : N64)
  /-- RESID_N96 (R245). -/
  | residN96 (x : N96)
  /-- SHUF (R206). -/
  | shuf (x : N32)
  /-- SHUF_N64 (R206). -/
  | shufN64 (x : N64)
  /-- SHUF_N96 (R206). -/
  | shufN96 (x : N96)
  /-- FMERGE (R266). -/
  | fmerge (x : N32)
  /-- FMERGE_N64 (R266). -/
  | fmergeN64 (x : N64)
  /-- FMERGE_N96 (R266). -/
  | fmergeN96 (x : N96)
  /-- FINS (R267). -/
  | fins (x : N32)
  /-- FINS_N64 (R267). -/
  | finsN64 (x : N64)
  /-- FINS_N96 (R267). -/
  | finsN96 (x : N96)
  /-- FSCAN (R268). -/
  | fscan (x : N32)
  /-- FSCAN_N64 (R268). -/
  | fscanN64 (x : N64)
  /-- FSCAN_N96 (R268). -/
  | fscanN96 (x : N96)
  /-- FPROBE (R269). -/
  | fprobe (x : N32)
  /-- FPROBE_N64 (R269). -/
  | fprobeN64 (x : N64)
  /-- FPROBE_N96 (R269). -/
  | fprobeN96 (x : N96)
  /-- FINTER (R270). -/
  | finter (x : N32)
  /-- FINTER_N64 (R270). -/
  | finterN64 (x : N64)
  /-- FINTER_N96 (R270). -/
  | finterN96 (x : N96)
  /-- FCOUNT_N64 (R271). -/
  | fcountN64 (x : N64)
  /-- FCOUNT_N96 (R271). -/
  | fcountN96 (x : N96)
  /-- FCLEAR_N64 (R272). -/
  | fclearN64 (x : N64)
  /-- FCLEAR_N96 (R272). -/
  | fclearN96 (x : N96)
  /-- FCOMPACT_N64 (R272). -/
  | fcompactN64 (x : N64)
  /-- FCOMPACT_N96 (R272). -/
  | fcompactN96 (x : N96)
  /-- FTOPK (R270). -/
  | ftopk (x : N32)
  /-- FTOPK_N64 (R270). -/
  | ftopkN64 (x : N64)
  /-- FTOPK_N96 (R270). -/
  | ftopkN96 (x : N96)
  /-- FSTAT_N64 (R271). -/
  | fstatN64 (x : N64)
  /-- FSTAT_N96 (R271). -/
  | fstatN96 (x : N96)
  /-- ASYNC_TRAP_TAKEN (R431). -/
  | asyncTrapTaken (r : Nat)
  /-- ENGINE_COMMAND_START (R164). -/
  | engineCommandStart (r q : Nat)
  /-- ENGINE_ELEMENT (R158). -/
  | engineElement (r q : Nat)
  /-- ENGINE_COMMAND_COMPLETE (R156). -/
  | engineCommandComplete (r q : Nat)
  /-- FAULT_RETRY (R441). -/
  | faultRetry (id : Nat)
  /-- ERG_COMMAND_START (R280). -/
  | ergCommandStart (r : Nat) (load : Bool)
  /-- ERG_COMMAND_COMPLETE (R282). -/
  | ergCommandComplete (r : Nat)
  /-- ERG_CLEAR_DONE (R278). -/
  | ergClearDone (core : Nat)
  /-- ERG_RESTORE_DONE (R278). -/
  | ergRestoreDone (core : Nat)
  /-- ERG_SAVE_DONE (R278). -/
  | ergSaveDone (core : Nat) (bad : Bool)
  /-- FIBRE_OP_ARRIVE (R263). -/
  | fibreOpArrive (id : Nat)
  /-- SCAN_SEGMENT_DONE (R264). -/
  | scanSegmentDone (id : Nat)
  /-- FIBRE_OP_COMPLETE (R260). -/
  | fibreOpComplete (id : Nat)
  /-- VIEW_MERGE_START (R301). -/
  | viewMergeStart (r : Nat)
  /-- VIEW_MERGE_ELEMENT (R302). -/
  | viewMergeElement (r : Nat)
  /-- VIEW_MERGE_COMPLETE (R303). -/
  | viewMergeComplete (r : Nat)
  /-- CHILD_PLACED (R306). -/
  | childPlaced (r i : Nat)
  /-- MONITOR_NOTICE (R405). -/
  | monitorNotice (core sector : Nat)
  /-- WATCH_CLEAR_REPLY (R405). -/
  | watchClearReply (core sector : Nat)
  /-- STALL_SWEEP (R407). -/
  | stallSweep (r : Nat)
  /-- CLONE_WINDOW (R380). -/
  | cloneWindow (r b n : Nat)
  /-- CLONE_DISSOLVE (R381). -/
  | cloneDissolve (r : Nat)
  /-- CONFIG_DRAINED (R376). -/
  | configDrained (r : Nat)
  /-- RESIDENCY_RETIRE (R378). -/
  | residencyRetire (r : Nat)
  /-- DISPATCH_DECISION (R362). -/
  | dispatchDecision
  /-- QUEUE_COMMAND_COMPLETE (R361). -/
  | queueCommandComplete (q seq : Nat)
  /-- GROUP_ADMIT (R374). -/
  | groupAdmit (gid : Nat)
  /-- CLAIM_MOVE (R415). -/
  | claimMove
  /-- LOAD_COMPLETE (R376). -/
  | loadComplete (gid : Nat)
  /-- PREEMPT_REQUEST (R385). -/
  | preemptRequest (gid : Nat) (why : Preempt)
  /-- NODE_SNAPSHOT_SAVE (R386). -/
  | nodeSnapshotSave (r b n : Nat)
  /-- HABOOB_QUIESCENCE (R387). -/
  | haboobQuiescence (r : Nat)
  /-- SNAPSHOT_COMPLETE (R394). -/
  | snapshotComplete (gid : Nat) (bad : Bool)
  /-- GROUP_RESTORE (R393). -/
  | groupRestore (gid : Nat)
  /-- RESTORE_COMPLETE (R394). -/
  | restoreComplete (gid : Nat) (bad : Bool)
  /-- REMOTE_ACK (R390). -/
  | remoteAck (id : Nat) (value : BitVec 64)
  /-- REMOTE_RETRY_EXHAUSTED (R420). -/
  | remoteRetryExhausted (id : Nat)
  /-- REMAP_REQUEST (R416). -/
  | remapRequest (core page pos : Nat)
  /-- REMAP_COMPLETE (R416). -/
  | remapComplete (core page : Nat)
  /-- CONTRACT_BUDGET_EXHAUST (R364). -/
  | contractBudgetExhaust (cid core : Nat)
  /-- CONTRACT_WINDOW_EXPIRE (R364). -/
  | contractWindowExpire (cid : Nat)
  /-- CONTEXT_TEARDOWN_DONE (R351). -/
  | contextTeardownDone (c : Nat)
  /-- RMA_WRITE (R422). -/
  | rmaWrite (x : Rma) (data : List (BitVec 8))
  /-- RMA_READ (R417). -/
  | rmaRead (x : Rma) (len : Nat)
  /-- RMA_ATOMIC (R419). -/
  | rmaAtomic (x : Rma) (op : Aop) (wide : Bool) (v cmp : BitVec 64)
  /-- UNSUPPORTED_PACKET (R417). -/
  | unsupportedPacket (port : Nat)
  /-- DEV_INFO (R424). -/
  | devInfo (m : Msg)
  /-- PAGE_STAT (R411). -/
  | pageStat (m : Msg)
  /-- CTX_CREATE (R341). -/
  | ctxCreate (m : Msg)
  /-- CTX_KEY (R344). -/
  | ctxKey (m : Msg)
  /-- CTX_START (R348). -/
  | ctxStart (m : Msg)
  /-- CTX_SUSPEND (R349). -/
  | ctxSuspend (m : Msg)
  /-- CTX_RESUME (R348). -/
  | ctxResume (m : Msg)
  /-- CTX_DESTROY (R351). -/
  | ctxDestroy (m : Msg)
  /-- CTX_QUOTA (R346). -/
  | ctxQuota (m : Msg)
  /-- CTX_SYNC (R345). -/
  | ctxSync (m : Msg)
  /-- CTX_SYNC_DONE (R345). -/
  | ctxSyncDone (c : Nat)
  /-- Q_CREATE (R353). -/
  | qCreate (m : Msg)
  /-- Q_ENABLE (R367). -/
  | qEnable (m : Msg)
  /-- Q_DISABLE (R367). -/
  | qDisable (m : Msg)
  /-- Q_TAIL (R355). -/
  | qTail (m : Msg)
  /-- Q_FLUSH (R367). -/
  | qFlush (m : Msg)
  /-- Q_RESTART (R367). -/
  | qRestart (m : Msg)
  /-- Q_DESTROY (R367). -/
  | qDestroy (m : Msg)
  /-- Q_POP (R424). -/
  | qPop (m : Msg)
  /-- CONTRACT_CREATE (R365). -/
  | contractCreate (m : Msg)
  /-- CONTRACT_DESTROY (R365). -/
  | contractDestroy (m : Msg)
  /-- POOL_REG (R249). -/
  | poolReg (m : Msg)
  /-- POOL_FREE (R424). -/
  | poolFree (m : Msg)
  /-- MEM_WRITE (R424). -/
  | memWrite (m : Msg)
  /-- MEM_READ (R424). -/
  | memRead (m : Msg)
  /-- CHAN_BIND (R419). -/
  | chanBind (m : Msg)
  /-- LINK_STAT (R426). -/
  | linkStat (m : Msg)
  /-- LINK_ISOLATE (R427). -/
  | linkIsolate (m : Msg)
  /-- LINK_RESTORE (R427). -/
  | linkRestore (m : Msg)
  /-- LINK_ENABLE (R427). -/
  | linkEnable (port : Nat)
  /-- LINK_RETRY_TIMER (R427). -/
  | linkRetryTimer (port : Nat)
  /-- LINK_TRAINING_END (R427). -/
  | linkTrainingEnd (port lanes : Nat)
  /-- LINK_LANE_FAIL (R427). -/
  | linkLaneFail (port lanes : Nat)
  /-- LINK_FERR_ISOLATE (R427). -/
  | linkFerrIsolate (port : Nat)
  /-- GET_VERSION (R450). -/
  | getVersion (tag : Nat)
  /-- GET_CAPABILITIES (R450). -/
  | getCapabilities (tag : Nat)
  /-- NEGOTIATE_ALGORITHMS (R450). -/
  | negotiateAlgorithms (tag : Nat)
  /-- GET_DIGESTS (R450). -/
  | getDigests (tag : Nat)
  /-- GET_CERTIFICATE (R450). -/
  | getCertificate (tag : Nat)
  /-- CHALLENGE (R450). -/
  | challenge (tag : Nat) (nonce : List (BitVec 8))
  /-- GET_MEASUREMENTS (R450). -/
  | getMeasurements (tag : Nat) (nonce : List (BitVec 8))
  /-- PROVISION (R451). -/
  | provision (x : Signed)
  /-- SET_NODE (R451). -/
  | setNode (x : Signed) (node : BitVec 16)
  /-- DEPLOY (R451). -/
  | deploy (x : Signed)
  /-- DBG_NONCE (R453). -/
  | dbgNonce
  /-- DBG_UNLOCK (R454). -/
  | dbgUnlock (token : List (BitVec 8))
  /-- DECOMMISSION (R451). -/
  | decommission (x : Signed)
  /-- COLD_RESET (R448). -/
  | coldReset
  /-- WARM_RESET (R24). -/
  | warmReset
  /-- BOOT_IMAGE_PACKET (R448). -/
  | bootImagePacket (off : Nat) (data : List (BitVec 8)) (last : Bool)
  /-- POWER_STATE_ENTER (R455). -/
  | powerStateEnter (core : Nat)
  /-- POWER_STATE_WAKE (R455). -/
  | powerStateWake (core : Nat)
  /-- THERMAL_SENSING (R457). -/
  | thermalSensing (temps : List Int)
  /-- SUPPLY_FAULT (R456). -/
  | supplyFault
  /-- HBM_PATROL_SCRUB (R457). -/
  | hbmPatrolScrub (stack sector : Nat)
  /-- SRAM_SCRUB (R457). -/
  | sramScrub (core : Nat)
  /-- HBM_RETRAINING (R457). -/
  | hbmRetraining (stack : Nat)
  /-- LINK_EQUALISATION (R457). -/
  | linkEqualisation (port : Nat)
  /-- HBM_ROW_REPAIR (R457). -/
  | hbmRowRepair (stack row : Nat)
  /-- TELEMETRY_RECORD (R457). -/
  | telemetryRecord
  /-- ACCESS_PERFORMED (R316). -/
  | accessPerformed (w : AccessWho)
  /-- LINK_LEVEL_RETRY (R426). -/
  | linkLevelRetry (port : Nat) (lost : Bool)
  /-- HBM_RETRAINING_DONE (R457). -/
  | hbmRetrainingDone (stack : Nat)
  /-- HBM_ROW_REPAIR_DONE (R457). -/
  | hbmRowRepairDone (stack row : Nat)
  deriving DecidableEq, Repr

end Sys2Proof
end

