-- ==== Sys2Proof/Machine/State.lean ====
section
/-! DEFINITION. The state of the TRL-9600 as plain data: every piece of state the spec names
(INVENTORY.md, '## State', gives the rule and the reset value of each), the reasons a step can stop,
and the state after cold reset. Sparse collections are lists of (key, value) pairs with keys strictly
rising; what an unlisted key holds is said at the field. -/
namespace Sys2Proof.Machine

/-- A sparse collection by number: keys strictly rise, one entry a key. -/
abbrev Assoc (α : Type) := List (Nat × α)

/-! ### Tokens and nodes (chapters 07 to 09) -/

/-- A token on an edge or in a port buffer (R183). -/
structure Token where
  val : W64 := 0
  ix : Option W32 := none
  mks : BitVec 4 := 0
  s : Byte := 127
  eos : Bool := false
  bub : Bool := false
  psn : Bool := false
  inv : Bool := false
  deriving DecidableEq, Repr

/-- An input slot of a node: the tokens on its edge, oldest first (for a delay edge, the contents of
the delay line, R184), a standing token from CONST (R195), and whether a haboob marker has arrived
behind the tokens (R386). -/
structure Slot where
  q : List Token := []
  standing : Option Token := none
  mark : Bool := false
  deriving DecidableEq, Repr

/-- Where a unit of a node's access goes (R231, R419): a bank address, a physical address with UCHK, or a remote node. -/
inductive MemPlace where
  | bank (a : Nat)
  | loc (pa : Nat) (uchk : Bool)
  | rem (rnode : BitVec 16) (chan : Nat) (rod : Bool) (addr : W64)
  deriving DecidableEq, Repr

/-- A begun position of a memory node (R231 to R242): its number (R428), what it accesses, its markers, and,
once it has performed, the token of its result. Its order tokens and its result are sent in position order
(R235). -/
structure MemPos where
  num : Nat
  addr : W64 := 0
  value : W64 := 0
  cmp : W64 := 0
  mks : BitVec 4 := 0
  ix : Option W32 := none
  /-- the stored value carries PSN, so the poison marker is written (R232) -/
  psn : Bool := false
  /-- the order token came from a RELN of this scope (R239) -/
  rel : Option Scope := none
  /-- the bytes of a drain record (R230) -/
  bytes : List Byte := []
  /-- dwords of the record that hold a poisoned drain value (R446) -/
  bads : List Nat := []
  /-- pieces of a WCVT or dwords of a drain record performed; and, from the first on, where each goes, all of them having
  passed the checks (R430) -/
  pieces : Nat := 0
  places : List MemPlace := []
  paused : Option Nat := none
  remote : Option Nat := none
  done : Option Token := none
  deriving DecidableEq, Repr

/-- A 256-bit exact accumulator: value, anchor, AV and status bits (R48). -/
structure Acc where
  v : Int := 0
  anchor : Int := 0
  av : Bool := false
  poison : Bool := false
  invalid : Bool := false
  overflow : Bool := false
  inexact : Bool := false
  deriving DecidableEq, Repr

/-- The state a node holds beside its slots (R213, R246, R273). -/
inductive NodeX where
  | none
  /-- CNT: count, trip, bound token, region iterations emitted (R207) -/
  | cnt (c trip : Nat) (bound : Option Nat) (it : Nat)
  /-- AGEN: LIM, bound token, region iterations emitted (R208) -/
  | agen (lim : W64) (bound : Option Nat) (it : Nat)
  /-- PFXPOP: base, and whether it is poisoned (R202) -/
  | pfx (base : W32) (bad : Bool)
  /-- SIX and SUN: last keys (as the rank order compares them), segment ends met with their markers, tokens
  held back for the segment's markers, whether the segment has taken a token (R203, R204) -/
  | sx (ka kb : Option Int) (ea eb : Option (BitVec 4)) (hx hy : Option Token) (opened : Bool)
  /-- TOPK: ranked tokens with their coordinates, and the position in the segment (R205) -/
  | topk (set : List (Token × W32)) (pos : Nat)
  /-- SHUF: the partial group (R206) -/
  | shuf (grp : List Token)
  /-- SPLIT and MERGE: consumer or slot whose turn it is, tokens of the group passed (R210) -/
  | group (turn cnt : Nat)
  /-- MM and MMPL: the index sets of the open tile with bad-token flags, whether a tile is open, the steps of
  the group taken so far with bad-token flags, the last step's markers (R223, R226) -/
  | mm (rows cols : List (Nat × Bool)) (opened : Bool) (steps : List (Nat × Bool)) (lastMk : BitVec 4)
  /-- DRAIN: the trigger in progress and the next element (R229) -/
  | drain (trig : Option Token) (next : Nat)
  /-- PIVDIV: pivot of the open segment, completed segments (R243) -/
  | piv (pivot : Option W32) (segs : Nat) (psn : Bool := false)
  /-- RESID: running maximum, whether the segment holds a token, and whether a token or a bubble has opened it (R245) -/
  | resid (m : W32) (any : Bool) (opened : Bool := false)
  /-- BARTOK: whether the k-th token has been offered, and k (R400) -/
  | bartok (offered : Bool) (k : Nat)
  /-- fibre nodes: operations started since RUN, pairs of the open stream segment, whether the segment has taken
  a token, whether a segment has been closed (R258, R259) -/
  | fib (count : Nat) (seg : List (W64 × Token)) (opened used : Bool)
  deriving DecidableEq, Repr

/-- A trap raised asynchronously on a lead (R431), or the record of a node's trap (R428). -/
structure TrapRec where
  cause : Nat
  eaddr : W64 := 0
  einfo : W64 := 0
  node : Bool := false
  blk : Nat := 0
  nidx : Nat := 0
  dune : Nat := 0
  iter : Nat := 0
  /-- page of the sequencer it is raised on: an engine's format fault goes to the issuer (R159) -/
  page : Nat := 0
  deriving DecidableEq, Repr

/-- The running state of one node. -/
structure NodeSt where
  a : Slot := {}
  b : Slot := {}
  c : Slot := {}
  d : Slot := {}
  x : NodeX := .none
  pend : List MemPos := []
  /-- positions consumed since RUN (ECAUSE.ITER, R428) -/
  pos : Nat := 0
  ended : Bool := false
  stopped : Option TrapRec := none
  /-- RETT with SKIP = 1 makes the next position a bubble (R432) -/
  skip : Bool := false
  /-- after a skipped length mismatch the node no longer traps in this run (R432) -/
  lmOff : Bool := false
  /-- the haboob save of this node has been made (R386) -/
  saved : Bool := false
  /-- cycles of the window so far, and those in which the node was back-pressured (R380) -/
  win : Nat := 0
  press : Nat := 0
  deriving DecidableEq, Repr

/-- An installed node: its encoded words, its dune, the format byte of each slot (R105) and the
preload of each delay edge, by consumer number, none for an illegal T3 byte (R32, R70). -/
structure NodeCfg where
  words : List W32
  dune : Nat
  fmts : W32
  preload : Assoc (List (Option W64)) := []
  deriving DecidableEq, Repr

/-- An installed dataflow block: header fields (R103), clone mask, nodes, and the words of its
literal pool contents (R106). -/
structure Block where
  amf : Byte
  lmtrap : Bool
  bid : W32
  clone : BitVec 128
  nodes : List NodeCfg
  pool : List W32
  deriving DecidableEq, Repr

/-- A tile slot: its table entry, tag and cursors (R214, R217). -/
structure TileSlot where
  entry : W64
  full : Bool := false
  dc : Nat := 0
  scur : Nat := 0
  deriving DecidableEq, Repr

inductive AgTag where
  | empty | active | full
  deriving DecidableEq, Repr

/-- A tile accumulator group (R219, R220): tag, the tile's M and N, element accumulators by
16 r + c (an unlisted element is as ACCRST leaves it). -/
structure AccGroup where
  tag : AgTag := .empty
  m : Nat := 0
  n : Nat := 0
  elems : Assoc Acc := []
  deriving DecidableEq, Repr

/-- A barrier unit: its BID, the episode count, the participants that have offered, that have left,
and that may forward the token of the released episode (R399, R400). -/
structure BarUnit where
  bid : Nat
  episode : Nat := 0
  offers : List (Nat × Nat) := []
  left : List (Nat × Nat) := []
  go : List (Nat × Nat) := []
  deriving DecidableEq, Repr

/-- The blocks of the configuration installed in a region (R371). -/
structure Installed where
  blocks : List Block
  deriving DecidableEq, Repr

/-! ### Ports and engine queues (chapters 05, 06) -/

/-- An ingress port: its 16-token buffer, whether it has ended since the last RUN, the engine queue
whose command is bound to it, and whether an end-of-stream waits behind accepted commands (R143, R166). -/
structure InPort where
  q : List Token := []
  ended : Bool := false
  bound : Option Nat := none
  /-- a queued SCLOSE: the commands (residency, queue, number) it stands behind -/
  close : Option (List (Nat × Nat × Nat)) := none
  deriving DecidableEq, Repr

/-- An egress port: its buffer, whether it has ended, the queue bound to it and a KEEP binding
(R144, R163, R164, R194). -/
structure OutPort where
  q : List Token := []
  ended : Bool := false
  bound : Option Nat := none
  keep : Option Nat := none
  deriving DecidableEq, Repr

inductive EngOp where
  | sload | sstore | cpy | etbl | xpose | gather | scatter | mcast | chainw | pref | flush
  deriving DecidableEq, Repr

/-- An accepted engine command: the descriptor copy read at issue (R154), the issuing page and its
progress and counters (R158, R168). -/
structure Cmd where
  op : EngOp
  seq : Nat
  desc : List W64
  page : Nat := 0
  started : Bool := false
  finished : Bool := false
  status : Nat := 0
  pos : Nat := 0
  sub : Nat := 0
  elems : Nat := 0
  bytes : Nat := 0
  trans : Nat := 0
  xcross : Nat := 0
  drop : Nat := 0
  oob : Nat := 0
  detmask : BitVec 16 := 0
  lastBlk : Option Nat := none
  paused : Option Nat := none
  /-- a remote read sent, and remote writes and reductions sent, whose answers are outstanding (R158, R390) -/
  remote : Option Nat := none
  sent : List Nat := []
  /-- DONE and the counters are recorded, and the completion word is being stored (R156) -/
  cwa : Bool := false
  /-- bytes gathered for the destination sector or row in progress; bytes decoded and not written yet (R171) -/
  buf : List Byte := []
  /-- tokens of the row or line in progress -/
  toks : List Token := []
  /-- decoder bit position (R171), or last coordinate of an expanding store (R163) -/
  bit : Nat := 0
  /-- per member stall cycles of a multicast (R176) -/
  stall : Assoc Nat := []
  /-- for a chain: address of the NEXT dword being followed, and the running element (R178) -/
  link : Option W64 := none
  hold : Bool := false
  /-- the CHAINW's own descriptor while one of its elements runs (R178) -/
  outer : List W64 := []
  /-- bytes of a store's sectors that have arrived and wait to be written whole, by virtual address,
  with the poison mark (R163) -/
  part : Assoc (Byte × Bool) := []
  /-- a store's sector that has arrived and is being written, and how many of its bytes have been (R337) -/
  due : Option (Nat × Nat) := none
  /-- elements and bytes that wait in `part`, by sector: they count once they are written (R168) -/
  owed : Assoc (Nat × Nat) := []
  /-- bytes of a copy's source that the copy wrote before it read them, as they stood, by place in the source
  (R169) -/
  old : Assoc (Byte × Bool) := []
  /-- the decoder table as it stood when the command started (R170) -/
  tbl : Assoc W32 := []
  /-- the 64-token buffer of each attached member of a multicast (R176) -/
  mbuf : Assoc (List Token) := []
  /-- an SSTORE with KEEP 1 whose pattern filled before end-of-stream came (R163) -/
  filled : Bool := false
  /-- MODEL'S OWN: the region's bank stamp when it was accepted (R281) -/
  since : Nat := 0
  deriving DecidableEq, Repr

inductive EqEntry where
  | cmd (c : Cmd)
  | sbar (id : Nat) (mask : Byte)
  | qfence (id : Nat) (mask : Byte) (sc : Scope)
  deriving DecidableEq, Repr

/-- An engine queue (R151, R152, R168). -/
structure EngQueue where
  next : Nat := 1
  done : Nat := 0
  entries : List EqEntry := []
  /-- the most recently completed command, for SSTAT -/
  last : Option Cmd := none
  deriving DecidableEq, Repr

inductive ErgOp where
  | eload | ewire | esel | ethr | exf | eeval | epop | exb
  deriving DecidableEq, Repr

/-- An accepted Erg command: descriptor or immediate operands, the issuing page, whether its pipe has started it,
and, once its effect is done, dword 1 of its record and whether that stands (R279, R280, R282). -/
structure ErgCmd where
  op : ErgOp
  seq : Nat
  desc : List W64
  page : Nat := 0
  started : Bool := false
  word : Option W64 := none
  half : Bool := false
  paused : Option Nat := none
  remote : Option Nat := none
  /-- MODEL'S OWN: the region's bank stamp when it started (R281) -/
  since : Nat := 0
  deriving DecidableEq, Repr

structure ErgQueue where
  next : Nat := 1
  entries : List ErgCmd := []
  deriving DecidableEq, Repr

inductive ErgState where
  | free | clearing | restoring | owned | saving
  deriving DecidableEq, Repr

/-- The Erg array of a core (R274 to R278, R291). Unlisted planes and tables are zero; an unlisted
wiring entry is the reset entry (OFF = 1). Keys: 4096 slot + cell. -/
structure Erg where
  st : ErgState := .free
  owner : Option Nat := none
  planes : Assoc (BitVec 512) := []
  poison : List Nat := []
  wiring : Assoc (BitVec 128) := []
  tables : Assoc W64 := []
  badWire : List Nat := []
  badTable : List Nat := []
  /-- planes in which an uncorrectable error lies, beside those whose poison bit is set (R291) -/
  badPlane : List Nat := []
  aw : Nat := 0
  at_ : Nat := 0
  deriving DecidableEq, Repr

/-! ### Sequencers (chapter 05) -/

/-- The extent of the segment being executed (R101, R109): header address, length in words, and
each pool range as (word offset, length in words). -/
structure Segment where
  base : W64
  len : Nat
  pools : List (Nat × Nat)
  /-- MODEL'S OWN: where its words lay in memory when it was entered, as (address, bytes), for R112 -/
  pas : List (Nat × Nat) := []
  deriving DecidableEq, Repr

/-- A store issued and not yet performed (R316, R319): physical address, bytes, whether it is a release, whether its page is
checked, so that it leaves a tag (R324), and whether it makes its sector RAW, as SNAP's last dword of one does (R148). -/
structure PendStore where
  pa : Nat
  va : W64
  bytes : List Byte
  release : Bool
  sys : Bool
  chk : Bool
  raw : Bool := false
  deriving DecidableEq, Repr

/-- A race tag (R324): writer identifier and count. -/
structure RaceTag where
  wid : BitVec 12 := 0
  cnt : BitVec 12 := 0
  deriving DecidableEq, Repr

/-- What a sequencer waiting for a remote reply does with it (R390, R420). -/
inductive SeqWait where
  | ld (id : Nat) (d : Reg) (ty : MTy) (len : Nat)
  | amo (id : Nat) (d : Reg) (ty : MTy) (len : Nat)
  | testseq (id : Nat) (p : PReg) (v : W64) (len : Nat)
  | fenceSys (ids : List Nat)
  /-- barrier steps and CHAINT on a remote object (R401, R179) -/
  | barinit (id : Nat) (p : PReg) (n : W64) (len : Nat)
  | bararr (id : Nat) (d : Reg) (len : Nat)
  | bartest (id : Nat) (p : PReg) (ph : W64) (len : Nat)
  | chaint (id : Nat) (p : PReg) (len : Nat)
  /-- a QPOP whose record goes to a remote node (R180, R319) -/
  | qpop (id : Nat) (p : PReg) (len : Nat)
  deriving DecidableEq, Repr

/-- One sequencer. `g` holds g0 to g31; entry 0 is never written and g0 reads zero (R93). -/
structure Seq where
  g : Vector W64 32 := Vector.replicate 32 0
  p : BitVec 8 := 1
  pc : W64 := 0
  seg : Option Segment := none
  /-- MODEL'S OWN: `freeIx` when the segment was entered and at the last two fetches (R112) -/
  entered : Nat := 0
  lastTurn : Nat := 0
  prevTurn : Nat := 0
  stat : W64 := 0
  epc : W64 := 0
  ecause : W64 := 0
  eaddr : W64 := 0
  einfo : W64 := 0
  tvec : W64 := 0
  budget : W64 := 0
  best : W64 := 0
  bestres : W64 := 0x7F800000
  monmask : W64 := 1
  /-- duplicated registers with their copies, most recently written first (R117) -/
  dups : List (Reg × W64) := []
  /-- parity errors in register entries and in duplicates (R117) -/
  parity : BitVec 32 := 0
  dupParity : BitVec 32 := 0
  filter : BitVec 256 := 0
  /-- MODEL'S OWN: how often MONARM.CLR has emptied the filter, for notices under way (R133) -/
  clrs : Nat := 0
  /-- SLEEP in progress: cycles left and destination predicate (R134) -/
  sleep : Option (Nat × PReg) := none
  halted : Bool := true
  /-- stopped at a double trap (R434) -/
  stuck : Bool := false
  /-- it is the management core's (R21): its traps set MODE to 2 (R435) -/
  mgmt : Bool := false
  /-- pc was set by a control transfer, so a segment header there is entered (R109) -/
  xfer : Bool := false
  wait : Option SeqWait := none
  stores : List PendStore := []
  /-- the tag an LD or AMO just before a FENCE read (R317, R326) -/
  lastTag : Option RaceTag := none
  /-- a FENCE of this scope stands before the next store (R317) -/
  armed : Option Scope := none
  /-- remote stores whose acknowledgement is outstanding (R333) -/
  remotes : List Nat := []
  deriving DecidableEq, Repr

/-! ### Barchan tasks (chapter 11) -/

/-- Where a view lies (R299, R300). -/
inductive ViewLoc where
  | flat (va : W64)
  | bank (addr : Nat)
  | fibre (va : W64)
  deriving DecidableEq, Repr

/-- A view a task has: its descriptor, its own location and status word, and whether it is
inherited from the parent (R297, R300, R311). -/
structure View where
  d0 : W64
  ident : W64
  cblk : W64
  loc : ViewLoc
  status : BitVec 5 := 0
  inherited : Bool := false
  /-- core whose view-table entry it holds (R300), and the flat bytes it takes from the view pool -/
  entry : Option Nat := none
  pool : Nat := 0
  /-- the page that the declaring task's view holds for its custom operator, and its block as loaded (R311, R412) -/
  page : Option (Nat × Nat) := none
  oper : Option Block := none
  deriving DecidableEq, Repr

inductive TaskState where
  | pending | running | ended | merging | faulted | merged | taken | discarded
  deriving DecidableEq, Repr

/-- A child of an epoch (R306, R310). -/
structure Child where
  tid : Nat
  st : TaskState := .pending
  kdesc : W64
  arg : W64
  views : Assoc View := []
  rid : Option Nat := none
  core : Nat
  midx : Nat := 0
  deriving DecidableEq, Repr

inductive FinalMerge where
  | none | running | faulted
  deriving DecidableEq, Repr

/-- A merge in progress (R301, R302): of child `src`, or the final merge; the view number, the next
element, whether it is suspended, and what it waits on. -/
structure Merge where
  src : Option Nat
  v : Nat
  x : Nat := 0
  faulted : Bool := false
  remote : Option Nat := none
  /-- the fault record written when it suspended at a recoverable fault (R441) -/
  rec_ : Option Nat := none
  /-- a custom operator's own region, and the elements streamed to it (R302) -/
  cust : Option Nat := none
  fed : Nat := 0
  /-- the target's elements as they were streamed, of those still to be written back -/
  gave : List Nat := []
  /-- the status bits that a remote update sent has raised: they count once it is acknowledged (R302, R390) -/
  owe : BitVec 5 := 0
  deriving DecidableEq, Repr

/-- The spawn epoch of a task (R295). -/
structure Epoch where
  children : List Child := []
  accs : Assoc View := []
  fm : FinalMerge := .none
  merge : Option Merge := none
  deriving DecidableEq, Repr

/-- The task a residency runs (R294). -/
structure Task where
  tid : Nat := 0
  depth : Nat := 0
  /-- parent residency and child index; none for a root -/
  parent : Option (Nat × Nat) := none
  ptid : Nat := 0
  arg : W64 := 0
  ended : Bool := false
  views : Assoc View := []
  epoch : Epoch := {}
  sfail : Nat := 0
  /-- MIDX of a final merge that faulted (R304) -/
  midx : Nat := 0
  deriving DecidableEq, Repr

/-! ### Residencies (chapters 15, 16) -/

inductive ResState where
  | pending | loading | unarmed | armed | running | draining | saved | restoring | retired
  deriving DecidableEq, Repr

/-- A bank byte as it stood before a write while an Erg command was under way: when by the region's stamp, where, what, and
whether the writer was an Erg command (R281). -/
structure OldByte where
  at_ : Nat
  addr : Nat
  val : Byte
  erg : Bool
  deriving DecidableEq, Repr

/-- A residency and its region. -/
structure Region where
  ctx : Nat
  st : ResState := .pending
  /-- core and first page while placed (R370) -/
  place : Option (Nat × Nat) := none
  pm1 : Nat := 0
  member : Nat := 0
  nmem : Nat := 1
  gid : Option Nat := none
  erg : Bool := false
  lseg : W64 := 0
  hseg : W64 := 0
  cfga : W64 := 0
  listf : Bool := false
  rra : W64 := 0
  ibud : BitVec 48 := 0
  arg : W64 := 0
  seqs : List Seq := []
  /-- the configuration list: pointer, entry count, index (R136) -/
  lp : Option (W64 × Nat × Nat) := none
  cfg : Option Installed := none
  armedCfg : Bool := false
  /-- RUN has started and the configuration has not drained -/
  live : Bool := false
  trips : List Nat := [1, 1, 1, 1]
  nodes : Assoc NodeSt := []
  tslots : Assoc TileSlot := []
  ags : Assoc AccGroup := []
  bars : List BarUnit := []
  accs : Vector Acc 16 := Vector.replicate 16 {}
  /-- bank bytes by bank address (dune in [22:16]); an unlisted byte is zero (R413) -/
  bank : Assoc Byte := []
  bankPoison : List Nat := []
  /-- MODEL'S OWN: bank bytes overwritten while an Erg command is under way, and the stamp of the next write (R281) -/
  bankOld : List OldByte := []
  bankStamp : Nat := 0
  acs : BitVec 5 := 0
  lmc : W32 := 0
  lms : Bool := false
  svr : W64 := 0
  clones : Nat := 0
  cloneSets : List (Nat × Nat × List (Nat × Nat)) := []
  rcyc : Nat := 0
  vin : Assoc InPort := []
  vout : Assoc OutPort := []
  eqs : List EngQueue := List.replicate 8 {}
  /-- decoder slots: entry by 4096 slot + index; an unlisted entry is zero (R170) -/
  dec : Assoc W32 := []
  ergq : ErgQueue := {}
  /-- the Erg state in the residency's image (R277) -/
  ergImage : Option Erg := none
  /-- an uncorrectable error was met in a save of the image (R392) -/
  imageBad : Bool := false
  /-- of each dune, the node last granted its lanes, by key 128 × block + index (R187) -/
  granted : Assoc Nat := []
  task : Task := {}
  /-- knowledge of identifiers, by lead page (R324) -/
  know : List (BitVec 12) := []
  pendTraps : List TrapRec := []
  quiet : Nat := 0
  sweeps : Nat := 0
  swept : Bool := false
  /-- a snapshot of this member is in progress (R385) -/
  snap : Bool := false
  /-- the state to return to after a restore (R376) -/
  back : ResState := .unarmed
  loadFail : Option (Nat × Nat) := none
  faulted : Bool := false
  /-- a double trap: the residency retires with FAULT when its context resumes (R434) -/
  doomed : Bool := false
  retireStatus : Nat := 0
  /-- dwords 1 to 7 of its retire record have been written (R379) -/
  recHalf : Bool := false
  deriving DecidableEq, Repr

/-- The cause of a context's Stop, as its notice names it (R348, R350). -/
inductive StopWhy where
  | ctxState | save | restore | unlock | destroy
  deriving DecidableEq, Repr

/-- The power state of a core (R455). -/
inductive Power where
  | active | clockGated | pageGated | selfRefresh | linkLow
  deriving DecidableEq, Repr

/-- A telemetry record (R457): a page's state word, corrected errors met, a remap, a core's power state, a threshold crossed
upwards or downwards, the supply out of range, a port's status word, a scrub pass that contract windows have delayed. -/
inductive TeleRec where
  | page (core p : Nat) (word : W64)
  | errors (n : Nat)
  | remap (core p pos : Nat)
  | power (core : Nat) (st : Power)
  | thermal (limit : Nat) (up : Bool)
  | supply
  | link (port : Nat) (word : W64)
  | delay (stack : Nat)
  deriving DecidableEq, Repr

/-- What the device sends: a response (R423), an RMA reply, or a notice to the host. -/
inductive Sent where
  | response (opc : Nat) (tag : W64) (status : Nat) (result : List W64)
  | rmaReply (data : List Byte)
  | rmaError
  | nack (port : Nat)
  | doubleTrap (ctx : Nat) (first second : List W64)
  | queueStopped (ctx q : Nat)
  | queueLost (ctx q : Nat)
  | ctxStopped (ctx : Nat) (why : StopWhy)
  | spdm (what : Nat) (body : List Byte)
  | lifecycle (ok : Bool)
  /-- a message that is none of Nimale's, refused with a status of R425 (R452) -/
  | refusal (status : Nat)
  | telemetry (r : TeleRec)
  deriving DecidableEq, Repr

/-! ### Groups, queues, contracts, contexts (chapters 13, 14, 16) -/

inductive GroupState where
  | pending | loading | running | snapshotting | saved | restoring | retired
  deriving DecidableEq, Repr

structure Group where
  st : GroupState := .pending
  members : List Nat := []
  /-- the launching record: queue and sequence number; none for a spawned task, a group of its own -/
  from_ : Option (Nat × Nat)
  /-- a pre-emption request made and not yet taken (R384, R395), then the cause of the snapshot -/
  req : Option Preempt := none
  /-- its turn of R362 when it stands at its queue's head again (R393) -/
  skip : Nat := 0
  /-- MODEL'S OWN: `freeIx` when its members were validated (R374) -/
  since : Nat := 0
  /-- the member whose load was refused after admission, by index (R373, R374) -/
  refused : Option Nat := none
  deriving DecidableEq, Repr

/-- A command record of a queue (R357): eight dwords. -/
structure QRec where
  dw : List W64
  deriving DecidableEq, Repr

/-- A record that has left the head (R359), with its completion record fields (R361). -/
structure Started where
  seq : Nat
  rec_ : QRec
  gid : Option Nat := none
  finished : Bool := false
  reported : Bool := false
  status : Nat := 0
  code : Nat := 0
  index : Nat := 0
  /-- stores made: a WRITE's own, then dword 1 and dword 0 of the completion record (R359, R361) -/
  stage : Nat := 0
  deriving DecidableEq, Repr

inductive QState where
  | disabled | enabled | stopped | lost
  deriving DecidableEq, Repr

structure Queue where
  ctx : Nat
  desc : List W64
  st : QState := .disabled
  issued : W64 := 0
  done : W64 := 0
  skip : Nat := 0
  /-- device mode: records held in slots; host mode: the head record once it has been read -/
  store : List QRec := []
  /-- sequence number of the last record that left the head, and, in host mode, where it lay and where the head
  record that has been read lies -/
  taken : W64 := 0
  lastVa : W64 := 0
  headVa : W64 := 0
  /-- host mode: NEXT as it was read with the record at `lastVa` and with that at `headVa`, where a record followed then
  (R355, R357) -/
  lastNext : Option W64 := none
  headNext : Option W64 := none
  /-- MODEL'S OWN: the tails of Q_TAILs whose records are not all read, with `freeIx` then (R357) -/
  tails : List (W64 × Nat) := []
  started : List Started := []
  /-- the one move of its claim has been made (R415) -/
  claimed : Bool := false
  deriving DecidableEq, Repr

/-- An activation of a contract (R364). -/
structure Activation where
  queue : Nat
  first : W64
  last : W64
  order : Nat
  /-- cycle count of the lead core when its Q_TAIL arrived -/
  at_ : Nat
  exh : Bool := false
  miss : Bool := false
  cycles : Assoc Nat := []
  deriving DecidableEq, Repr

structure Contract where
  ctx : Nat
  desc : List W64
  acts : List Activation := []
  deriving DecidableEq, Repr

inductive CtxState where
  | created | keyed | active | suspended | faulted | lost | destroying
  deriving DecidableEq, Repr

/-- A channel binding (R419). -/
structure ChanBind where
  rnode : BitVec 16
  rctx : Nat
  rgen : BitVec 16
  deriving DecidableEq, Repr

structure Ctx where
  gen : BitVec 16
  st : CtxState := .created
  /-- the context descriptor (R340), its quotas as CTX_QUOTA leaves them -/
  desc : List W64
  nq : Nat
  pageq : Nat
  spq : Nat
  pinq : Nat
  keys : List W64 := []
  chans : Assoc ChanBind := []
  /-- the CTX_SYNCs not yet answered, the one in progress first (R345) -/
  syncs : List Msg := []
  /-- fault records that found the fault queue full (R434) -/
  heldRecs : List QRec := []
  /-- CTX_SUSPEND or a double trap waits for its last snapshot (R349) -/
  becoming : Option CtxState := none
  /-- the notice or response sent when that state is reached (R349) -/
  note : List Sent := []
  deriving DecidableEq, Repr

/-! ### Cores, memory side, links, security (chapters 10, 12, 17 to 21) -/

/-- A cached translation (R440): context, page base, page size, the leaf entry. -/
structure Tlb where
  ctx : Nat
  va : Nat
  size : Nat
  leaf : W64
  level : Nat
  epa : Nat
  deriving DecidableEq, Repr

inductive PageSt where
  | free | reserved | loading | armed | running | snapshotting | moving | quarantined | spare
  deriving DecidableEq, Repr

/-- A page's state (R411). -/
structure Page where
  st : PageSt := .free
  ctx : Nat := 0
  member : Nat := 0
  first : Nat := 0
  pm1 : Nat := 0
  erg : Bool := false
  ctr : Bool := false
  remap : Byte := 0
  rid : Option Nat := none
  /-- the dune positions whose remap is requested, and those of them that only wear asks for (R416, R458) -/
  want : List Nat := []
  wear : List Nat := []
  deriving DecidableEq, Repr

/-- One core: an unlisted core is as reset leaves it. -/
structure Core where
  cyc : W64 := 0
  counts : List (BitVec 12) := List.replicate 12 0
  erg : Erg := {}
  pages : List Page := List.replicate 12 {}
  spLeft : Nat := 2
  power : Power := .active
  waking : Bool := false
  tlb : List Tlb := []
  /-- corrected errors of each dune in the last 24 hours (R457) -/
  wear : Assoc Nat := []
  deriving DecidableEq, Repr

/-- The sideband of a sector (R39), the context whose memory key encrypted its bytes (R344; none
for the reset contents), and which of its eight words carry the poison marker (R446). -/
structure Side where
  fmt : Byte := 0
  sca : Byte := 0
  scb : Byte := 0
  tag : RaceTag := {}
  key : Option (Nat × BitVec 16) := none
  poison : Byte := 0
  deriving DecidableEq, Repr

/-- A segment of a fibre: its number in the home stack's store, its pairs in order, and whether an
uncorrectable error lies in it (R252, R253). Its sectors lie in no address space and carry the tag FSEG (R40, R249). -/
structure FSeg where
  num : Nat
  pairs : List (W64 × W64)
  bad : Bool := false
  deriving DecidableEq, Repr

/-- A registered fibre pool (R248, R249): descriptor dword, fibre count, segments per home stack,
and the segments in use at each home stack. -/
structure Pool where
  d0 : W64
  fibres : Nat
  perStack : Nat
  used : Assoc Nat := []
  nextSeg : Assoc Nat := []
  deriving DecidableEq, Repr

/-- A fibre's chain and version (R254); LEN, NSEG, FIRST, DIR and the probe index are views of it. `bad` says that an
uncorrectable error lies in its directory entry, `badIndex` in which segments' index entries one lies (R255, R261). -/
structure Fibre where
  segs : List FSeg := []
  version : W32 := 0
  bad : Bool := false
  badIndex : List Nat := []
  deriving DecidableEq, Repr

inductive FKind where
  | merge | ins | scan | probe | inter | count | clear | compact | topk | stat
  deriving DecidableEq, Repr

inductive FState where
  | staged | waiting | held | scanning | done
  deriving DecidableEq, Repr

/-- A fibre operation (R259 to R273): its node and record number, the fibre it names, its inputs, its
progress at the home unit, its result and its record. A position that starts no operation stands here too,
while operations before it are in progress. -/
structure FOp where
  rid : Nat
  blk : Nat
  nidx : Nat
  /-- the node's position (R428), and where the record goes (R258) -/
  num : Nat := 0
  rec_ : Option W64 := none
  kind : FKind
  ctx : Nat
  addr : W64
  /-- the FINTER whose second fibre this scan reads, and the scan of a FINTER's second fibre (R270) -/
  half : Option Nat := none
  other : Option Nat := none
  /-- staged pairs, the pair inserted, or the coordinate probed -/
  pairs : List (W64 × Token) := []
  opt : W32 := 0
  fmt : Byte := 0
  fbc : Bool := false
  mks : BitVec 4 := 0
  noop : Bool := false
  st : FState := .staged
  /-- arrival order at the home unit -/
  order : Nat := 0
  /-- segments a scan has still to read -/
  todo : List Nat := []
  waited : Bool := false
  hold : Nat := 0
  status : Nat := 0
  flags : BitVec 4 := 0
  segrd : Nat := 0
  segwr : Nat := 0
  splits : Nat := 0
  ins : Nat := 0
  comb : Nat := 0
  /-- pairs read, with the error mark of their segment -/
  got : List (W64 × W64 × Bool) := []
  /-- result tokens: to C1 and C3, and to C2 and C4 -/
  out : List (Token × Token) := []
  /-- dwords of the record written -/
  stage : Nat := 0
  paused : Option Nat := none
  remote : Option Nat := none
  /-- stream tokens its intersection discards for a missing or non-rising coordinate and has not counted (R203, R270) -/
  lost : Nat := 0
  /-- the node has trapped on the record's write (R441) or on such a token (R189) -/
  trapped : Bool := false
  deriving DecidableEq, Repr

/-- An outstanding fault record and the agents waiting on it (R440, R441). -/
structure FaultRec where
  ctx : Nat
  blk64 : Nat
  reason : Nat
  epa : Nat
  nwait : Nat := 1
  queueSeq : Option W64 := none
  /-- a write to the entry's sector performed, or a CTX_SYNC completed: the waiters retry -/
  woken : Bool := false
  /-- waiters that have left it to retry while others still wait on it: they join it no more (R441), each named by its
  region, SRC, ECAUSE and FULLBLK -/
  left : List (Nat × W64 × W64 × W64) := []
  deriving DecidableEq, Repr

inductive RemKind where
  | ld | st | amo | nodeLd | nodeSt | nodeAtom | engine | merge | barrier | fibreRec | ergRec | dev
  deriving DecidableEq, Repr

/-- The RMA atomic that a remote access is (R419): an operation code, an AOP (R95) or, for a SCATTER, its ROP (R175) with
its format, and the compare value of a CAS. -/
structure RemOp where
  code : Nat
  fmt : Nat := 0
  cmp : W64 := 0
  deriving DecidableEq, Repr

/-- An outgoing remote access (R332, R390, R419): who waits for it, its target and data. -/
structure Remote where
  kind : RemKind
  ctx : Nat
  rid : Nat
  pg : Nat := 0
  blk : Nat := 0
  nidx : Nat := 0
  i : Nat := 0
  rnode : BitVec 16
  chan : Nat
  rod : Bool
  addr : W64
  va : W64
  bytes : List Byte
  /-- bytes a read asks for -/
  len : Nat := 0
  op : Option RemOp := none
  /-- the core whose fabric interface sent it (R390, R455) -/
  core : Nat := 0
  /-- the data carries the poison marker (R232) -/
  bad : Bool := false
  result : Option W64 := none
  failed : Bool := false
  deriving DecidableEq, Repr

inductive LinkSt where
  | down | training | up | degraded | isolated
  deriving DecidableEq, Repr

/-- A port's link status (R426) and retry timer (R427). -/
structure Port where
  st : LinkSt := .down
  lanes : Nat := 0
  tries : Nat := 0
  ferr : Nat := 0
  llrr : Nat := 0
  timer : Bool := false
  /-- in its low-power mode (R455) -/
  low : Bool := false
  deriving DecidableEq, Repr

inductive Lifecycle where
  | manufacture | provisioned | deployed | debugUnlocked | decommissioned
  deriving DecidableEq, Repr

inductive BootSt where
  | rom | streaming | running | shutDown
  deriving DecidableEq, Repr

/-- Identity, fuses, boot and attestation state (R447 to R454). -/
structure Security where
  life : Lifecycle := .manufacture
  unlockFrom : Lifecycle := .manufacture
  unlocks : Nat := 0
  minVersion : Nat := 0
  seed : Bool := true
  /-- the identity key's private part, derived from the seed at boot, and the alias key's (R447, R450) -/
  idKey : Option Nat := none
  aliasKey : Option Nat := none
  ownerDigest : Option (BitVec 384) := none
  nodeId : Option (BitVec 16) := none
  teleAddr : List Byte := []
  m : Vector (BitVec 384) 8 := Vector.replicate 8 0
  nonce : Option (List Byte) := none
  scope : BitVec 16 := 0
  image : List Byte := []
  boot : BootSt := .rom
  /-- the management core's sequencer: it leaves reset in firmware mode, halted until the ROM starts it (R21, R435, R449) -/
  mgmt : Seq := { stat := 128, mgmt := true }
  deriving DecidableEq, Repr

/-- Counters that only telemetry reports (R422, R426, R444, R457). -/
structure Telemetry where
  corrected : Nat := 0
  repairs : Nat := 0
  refused : Nat := 0
  dropped : Nat := 0
  sent : Nat := 0
  lost : Nat := 0
  /-- records not yet sent, oldest first, and the words last reported of pages, by 12 core + page, and of ports (R457) -/
  pending : List TeleRec := []
  pages : Assoc W64 := []
  links : Assoc W64 := []
  deriving DecidableEq, Repr

/-! ### Who moves -/

/-- The agent whose instruction is being executed. -/
inductive Agent where
  | none
  | seq (r pg : Nat)
  | node (r b n : Nat)
  deriving DecidableEq, Repr

/-- A soft error the environment inflicts (R117, R291, R444): a register entry or its duplicate, a
word of HBM, a sector with its sideband, a word of a bank, the bank of a dune position whatever holds its page, an Erg plane,
table or wiring entry, a fibre segment (by its number), a segment's index entry or a fibre's directory entry, a token on an
edge or in the buffer of an ingress or egress port, a context's own state. -/
inductive Upset where
  | reg (r pg : Nat) (n : Reg) (dup : Bool)
  | mem (word : Nat)
  | side (sector : Nat)
  | bank (r word : Nat)
  | dune (core page pos : Nat)
  | plane (core k : Nat)
  | table (core k : Nat)
  | wire (core k : Nat)
  | fseg (ctx pool i k : Nat)
  | fdir (ctx pool i : Nat)
  | findex (ctx pool i k : Nat)
  | token (r b n slot : Nat)
  | inPort (r n : Nat)
  | outPort (r n : Nat)
  | ctx (c : Nat)
  deriving DecidableEq, Repr

/-- How a packet arrives (R417, R418, R421): its port, its channel with the delivery mode and the transport's sequence number
on it, and the session it came under. -/
structure Via where
  port : Nat
  chan : Nat
  rod : Bool
  num : Nat
  session : Session
  deriving DecidableEq, Repr

/-- What the management core does (R21, R435): it executes a sequencer instruction that it has fetched from Falim, or takes
a trap that is not that of an instruction's own meaning. -/
inductive MgmtTurn where
  | run (i : Instr)
  | trap (t : TrapRec)
  deriving DecidableEq, Repr

/-- Who moves next: a sequencer executes its next instruction, a node fires, a machine event
happens, a packet from outside arrives, a soft error strikes, cycles of a core pass in which nothing on it moves, or the management core
moves (notes/assumptions/3.md). -/
inductive Turn where
  | seq (r pg : Nat)
  | node (r b n : Nat)
  | event (i : Instr)
  | packet (v : Via) (i : Instr)
  | upset (u : Upset)
  | idle (core : Nat)
  | mgmt (m : MgmtTurn)
  deriving DecidableEq, Repr, Inhabited

/-! ### The whole machine -/

/-- An aligned dword as it stood before a write performed to it, with `freeIx` then and the key that encrypted it: what a
fetch, a load or the reading of a record may still see (R112, R344, R357, R374). -/
structure OldDword where
  at_ : Nat
  dw : Nat
  val : W64
  key : Option (Nat × BitVec 16) := none
  deriving DecidableEq, Repr

/-- A notice on its way from a bank to a core (R405): the sector written, and the sequencers of the core that watched
it when the write performed (R133), each as residency, page and its count of MONARM.CLRs. -/
structure Notice where
  core : Nat
  sector : Nat
  who : List (Nat × Nat × Nat) := []
  deriving DecidableEq, Repr

/-- A store of the device for a context (R354, R359, R361, R379): for which queue, or for which residency as 8192 plus its
number, the address, the bytes, and whether it makes its sector RAW (R40). -/
structure DevStore where
  who : Nat
  ctx : Nat
  va : W64
  bytes : List Byte
  raw : Bool := false
  deriving DecidableEq, Repr

structure State where
  /-- MODEL'S OWN: turns still to move, first first (notes/assumptions/3.md). -/
  agenda : List Turn := []
  /-- MODEL'S OWN: the counter free values are drawn with (notes/assumptions/4.md). -/
  freeIx : Nat := 0
  /-- MODEL'S OWN: who is executing. -/
  agent : Agent := .none
  /-- MODEL'S OWN: names for residencies, groups, remote accesses, fault records, fibre operations,
  tasks, arrivals (notes/assumptions/5.md). -/
  nextId : Nat := 1
  mem : List Host.Cell := []
  /-- MODEL'S OWN: old dwords that some reading under way may still see, the latest first (R112) -/
  hist : List OldDword := []
  side : Assoc Side := []
  /-- pins by 4 KiB physical block: (context, count) pairs (R177) -/
  pins : Assoc (Assoc Nat) := []
  watch : Assoc (BitVec 192) := []
  /-- the arrivals at local barrier objects: dword, phase and the tag each left, for the BARTEST that names the phase
  (R182, R402) -/
  arrivals : List (Nat × Nat × RaceTag) := []
  cores : Assoc Core := []
  regions : Assoc Region := []
  groups : Assoc Group := []
  ctxs : Assoc Ctx := []
  /-- the generation a context number had when it was last assigned (R339) -/
  gens : Assoc (BitVec 16) := []
  queues : Assoc Queue := []
  /-- the last queue destroyed under a number: its context and its DONE (R361, R367) -/
  goneQ : Assoc (Nat × W64) := []
  contracts : Assoc Contract := []
  /-- pools by 4096 ctx + pool; fibres by 2^44 (4096 ctx + pool) + index -/
  pools : Assoc Pool := []
  fibres : Assoc Fibre := []
  fops : Assoc FOp := []
  faults : Assoc FaultRec := []
  remotes : Assoc Remote := []
  /-- releases of the device that wait for an earlier store of the same queue or residency to perform at SYS (R333) -/
  owed : List DevStore := []
  ports : List Port := List.replicate 16 {}
  sec : Security := {}
  tele : Telemetry := {}
  /-- notices on their way from a bank to a core, and clear replies on their way back (R405) -/
  notices : List Notice := []
  clears : List (Nat × Nat) := []
  /-- queue last started at each effective priority (R362) -/
  lastStart : List Nat := List.replicate 8 0
  /-- the number that the next packet of a reliable-ordered channel carries, and the numbers received on an unordered one
  (R421) -/
  rodNext : Assoc Nat := []
  rudSeen : Assoc (List Nat) := []
  retraining : List Nat := []
  /-- rows being copied into spare rows, as (stack, row), and the corrected errors of a row in the last 24 hours, by
  2^40 stack + row (R457) -/
  repairing : List (Nat × Nat) := []
  rowErrs : Assoc Nat := []
  /-- stacks in self-refresh (R455) -/
  selfRefresh : List Nat := []
  throttle : Bool := false
  /-- the one move in progress for a claim: member residency and destination (R415) -/
  move : Option (Nat × Nat) := none
  sent : List Sent := []
  deriving DecidableEq, Repr

/-- A machine stops with a fault only where the model has no machine to run. -/
inductive Fault where
  /-- `exec` is applied to an instruction of another kind of agent than the one that executes (a node's
  instruction on a sequencer, a sequencer's with none executing). Raised by the shared operations that run
  a sequencer's or a node's instruction; step never gives them such an instruction. Safe: the hardware has
  no such step. -/
  | noSuchAgent
  deriving DecidableEq, Repr

/-- Refusals. -/
inductive Refusal where
  /-- The instruction has no meaning yet. Raised by exec's refused arms only. Safe. -/
  | notModelled (mnemonic : String)
  deriving DecidableEq, Repr

/-- Cold reset (R7, R24, R411, R426, R449): every field at its reset value; the values the spec does
not give are named in notes/assumptions/1.md and 2.md. -/
def State.reset : State := {}

end Sys2Proof.Machine
end

