-- ==== Sys2Proof/Config.lean ====
section
/-! DEFINITION. What an implementation fixes, and the free values: opaque constants with no body, so that
no proof can see what they are (notes/assumptions/4.md). Values drawn "afresh" are applied to the counter
`State.freeIx`. -/
namespace Sys2Proof.Config
open Sys2Proof.Machine

/-- FREE VALUE: core cycles that pass on the acting core in a step, beyond one (R25), and base cycles of a hold
(R264). -/
opaque cycles : Nat → Nat
/-- FREE VALUE: who moves when the agenda is empty (R8; notes/assumptions/3.md). -/
opaque nextTurn : Nat → Turn
/-- FREE VALUE: a byte written under one context's memory key and read under another's (R344). -/
opaque foreignByte : Nat → Byte
/-- FREE VALUE: a dword that a remote node's memory holds (R419). -/
opaque remoteWord : Nat → W64
/-- FREE VALUE: the value bits of a token whose data had an uncorrectable error (R162, R232). -/
opaque poisonWord : Nat → W64
/-- FREE VALUE: the coordinate of a token that carries none, where a pair is needed (R259). -/
opaque freeCoord : Nat → W64
/-- Which of the commands whose descriptors have its length a chained descriptor is: the spec gives no field
that tells them apart (R178). -/
opaque chainKind : List W64 → Nat
/-- FREE VALUE: the digit a T3 token is read as whose value bits are none of the digits 0, 1 and 2, as PORTW can make it
(R32, R143; notes/assumptions/123.md). -/
opaque tritOf : Nat → Nat
/-- FREE VALUE: a choice of the device between two allowed outcomes (R8). -/
opaque choice : Nat → Bool
/-- FREE VALUE: which of several places, numbers or results the device takes (R8). -/
opaque pick : Nat → Nat
/-- FREE VALUE: data the device makes up and the spec does not fix: a nonce (R453), certificate and
message bodies (R450). -/
opaque freeBytes : Nat → List Byte
/-- FREE VALUE: which of the values that a word has held since a reading began this reading sees: by `State.freeIx` and the
place of the word (R8, R112, R357, R374). -/
opaque wordPick : Nat → Nat → Nat
/-- The fused seed of the identity key (R447); whether it still stands is State's. -/
opaque identitySeed : List Byte
/-- The fused SHA-384 digests of Umasia's firmware key, manufacturing key and debug-authority key (R447). -/
opaque firmwareDigest : BitVec 384
opaque manufacturingDigest : BitVec 384
opaque debugDigest : BitVec 384
/-- The debug-authority key itself: a debug token carries none (R453; notes/assumptions/147.md). -/
opaque debugKey : List Byte
/-- The private key derived from the identity seed, and the alias key made at boot for M0 to M2: how, no rule says (R447,
R450). -/
opaque deriveKey : List Byte → Nat
opaque aliasSecret : List Byte → List Byte → Nat
/-- FREE VALUE: the secret number of a signature: of the key and the message it is made for (R447). -/
opaque signSecret : Nat → List Byte → Nat
/-- The Umasia root certificate of slot 0, and the number of R447's algorithm among the extended ones (R450). -/
opaque rootCert : List Byte
opaque extAlgorithm : List Byte
/-- The fused device identifier DEVID (R447). -/
opaque devId : BitVec 128
/-- The boot ROM's identity, measured into M0 (R449). -/
opaque romIdentity : List Byte
/-- The signed part, the signature, the key that it names, the security version and the firmware version of a Falim image
(R448, R424). -/
opaque imageBody : List Byte → List Byte
opaque imageSignature : List Byte → List Byte
opaque imageKey : List Byte → List Byte
opaque imageVersion : List Byte → Nat
opaque firmwareVersion : List Byte → W64
/-- Bytes of the device's reserved memory (R341, R353): the spec gives its use, not its size. -/
opaque reservedBytes : Nat
/-- Where a fibre segment lies, as a sector: context, pool, home stack and segment number (R249, R252). The storage lies in
no address space, so only the bits that watch buckets and filters take of it are seen (R133). -/
opaque segSector : Nat → Nat → Nat → Nat → Nat
/-- Where a fibre's probe index lies in the home directory storage: the fibre's key and version (R255). -/
opaque indexPlace : Nat → Nat → W32
/-- The row of HBM that a sector lies in: the spec gives no size of a row (R457). -/
opaque rowOf : Nat → Nat
/-- Whether staging space is free at a home base die (R249). -/
opaque stagingFree : Nat → Bool

/-- Tokens a non-delay edge buffers: "at least 64" (R184; notes/assumptions/6.md). -/
def edgeCap : Nat := 64
/-- Bytes of installed HBM: 12 stacks of 64 GiB (R22). -/
def hbmBytes : Nat := 12 * 64 * 2 ^ 30

end Sys2Proof.Config
end

