-- ==== Sys2Proof/Machine/Assoc.lean ====
section
/-! DEFINITION. Sparse collections: look-up, insertion in key order, removal and change. -/
namespace Sys2Proof.Machine

/-- The value at a key. -/
def Assoc.find {α : Type} : Assoc α → Nat → Option α
  | [], _ => none
  | (k, v) :: t, n => if k = n then some v else Assoc.find t n

/-- Put a value at a key, keeping the keys rising. -/
def Assoc.put {α : Type} : Assoc α → Nat → α → Assoc α
  | [], n, x => [(n, x)]
  | (k, v) :: t, n, x =>
    if n < k then (n, x) :: (k, v) :: t
    else if n = k then (n, x) :: t
    else (k, v) :: Assoc.put t n x

/-- Remove a key. -/
def Assoc.del {α : Type} (l : Assoc α) (n : Nat) : Assoc α := l.filter (fun e => e.1 != n)

/-- Change the value at a key, if it has one. -/
def Assoc.upd {α : Type} (l : Assoc α) (n : Nat) (f : α → α) : Assoc α :=
  l.map (fun e => if e.1 = n then (e.1, f e.2) else e)

/-- The value at a key, or what an unlisted key holds. -/
def Assoc.get {α : Type} (l : Assoc α) (n : Nat) (d : α) : α := (l.find n).getD d

/-- Put a value, or remove the key when the value is what an unlisted key holds. -/
def Assoc.store {α : Type} [DecidableEq α] (l : Assoc α) (n : Nat) (x d : α) : Assoc α :=
  if x = d then l.del n else l.put n x

/-- Change the element at a place of a list. -/
def listUpd {α : Type} : List α → Nat → (α → α) → List α
  | [], _, _ => []
  | x :: t, 0, f => f x :: t
  | x :: t, n + 1, f => x :: listUpd t n f

/-- The smallest number not below `n` that is no key, tried up to the length of the list. -/
def Assoc.fresh {α : Type} (l : Assoc α) (n : Nat) : Nat :=
  l.foldl (fun m e => if e.1 = m then m + 1 else m) n

end Sys2Proof.Machine
end

