-- ==== Sys2Proof/Machine/Bits.lean ====
section
/-! DEFINITION. Fields of words, byte order and sign extension (00 R2, R9; 05 intro). -/
namespace Sys2Proof.Machine

/-- `bits(x, lo + w − 1, lo)` (R9). -/
def fld (x : W64) (lo w : Nat) : Nat := x.toNat / 2 ^ lo % 2 ^ w
/-- `x` with its `w` bits from `lo` replaced by the low bits of `v`. -/
def putFld (x : W64) (lo w v : Nat) : W64 :=
  .ofNat 64 (x.toNat % 2 ^ lo + 2 ^ lo * (v % 2 ^ w) + 2 ^ (lo + w) * (x.toNat / 2 ^ (lo + w)))
/-- Cores of the package (R12). -/
def coreCount : Nat := 192
/-- A range of addresses cut at 64 KiB bounds. -/
def pieces64K (a n : Nat) : List (Nat × Nat) :=
  (List.range (n / 65536 + 2)).filterMap (fun i =>
    let lo := max a ((a / 65536 + i) * 65536)
    let hi := min (a + n) ((a / 65536 + i + 1) * 65536)
    if lo < hi then some (lo, hi - lo) else none)
/-- The one bit `n`. -/
def bit (x : W64) (n : Nat) : Bool := x.getLsbD n
/-- A word made of a natural number. -/
def w64 (n : Nat) : W64 := .ofNat 64 n
/-- A word made of an integer, modulo 2^64. -/
def i64 (n : Int) : W64 := .ofInt 64 n

/-- The two's-complement value of the low `w` bits of `x`. -/
def sval (w x : Nat) : Int :=
  if 2 * (x % 2 ^ w) < 2 ^ w then ((x % 2 ^ w : Nat) : Int) else ((x % 2 ^ w : Nat) : Int) - ((2 ^ w : Nat) : Int)
/-- The low `w` bits of an integer (R9). -/
def ubits (w : Nat) (x : Int) : Nat := (x % ((2 ^ w : Nat) : Int)).toNat

/-- The number whose bytes, least significant first, are these (R2). -/
def leNat : List Byte → Nat
  | [] => 0
  | b :: t => b.toNat + 256 * leNat t
/-- The `n` low bytes of a number, least significant first (R2). -/
def leBytes : Nat → Nat → List Byte
  | 0, _ => []
  | n + 1, x => .ofNat 8 x :: leBytes n (x / 256)

/-- Number of one bits among the low `w` bits (R120). -/
def popCount : Nat → Nat → Nat
  | 0, _ => 0
  | w + 1, x => x % 2 + popCount w (x / 2)
/-- Number of leading zero bits of the low `w` bits (R120). -/
def leadZeros : Nat → Nat → Nat
  | 0, _ => 0
  | w + 1, x => if x / 2 ^ w % 2 = 1 then 0 else 1 + leadZeros w x
/-- The exponent of the highest one bit below `w` (0 for none). -/
def topBit (w x : Nat) : Nat := w - 1 - leadZeros w x

/-- Dwords of a byte list, eight bytes each. -/
def leDwords : Nat → List Byte → List W64
  | 0, _ => []
  | n + 1, l => w64 (leNat (l.take 8)) :: leDwords n (l.drop 8)
/-- Bytes of dwords. -/
def dwBytes (l : List W64) : List Byte := l.flatMap (fun d => leBytes 8 d.toNat)
/-- Dword `i` of a descriptor or record. -/
def dw (l : List W64) (i : Nat) : W64 := l.getD i 0

end Sys2Proof.Machine
end

