-- ==== Sys2Proof/Machine/Mem.lean ====
section
/-! DEFINITION. Physical memory: 12 stacks of HBM as bytes in one canonical form, with the sideband of
each sector (01 R17, R18; 02 R39; 12 R316; 13 R344; 17 R403 to R405; 20 R441, R444 to R446). An unlisted
byte reads zero (notes/assumptions/2.md). -/
namespace Sys2Proof.Machine

/-- The byte at an address. -/
def Memory.get : List Host.Cell → Nat → Byte
  | [], _ => 0
  | (k, v) :: t, a => if k = a then v else Memory.get t a

/-- Write a byte, keeping the canonical form: a byte that an unlisted address reads as is not listed. -/
def Memory.set : List Host.Cell → Nat → Byte → List Host.Cell
  | [], a, b => if b = 0 then [] else [(a, b)]
  | (k, v) :: t, a, b =>
    if a < k then (if b = 0 then (k, v) :: t else (a, b) :: (k, v) :: t)
    else if a = k then (if b = 0 then t else (a, b) :: t)
    else (k, v) :: Memory.set t a b

/-- Write bytes at rising addresses. -/
def Memory.setAll : List Host.Cell → Nat → List Byte → List Host.Cell
  | m, _, [] => m
  | m, a, b :: t => Memory.setAll (Memory.set m a b) (a + 1) t

/-- Every key is at least `n`, keys strictly rise, and no entry is the byte an unlisted address reads as. -/
def Memory.wfFrom : Nat → List Host.Cell → Bool
  | _, [] => true
  | n, (k, v) :: t => decide (n ≤ k) && v != 0 && Memory.wfFrom (k + 1) t
/-- The canonical form of memory. -/
def Memory.wf (m : List Host.Cell) : Bool := Memory.wfFrom 0 m

/-- The home stack of a physical address (R18). -/
def homeStack (pa : Nat) : Nat := pa / 4096 % 12
/-- Installed memory (R22). -/
def installed (pa : Nat) : Bool := pa < Config.hbmBytes

def sectorOf (pa : Nat) : Nat := pa / 64
def State.sideAt (s : State) (sec : Nat) : Side := s.side.get sec {}
def State.setSide (s : State) (sec : Nat) (x : Side) : State := { s with side := s.side.store sec x {} }

/-- The key that encrypts a context's sectors: number and generation (R344). -/
abbrev MemKey := Nat × BitVec 16
def State.keyOf (s : State) (c : Nat) : MemKey :=
  (c, match s.ctxs.find c with | some x => x.gen | none => 0)

/-- A sector is readable under a key unless another context's key encrypted it (R344). -/
def State.readable (s : State) (key : MemKey) (sec : Nat) : Bool :=
  match (s.sideAt sec).key with
  | none => true
  | some k => k == key

/-- The byte a context reads: what memory holds, or an undefined byte of a foreign sector, which is a
free value (R344). -/
def State.peek (s : State) (key : MemKey) (a : Nat) : Byte :=
  if s.readable key (sectorOf a) then Memory.get s.mem a
  else Config.foreignByte (a + 2 ^ 52 * s.freeIx)

def State.peekN (s : State) (key : MemKey) (a : Nat) : Nat → List Byte
  | 0 => []
  | n + 1 => s.peek key a :: s.peekN key (a + 1) n

/-- The 64 undefined bytes a foreign sector holds once another context writes part of it (R344). -/
def foreignSector (ix sec : Nat) : List Byte :=
  (List.range 64).map (fun i => Config.foreignByte (sec * 64 + i + 2 ^ 52 * ix))

/-- A record for telemetry (R457). -/
def State.report (s : State) (r : TeleRec) : State := { s with tele := { s.tele with pending := s.tele.pending ++ [r] } }

/-- Whether one of the words that `n` bytes at `a` touch carries the poison marker (R446). The bytes
lie in one sector. -/
def State.poisonedAt (s : State) (a n : Nat) : Bool :=
  (List.range 8).any (fun i => (s.sideAt (sectorOf a)).poison.getLsbD i
    && decide (a < (a / 64 * 8 + i + 1) * 8) && decide ((a / 64 * 8 + i) * 8 < a + n))

/-- The words of a sector that `n` bytes at `a` cover whole. -/
def coveredWords (a n : Nat) : Byte :=
  (List.range 8).foldl (fun m i =>
    if a ≤ (a / 64 * 8 + i) * 8 ∧ (a / 64 * 8 + i + 1) * 8 ≤ a + n then m ||| BitVec.ofNat 8 (2 ^ i) else m) 0
/-- The words of a sector that `n` bytes at `a` touch. -/
def touchedWords (a n : Nat) : Byte :=
  (List.range 8).foldl (fun m i =>
    if a < (a / 64 * 8 + i + 1) * 8 ∧ (a / 64 * 8 + i) * 8 < a + n then m ||| BitVec.ofNat 8 (2 ^ i) else m) 0

/-! ### Old values (04 R112; 14 R357; 15 R374) -/

/-- The eight bytes of an aligned dword as memory holds them. -/
def State.rawDword (s : State) (d : Nat) : W64 := .ofNat 64 ((List.range 8).foldr (fun i x => (Memory.get s.mem (8 * d + i)).toNat + 256 * x) 0)
/-- Whether a sequencer may still read an old dword: it lay in the segment being executed and was overwritten since that
was entered, or it was overwritten since the last turn, when a configuration load may have begun. -/
def Seq.mayRead (q : Seq) (o : OldDword) : Bool :=
  !q.halted && (q.lastTurn ≤ o.at_
    || (q.entered ≤ o.at_ && q.seg.any (fun g => g.pas.any (fun p => 8 * o.dw < p.1 + p.2 && p.1 < 8 * o.dw + 8))))
/-- Whether some reading under way may still see an old dword. -/
def State.mayRead (s : State) (o : OldDword) : Bool :=
  s.regions.any (fun (e : Nat × Region) => e.2.seqs.any (·.mayRead o))
  || s.groups.any (fun (e : Nat × Group) => (e.2.st = .pending || e.2.st = .loading) && e.2.since ≤ o.at_)
  || s.queues.any (fun (e : Nat × Queue) => e.2.tails.any (fun t => t.2 ≤ o.at_))
/-- The dwords that `n` bytes at `a` touch are about to be overwritten: what they hold stays for readings under way. -/
def State.remember (s : State) (a n : Nat) : State :=
  let new := (List.range ((a + n + 7) / 8 - a / 8)).map (fun i =>
    ({ at_ := s.freeIx, dw := a / 8 + i, val := s.rawDword (a / 8 + i), key := (s.sideAt ((a / 8 + i) / 8)).key } : OldDword))
  { s with hist := (new ++ s.hist).filter s.mayRead }
/-- What the byte at `a` held that a reading which began at `t` sees: none for what memory holds now, else one of the values
it held since. The choice is one for each unit of `g` bytes, a word of code or configuration (R112, R374) or a dword of a
record (R357), independently (R8). -/
def State.oldSince (s : State) (t g a : Nat) : Option OldDword :=
  let l := s.hist.filter (fun o => o.dw = a / 8 && t ≤ o.at_)
  match Config.wordPick s.freeIx (a / g) % (l.length + 1) with
  | 0 => none
  | k + 1 => l[k]?
/-- The byte at `a` of an old dword, read under a key; one that another context's key encrypted is undefined (R344). -/
def State.oldByte (s : State) (key : MemKey) (a : Nat) (o : OldDword) : Byte :=
  if o.key.isNone || o.key = some key then .ofNat 8 (o.val.toNat / 256 ^ (a % 8)) else Config.foreignByte (a + 2 ^ 52 * s.freeIx)
/-- Bytes read at `a` under a key as memory holds them, seen in units of `g` bytes by a reading that began at `t`. -/
def State.seenSince (s : State) (t g : Nat) (key : MemKey) (a : Nat) (l : List Byte) : List Byte :=
  if s.hist.isEmpty then l
  else ((List.range l.length).zip l).map (fun x => (s.oldSince t g (a + x.1)).elim x.2 (s.oldByte key (a + x.1)))

/-- Store bytes inside one sector under a key; whole words lose the poison marker (R344, R446). -/
def State.poke (s : State) (key : MemKey) (a : Nat) (l : List Byte) : State :=
  let sec := sectorOf a
  let sd := s.sideAt sec
  let m := if s.readable key sec then s.mem else Memory.setAll s.mem (sec * 64) (foreignSector s.freeIx sec)
  { s with
    mem := Memory.setAll m a l
    side := s.side.store sec { sd with key := some key, poison := sd.poison &&& ~~~ coveredWords a l.length } {} }

/-- Write the poison marker into the words that `n` bytes at `a` touch (R446). -/
def State.pokeBad (s : State) (a n : Nat) : State :=
  let sd := s.sideAt (sectorOf a)
  s.setSide (sectorOf a) { sd with poison := sd.poison ||| touchedWords a n }

/-- Key of a sector's bucket in the watch tables: home stack, bank A[9:6], bucket A[19:10] (R403). -/
def watchKey (sec : Nat) : Nat :=
  (homeStack (sec * 64) * 16 + sec % 16) * 1024 + sec / 16 % 1024

/-- The two filter bits of an address (R131): A[13:6] and A[21:14]. -/
def filterBits (pa : Nat) : BitVec 256 := (1#256 <<< (pa / 64 % 256)) ||| (1#256 <<< (pa / 2 ^ 14 % 256))
/-- Whether a sequencer watches a sector: MONMASK.MEM and both filter bits (R133). -/
def Seq.watches (q : Seq) (sec : Nat) : Bool :=
  bit q.monmask 0 && q.filter &&& filterBits (64 * sec) = filterBits (64 * sec)
/-- Whether a residency stands on a core. -/
def Region.onCore (rg : Region) (core : Nat) : Bool := rg.place.any (fun p => p.1 = core)
/-- The sequencers on a core that watch a sector, as a write to it performs (R133). -/
def State.watchers (s : State) (core sec : Nat) : List (Nat × Nat × Nat) :=
  (s.regions.filter (fun (e : Nat × Region) => e.2.onCore core)).flatMap (fun (e : Nat × Region) =>
    (((List.range e.2.seqs.length).zip e.2.seqs).filter (fun x => x.2.watches sec)).map (fun x => (e.1, x.1, x.2.clrs)))

/-- A write performed to a sector: its bank sends notices to the cores of the bucket (R405). -/
def State.notify (s : State) (sec : Nat) : State :=
  let mask := s.watch.get (watchKey sec) 0
  { s with notices := s.notices ++
      ((List.range 192).filter mask.getLsbD).map (fun c => ({ core := c, sector := sec, who := s.watchers c sec } : Notice)) }
/-- An access by a port in its low-power mode first restores it; which port, the device chooses (R8, R455). -/
def State.wakePort (s : State) : State :=
  if s.ports.all (fun p => !p.low) then s
  else { s with ports := listUpd s.ports (Config.pick (s.freeIx * 65536 + 65535) % 16) (fun p => { p with low := false }) }
/-- An access to a stack in self-refresh first restores it (R455). -/
def State.rouse (s : State) (sec : Nat) : State :=
  { s with selfRefresh := s.selfRefresh.filter (· != homeStack (64 * sec)) }
/-- A stack is quiesced for retraining, or a row is being copied into a spare one: accesses to it wait (R457). -/
def State.quiesced (s : State) (pa : Nat) : Bool :=
  s.retraining.contains (homeStack pa) || s.repairing.contains (homeStack pa, Config.rowOf (sectorOf pa))
/-- A write performed to a sector of an address space: notices go out, and the waiters of a fault record whose entry lies in
the sector retry (R441). -/
def State.touched (s : State) (sec : Nat) : State :=
  let s := (s.rouse sec).notify sec
  { s with faults := s.faults.map (fun e => if e.2.epa / 8 = sec then (e.1, { e.2 with woken := true }) else e) }

/-- A write of bytes inside one sector performs at its home memory node (R316). -/
def State.write (s : State) (key : MemKey) (a : Nat) (l : List Byte) : State :=
  ((s.remember a l.length).poke key a l).touched (sectorOf a)
/-- The same for poisoned data (R446). -/
def State.writeBad (s : State) (key : MemKey) (a n : Nat) : State :=
  (((s.remember a n).poke key a (s.peekN key a n)).pokeBad a n).touched (sectorOf a)

/-- Bytes of a transfer cut at sector bounds: one event a piece (R337). -/
def pieces (a n : Nat) : List (Nat × Nat) :=
  (List.range (n / 64 + 2)).filterMap (fun i =>
    let lo := max a ((a / 64 + i) * 64)
    let hi := min (a + n) ((a / 64 + i + 1) * 64)
    if lo < hi then some (lo, hi - lo) else none)

/-- Writes of a transfer, sector by sector in rising order. -/
def State.writeAll (s : State) (key : MemKey) (a : Nat) (l : List Byte) : State :=
  (pieces a l.length).foldl (fun s p => s.write key p.1 ((l.drop (p.1 - a)).take p.2)) s
def State.poisonedAll (s : State) (a n : Nat) : Bool :=
  (pieces a n).any (fun p => s.poisonedAt p.1 p.2)

/-- The race tag of a sector (R39, R324). -/
def State.setTag (s : State) (sec : Nat) (t : RaceTag) : State :=
  s.setSide sec { s.sideAt sec with tag := t }
/-- The format tag and scales of a sector (R39, R40). -/
def State.setFmt (s : State) (sec : Nat) (fmt sca scb : Byte) : State :=
  s.setSide sec { s.sideAt sec with fmt := fmt, sca := sca, scb := scb }

end Sys2Proof.Machine
end

