-- ==== Sys2Proof/Machine/Num.lean ====
section
/-! DEFINITION. Numbers (chapter 02): element formats, exact values, rounding and conversion, the
floating operations, and exact accumulation. Values are exact: a finite value is a sign, a natural
mantissa and a power of two; an irrational result is carried to more bits than any rounding can see. -/
namespace Sys2Proof.Machine

/-! ### Status bits (R48, R53): INEXACT 0, OVERFLOW 1, SATURATED 2, INVALID 3, POISON 4 -/

abbrev Flags := BitVec 5
def fInexact : Flags := 1
def fOverflow : Flags := 2
def fSaturated : Flags := 4
def fInvalid : Flags := 8
def fPoison : Flags := 16

/-! ### Formats (R26, R27, R31) -/

/-- Width in bits of one element; 0 for the line and segment formats and for reserved codes (R26). -/
def fmtWidth (f : Nat) : Nat :=
  match f with
  | 0x00 | 0x01 | 0x02 | 0x03 | 0x04 | 0x07 => 8
  | 0x08 | 0x09 => 6
  | 0x0A | 0x0B => 4
  | 0x10 | 0x11 | 0x12 => 16
  | 0x18 | 0x19 | 0x1A => 32
  | 0x20 | 0x21 => 64
  | _ => 0
/-- Assigned format codes (R26). -/
def fmtKnown (f : Nat) : Bool := fmtWidth f != 0 || f = 0x05 || f = 0x06 || f = 0x30

/-- Integer formats: signedness (R31). -/
def fmtInt (f : Nat) : Option Bool :=
  match f with
  | 0x01 | 0x0B | 0x12 | 0x19 | 0x20 => some true
  | 0x02 | 0x1A => some false
  | _ => none
/-- INT of chapter 07: the integer formats a node computes in. -/
def fmtIsINT (f : Nat) : Bool := f = 0x01 || f = 0x02 || f = 0x12 || f = 0x19 || f = 0x1A || f = 0x20
/-- FLT of chapter 07. -/
def fmtIsFLT (f : Nat) : Bool := f = 0x18 || f = 0x11 || f = 0x10

/-- Which encodings of a floating format are special. -/
inductive Special where
  | ieee | f8e4 | none
  deriving DecidableEq, Repr

/-- A floating format: exponent bits, mantissa bits, bias, specials (R27). -/
structure FFmt where
  eb : Nat
  mb : Nat
  bias : Nat
  sp : Special
  deriving DecidableEq, Repr

def fmtFloat (f : Nat) : Option FFmt :=
  match f with
  | 0x03 => some ⟨4, 3, 7, .f8e4⟩
  | 0x04 => some ⟨5, 2, 15, .ieee⟩
  | 0x08 => some ⟨3, 2, 3, .none⟩
  | 0x09 => some ⟨2, 3, 1, .none⟩
  | 0x0A => some ⟨2, 1, 1, .none⟩
  | 0x10 => some ⟨8, 7, 127, .ieee⟩
  | 0x11 => some ⟨5, 10, 15, .ieee⟩
  | 0x18 => some ⟨8, 23, 127, .ieee⟩
  | _ => none

/-- The canonical NaN of a format, if it has one (R30). -/
def fmtNaN (f : Nat) : Option Nat :=
  match f with
  | 0x03 => some 0x7F
  | 0x04 => some 0x7E
  | 0x10 => some 0x7FC0
  | 0x11 => some 0x7E00
  | 0x18 => some 0x7FC00000
  | _ => none

/-- The value a PSN token or a poisoned result carries (R51, R190). -/
def nanOr0 (f : Nat) : Nat := (fmtNaN f).getD 0

/-! ### Exact values -/

/-- An operand's value: NaN, an infinity, or (−1)^neg × m × 2^e. -/
inductive Val where
  | nan
  | inf (neg : Bool)
  | fin (neg : Bool) (m : Nat) (e : Int)
  deriving DecidableEq, Repr

/-- An exact dyadic number m × 2^e. -/
structure Dy where
  m : Int
  e : Int
  deriving DecidableEq, Repr

def sgn (neg : Bool) (m : Nat) : Int := if neg then -(m : Int) else (m : Int)
/-- Both numbers over the smaller exponent. -/
def alignTo (m : Int) (e lo : Int) : Int := m * (2 ^ (e - lo).toNat : Nat)
def Dy.add (a b : Dy) : Dy :=
  let lo := if a.e ≤ b.e then a.e else b.e
  ⟨alignTo a.m a.e lo + alignTo b.m b.e lo, lo⟩
def Dy.mul (a b : Dy) : Dy := ⟨a.m * b.m, a.e + b.e⟩
def Dy.lt (a b : Dy) : Bool :=
  let lo := if a.e ≤ b.e then a.e else b.e
  alignTo a.m a.e lo < alignTo b.m b.e lo
def Dy.val (a : Dy) : Val := .fin (a.m < 0) a.m.natAbs a.e
/-- The finite value as a dyadic; zero for the others. -/
def Val.dy : Val → Dy
  | .fin neg m e => ⟨sgn neg m, e⟩
  | _ => ⟨0, 0⟩
def Val.isZero : Val → Bool
  | .fin _ m _ => m = 0
  | _ => false
def Val.neg : Val → Bool
  | .fin n _ _ => n
  | .inf n => n
  | .nan => false
/-- Less-than over finite values and infinities. -/
def Val.lt : Val → Val → Bool
  | .nan, _ | _, .nan => false
  | .inf true, .inf true => false
  | .inf true, _ => true
  | .inf false, _ => false
  | .fin _ _ _, .inf n => !n
  | a@(.fin _ _ _), b@(.fin _ _ _) => a.dy.lt b.dy
def Val.eq : Val → Val → Bool
  | .nan, _ | _, .nan => false
  | a, b => !a.lt b && !b.lt a

/-- Number of bits of a natural. -/
def bitLen (n : Nat) : Nat := if n = 0 then 0 else Nat.log2 n + 1

/-- The value of a floating encoding (R27). -/
def FFmt.val (f : FFmt) (x : Nat) : Val :=
  let s := x / 2 ^ (f.eb + f.mb) % 2 = 1
  let e := x / 2 ^ f.mb % 2 ^ f.eb
  let m := x % 2 ^ f.mb
  let top := 2 ^ f.eb - 1
  if f.sp = .ieee && e = top then (if m = 0 then .inf s else .nan)
  else if f.sp = .f8e4 && e = top && m = 2 ^ f.mb - 1 then .nan
  else if e = 0 then .fin s m (1 - (f.bias : Int) - f.mb)
  else .fin s (2 ^ f.mb + m) ((e : Int) - f.bias - f.mb)

/-- The digit of a T3 token: its value bits; what digit others stand for, the spec does not say (R32;
notes/assumptions/123.md). -/
def trit (x : Nat) : Nat := if x < 3 then x else Config.tritOf x % 3
/-- The value of an element of a format; `anchor` serves FX64, and a T3 element is its digit (R27, R31, R32,
R47). -/
def fmtVal (f : Nat) (anchor : Int) (x : Nat) : Val :=
  match fmtFloat f with
  | some ff => ff.val (x % 2 ^ fmtWidth f)
  | none =>
    if f = 0x21 then let v := sval 64 x; .fin (v < 0) v.natAbs anchor
    else if f = 0x07 then
      let d := trit x
      .fin (d = 2) (if d = 0 then 0 else 1) 0
    else match fmtInt f with
      | some true => let v := sval (fmtWidth f) x; .fin (v < 0) v.natAbs 0
      | _ => .fin false (x % 2 ^ fmtWidth f) 0

/-- A subnormal encoding of a floating format. -/
def fmtSubnormal (f x : Nat) : Bool :=
  match fmtFloat f with
  | some ff => x / 2 ^ ff.mb % 2 ^ ff.eb = 0 && x % 2 ^ ff.mb != 0
  | none => false
/-- Whether an encoding counts as zero (R46); `fbc` flushes subnormals first. -/
def fmtZero (f : Nat) (fbc : Bool) (x : Nat) : Bool :=
  match fmtFloat f with
  | some ff => x % 2 ^ (ff.eb + ff.mb) = 0 || (fbc && fmtSubnormal f x)
  | none => x % 2 ^ fmtWidth f = 0

/-! ### Rounding (R42, R43) -/

/-- Whether a magnitude `q` with remainder `rem` of 2^sh is rounded up in magnitude. -/
def roundUp (mode : Nat) (neg : Bool) (q rem sh : Nat) : Bool :=
  match mode with
  | 1 => false
  | 2 => rem != 0 && !neg
  | 3 => rem != 0 && neg
  | 4 => 2 * rem ≥ 2 ^ sh && rem != 0
  | _ => 2 * rem > 2 ^ sh || (2 * rem = 2 ^ sh && q % 2 = 1 && rem != 0)

/-- m × 2^e rounded to a whole multiple of 2^u: the multiple, and whether bits were lost. -/
def roundAt (mode : Nat) (neg : Bool) (m : Nat) (e u : Int) : Nat × Bool :=
  if u ≤ e then (m * 2 ^ (e - u).toNat, false)
  else
    let sh := (u - e).toNat
    let q := m / 2 ^ sh
    let rem := m % 2 ^ sh
    (if roundUp mode neg q rem sh then q + 1 else q, rem != 0)

/-- Overflow behaviours of R43's columns. -/
inductive Ovf where
  | byMode | sat | nan
  deriving DecidableEq, Repr

def ovfOf (f : Nat) (e4ns e5s : Bool) : Ovf :=
  if f = 0x03 then (if e4ns then .nan else .sat)
  else if f = 0x04 then (if e5s then .sat else .byMode)
  else if f = 0x08 || f = 0x09 || f = 0x0A then .sat
  else .byMode

/-- Largest finite encoding without its sign (R27). -/
def FFmt.max (f : FFmt) : Nat :=
  match f.sp with
  | .ieee => (2 ^ f.eb - 2) * 2 ^ f.mb + (2 ^ f.mb - 1)
  | .f8e4 => (2 ^ f.eb - 1) * 2 ^ f.mb + (2 ^ f.mb - 2)
  | .none => (2 ^ f.eb - 1) * 2 ^ f.mb + (2 ^ f.mb - 1)
def FFmt.infCode (f : FFmt) : Nat := (2 ^ f.eb - 1) * 2 ^ f.mb
def FFmt.sign (f : FFmt) (neg : Bool) : Nat := if neg then 2 ^ (f.eb + f.mb) else 0

/-- A finite exact value into a floating format (R42, R43): encoding and status. -/
def FFmt.round (ff : FFmt) (f mode : Nat) (o : Ovf) (neg : Bool) (m : Nat) (e : Int) : Nat × Flags :=
  if m = 0 then (ff.sign neg, 0)
  else
    let lead := (bitLen m : Int) - 1 + e
    let emin : Int := 1 - ff.bias
    let u := (if lead < emin then emin else lead) - ff.mb
    let (n, lost) := roundAt mode neg m e u
    -- a carry out of the mantissa moves one exponent up
    let (n, u) := if n = 2 ^ (ff.mb + 1) then (2 ^ ff.mb, u + 1) else (n, u)
    let code : Nat :=
      if n < 2 ^ ff.mb then n else (u + ff.mb + ff.bias).toNat * 2 ^ ff.mb + (n - 2 ^ ff.mb)
    if code > ff.max then
      match o with
      | .sat => (ff.sign neg + ff.max, fSaturated ||| fInexact)
      | .nan => (nanOr0 f, fOverflow ||| fInexact)
      | .byMode =>
        let toInf := match mode with
          | 1 => false
          | 2 => !neg
          | 3 => neg
          | _ => true
        (ff.sign neg + (if toInf then ff.infCode else ff.max), fOverflow ||| fInexact)
    else (ff.sign neg + code, if lost then fInexact else 0)

/-- The range of an integer format or of FX64's v (R31, R47). -/
def intRange (f : Nat) : Int × Int :=
  if f = 0x02 || f = 0x1A then (0, (2 ^ fmtWidth f : Nat) - 1)
  else (-((2 ^ (fmtWidth f - 1) : Nat) : Int), (2 ^ (fmtWidth f - 1) : Nat) - 1)

/-- A finite value to an integer format, or to v of FX64 at an anchor (R43, R47): bits lost in the rounding set
INEXACT whether or not the rounded integer is then clamped (R199, R47). -/
def roundInt (f mode : Nat) (anchor : Int) (neg : Bool) (m : Nat) (e : Int) : Nat × Flags :=
  let (n, lost) := roundAt mode neg m e anchor
  let x := sgn neg n
  let (lo, hi) := intRange f
  let l : Flags := if lost then fInexact else 0
  if x < lo then (ubits (fmtWidth f) lo, fSaturated ||| l)
  else if x > hi then (ubits (fmtWidth f) hi, fSaturated ||| l)
  else (ubits (fmtWidth f) x, l)

/-- Arithmetic mode fields (R44, R104). -/
structure Mode where
  rm : Nat := 0
  ftz : Bool := false
  daz : Bool := false
  fbc : Bool := false
  e4ns : Bool := false
  e5s : Bool := false
  deriving DecidableEq, Repr
/-- AMF (R104). -/
def Mode.ofAmf (x : Nat) : Mode :=
  { rm := x % 8, ftz := x / 8 % 2 = 1, daz := x / 16 % 2 = 1, fbc := x / 32 % 2 = 1
    e4ns := x / 64 % 2 = 1, e5s := x / 128 % 2 = 1 }

/-- Conversion of a value into a format (R43, R47). -/
def convert (v : Val) (f mode : Nat) (md : Mode) (anchor : Int) : Nat × Flags :=
  match fmtFloat f with
  | some ff =>
    let o := ovfOf f md.e4ns md.e5s
    match v with
    | .nan => match fmtNaN f with
      | some n => (n, 0)
      | none => (0, fInvalid)
    | .inf neg => match o with
      | .byMode => (ff.sign neg + ff.infCode, 0)
      | .sat => (ff.sign neg + ff.max, fSaturated)
      | .nan => (nanOr0 f, fOverflow)
    | .fin neg m e => ff.round f mode o neg m e
  | none =>
    let a := if f = 0x21 then anchor else 0
    match v with
    | .nan => (0, fInvalid)
    | .inf neg => (ubits (fmtWidth f) (if neg then (intRange f).1 else (intRange f).2), fSaturated)
    | .fin neg m e => roundInt f mode a neg m e

/-- FTZ on a result of element arithmetic (R44). -/
def flush (f : Nat) (ftz : Bool) (r : Nat × Flags) : Nat × Flags :=
  if ftz && fmtSubnormal f r.1 then
    (match fmtFloat f with | some ff => r.1 / 2 ^ (ff.eb + ff.mb) * 2 ^ (ff.eb + ff.mb) | none => r.1,
     r.2 ||| fInexact)
  else r
/-- DAZ on an operand (R44). -/
def dazVal (f : Nat) (daz : Bool) (x : Nat) : Val :=
  match fmtVal f 0 x with
  | .fin neg m e => if daz && fmtSubnormal f x then .fin neg 0 e else .fin neg m e
  | v => v

/-! ### Floating element operations (R45, R198) -/

/-- Sign of an exact zero sum (IEEE 754): negative when both are, or when they differ and the mode is
toward −∞. -/
def zeroSign (mode : Nat) (a b : Bool) : Bool := if a = b then a else mode = 3

/-- a + b, rounded once (IEEE 754). -/
def fAdd (f mode : Nat) (a b : Val) : Nat × Flags :=
  match a, b with
  | .nan, _ | _, .nan => (nanOr0 f, 0)
  | .inf x, .inf y => if x = y then convert (.inf x) f mode {} 0 else (nanOr0 f, fInvalid)
  | .inf x, _ | _, .inf x => convert (.inf x) f mode {} 0
  | a, b =>
    let s := a.dy.add b.dy
    if s.m = 0 then
      convert (.fin (if a.isZero && b.isZero then zeroSign mode a.neg b.neg else mode = 3) 0 0) f mode {} 0
    else convert s.val f mode {} 0

/-- The exact product; `none` for 0 × ∞. -/
def vMul (a b : Val) : Option Val :=
  match a, b with
  | .nan, _ | _, .nan => some .nan
  | .inf x, y => if y.isZero then none else some (.inf (x != y.neg))
  | y, .inf x => if y.isZero then none else some (.inf (x != y.neg))
  | .fin n m e, .fin n' m' e' => some (.fin (n != n') (m * m') (e + e'))

/-- a × b, rounded once. -/
def fMul (f mode : Nat) (a b : Val) : Nat × Flags :=
  match vMul a b with
  | none => (nanOr0 f, fInvalid)
  | some v => convert v f mode {} 0

/-- a × b + c, rounded once. DESIGN CHOICE: 0 × infinity with a NaN addend gives the canonical NaN without INVALID, which
IEEE 754 leaves to the implementation (R45; notes/assumptions/139.md). -/
def fFma (f mode : Nat) (a b c : Val) : Nat × Flags :=
  match vMul a b with
  | none => (nanOr0 f, if c = .nan then 0 else fInvalid)
  | some p => fAdd f mode p c

/-- FMIN and FMAX (R198). -/
def fMin (a b : Val) : Val :=
  match a, b with
  | .nan, v | v, .nan => v
  | a, b => if a.isZero && b.isZero then (if a.neg then a else b) else if b.lt a then b else a
def fMax (a b : Val) : Val :=
  match a, b with
  | .nan, v | v, .nan => v
  | a, b => if a.isZero && b.isZero then (if a.neg then b else a) else if a.lt b then b else a

/-- An irrational magnitude between m and m + 1 units of 2^e, kept apart from both. -/
def sticky (m : Nat) (e : Int) : Nat × Int := (4 * m + 1, e - 2)

/-- The quotient a / b of positive numbers to 64 bits or more, exact or sticky: mantissa over 2^k. -/
def quot (a b : Nat) : Nat × Int :=
  let k := 66 + bitLen b
  let q := a * 2 ^ k / b
  if q * b = a * 2 ^ k then (q, -(k : Int)) else sticky q (-(k : Int))

/-- Floor of a square root, over the bits from `n` down. -/
def isqrt : Nat → Nat → Nat → Nat
  | 0, _, r => r
  | n + 1, x, r => if (r + 2 ^ n) * (r + 2 ^ n) ≤ x then isqrt n x (r + 2 ^ n) else isqrt n x r

/-- 1 / √m for a positive m, to more than 64 bits, exact or sticky. -/
def rsqrt (m : Nat) : Nat × Int :=
  let k := 70 + bitLen m
  let q := isqrt (k + 1) (2 ^ (2 * k) / m) 0
  if q * q * m = 2 ^ (2 * k) then (q, -(k : Int)) else sticky q (-(k : Int))

/-- ln 2 × 2^320. -/
def ln2 : Nat := 1480553391661173448385607439722553250922680800745876974795605978609098082859138712941075737848984
/-- Terms y^k / k! from k on, at 320 fraction bits. -/
def expTerms : Nat → Nat → Nat → Nat → Nat
  | 0, _, _, _ => 0
  | n + 1, k, y, t => t + expTerms n (k + 1) y (t * y / 2 ^ 320 / (k + 1))
/-- 2^f × 2^320 for a fraction f given at 320 bits. -/
def exp2Fix (f : Nat) : Nat := expTerms 90 0 (f * ln2 / 2 ^ 320) (2 ^ 320)
/-- z^(2k+1) / (2k+1) from k on, at 320 fraction bits. -/
def atanhTerms : Nat → Nat → Nat → Nat → Nat
  | 0, _, _, _ => 0
  | n + 1, k, z2, t => t / (2 * k + 1) + atanhTerms n (k + 1) z2 (t * z2 / 2 ^ 320)
/-- log2(m / 2^b) × 2^320 for m in [2^b, 2^(b+1)). -/
def log2Fix (m b : Nat) : Nat :=
  let z := (m - 2 ^ b) * 2 ^ 320 / (m + 2 ^ b)
  2 * atanhTerms 110 0 (z * z / 2 ^ 320) z * 2 ^ 320 / ln2

/-- FRCP (R45). -/
def fRcp (mode : Nat) (a : Val) : Nat × Flags :=
  match a with
  | .nan => (nanOr0 0x18, 0)
  | .inf n => convert (.fin n 0 0) 0x18 mode {} 0
  | .fin n m e =>
    if m = 0 then ((convert (.inf n) 0x18 mode {} 0).1, fOverflow)
    else let (q, k) := quot 1 m; convert (.fin n q (k - e)) 0x18 mode {} 0

/-- FRSQ (R45). -/
def fRsq (mode : Nat) (a : Val) : Nat × Flags :=
  match a with
  | .nan => (nanOr0 0x18, 0)
  | .inf n => if n then (nanOr0 0x18, fInvalid) else (0, 0)
  | .fin n m e =>
    if m = 0 then ((convert (.inf n) 0x18 mode {} 0).1, fOverflow)
    else if n then (nanOr0 0x18, fInvalid)
    else
      let (m, e) := if e % 2 = 0 then (m, e) else (2 * m, e - 1)
      let (q, k) := rsqrt m
      convert (.fin false q (k - e / 2)) 0x18 mode {} 0

/-- FEXP2 (R45). -/
def fExp2 (mode : Nat) (a : Val) : Nat × Flags :=
  match a with
  | .nan => (nanOr0 0x18, 0)
  | .inf n => if n then (0, 0) else convert (.inf false) 0x18 mode {} 0
  | .fin n m e =>
    if m = 0 then convert (.fin false 1 0) 0x18 mode {} 0
    else if (bitLen m : Int) + e > 10 then
      -- |x| ≥ 512: far above the largest or far below the smallest value
      convert (if n then .fin false 1 (-1000) else .fin false 1 1000) 0x18 mode {} 0
    else
      let x := Dy.mk (sgn n m) e
      let fl := if 0 ≤ e then alignTo x.m e 0 else x.m / (2 ^ (-e).toNat : Nat)
      let fr := alignTo x.m e (-320) - alignTo fl 0 (-320)
      if fr = 0 then convert (.fin false 1 fl) 0x18 mode {} 0
      else let (q, k) := sticky (exp2Fix fr.toNat) (fl - 320); convert (.fin false q k) 0x18 mode {} 0

/-- FLOG2 (R45). -/
def fLog2 (mode : Nat) (a : Val) : Nat × Flags :=
  match a with
  | .nan => (nanOr0 0x18, 0)
  | .inf n => if n then (nanOr0 0x18, fInvalid) else convert (.inf false) 0x18 mode {} 0
  | .fin n m e =>
    if m = 0 then ((convert (.inf true) 0x18 mode {} 0).1, fOverflow)
    else if n then (nanOr0 0x18, fInvalid)
    else
      let b := bitLen m - 1
      let ex : Int := e + b
      if m = 2 ^ b then convert (Dy.mk ex 0).val 0x18 mode {} 0
      else
        let v := alignTo ex 0 (-320) + log2Fix m b
        let (q, k) := sticky v.natAbs (-320)
        convert (.fin (v < 0) q k) 0x18 mode {} 0

/-! ### Exact accumulation (R48 to R51) -/

/-- floor(log2 |t|) of a nonzero term (R50). -/
def Dy.lead (t : Dy) : Int := (bitLen t.m.natAbs : Int) - 1 + t.e

/-- acc_add (R50). -/
def Acc.add (a : Acc) (t : Dy) : Acc :=
  if a.poison || a.overflow || t.m = 0 then a
  else
    let a := if a.av then a else { a with anchor := t.lead - 160, av := true }
    let (q, lost) := roundAt 1 (t.m < 0) t.m.natAbs t.e a.anchor
    let s := a.v + sgn (t.m < 0) q
    let a := { a with inexact := a.inexact || lost }
    if s > (2 ^ 255 : Nat) - 1 then { a with v := (2 ^ 255 : Nat) - 1, overflow := true }
    else if s < -((2 ^ 255 : Nat) : Int) then { a with v := -((2 ^ 255 : Nat) : Int), overflow := true }
    else { a with v := s }
/-- The status bits acc_add raises (R50). -/
def Acc.addRaises (a : Acc) (t : Dy) : Flags :=
  let r := ({ a with inexact := false } : Acc).add t
  (if r.inexact then fInexact else 0) ||| (if r.overflow && !a.overflow then fOverflow else 0)
/-- An invalid input arrives (R49). -/
def Acc.addInvalid (a : Acc) : Acc := { a with invalid := true, poison := true }
/-- A poisoned term arrives (R49). -/
def Acc.addPoison (a : Acc) : Acc := { a with poison := true }

/-- Status bits [4:0] of the accumulator's own word (R48). -/
def Acc.flags (a : Acc) : Flags :=
  (if a.inexact then fInexact else 0) ||| (if a.overflow then fOverflow else 0)
    ||| (if a.invalid then fInvalid else 0) ||| (if a.poison then fPoison else 0)
/-- The status word with other status bits in place of its own (R48, R51). -/
def Acc.wordWith (a : Acc) (f : Flags) : Nat :=
  ubits 16 a.anchor * 2 ^ 16 + (if a.av then 2 ^ 15 else 0) + f.toNat
def Acc.word (a : Acc) : Nat := a.wordWith a.flags

/-- DRAIN of an accumulator (R51): the result and the drain status bits. -/
def Acc.drain (a : Acc) (f mode : Nat) (md : Mode) (anchor : Int) : Nat × Flags :=
  if a.poison then
    match fmtNaN f with
    | some n => (n, a.flags)
    | none => (0, a.flags ||| fInvalid)
  else if a.overflow then
    let r := convert (.inf (a.v < 0)) f mode md anchor
    (r.1, a.flags ||| r.2)
  else
    let r := convert (Dy.mk a.v a.anchor).val f mode md anchor
    (r.1, a.flags ||| r.2)

end Sys2Proof.Machine
end

