-- ==== Sys2Proof/Machine/Xlate.lean ====
section
/-! DEFINITION. Address translation: the walk, the leaf checks and the translation cache (20 R436 to
R440; 19 R419). -/
namespace Sys2Proof.Machine

/-- Kinds of access, coded as ACC (R439). -/
inductive AccK where
  | read | write | atomic | fetch
  deriving DecidableEq, Repr
def AccK.code : AccK → Nat
  | .read => 0 | .write => 1 | .atomic => 2 | .fetch => 3

/-- Where a walk stopped (R438, R439): reason, level of the entry, and PA[51:3] of the entry. -/
structure XFault where
  reason : Nat
  level : Nat
  epa : Nat
  deriving DecidableEq, Repr

/-- The walk detail word (R439). -/
def XFault.detail (f : XFault) (k : AccK) : W64 :=
  w64 (f.epa * 2 ^ 15 + f.level * 2 ^ 12 + k.code * 2 ^ 10 + f.reason)
/-- A handler can service reasons 1 and 2 (R438). -/
def XFault.recoverable (f : XFault) : Bool := f.reason = 1 || f.reason = 2

/-- A leaf found by a walk: the entry, its level and PA[51:3] of it. -/
structure Leaf where
  entry : W64
  level : Nat
  epa : Nat
  deriving DecidableEq, Repr

/-- What an address translates to: a local physical address, or an address of a remote node over a
channel; with the page's UCHK bit (R327, R437). -/
inductive Target where
  | loc (pa : Nat) (uchk : Bool)
  | rem (rnode : BitVec 16) (chan : Nat) (rod : Bool) (addr : W64) (uchk : Bool)
  deriving DecidableEq, Repr

/-- The physical address of a local target. -/
def Target.local? : Target → Option Nat
  | .loc pa _ => some pa
  | .rem _ _ _ _ _ => none

/-- Index of an address at a level (R436). -/
def vaIndex (va : Nat) : Nat → Nat
  | 0 => va / 2 ^ 48 % 256
  | 1 => va / 2 ^ 39 % 512
  | 2 => va / 2 ^ 30 % 512
  | 3 => va / 2 ^ 21 % 512
  | _ => va / 2 ^ 16 % 32
/-- Page size of a leaf at a level (R436). -/
def pageSize : Nat → Nat
  | 2 => 2 ^ 30
  | 3 => 2 ^ 21
  | _ => 2 ^ 16

/-- Reason 4: a reserved bit set, LEAF where R436 forbids it or missing at level 4, or a misaligned
frame (R436, R437). -/
def malformed (e : W64) (level : Nat) : Bool :=
  bit e 7
  || (bit e 6 && (!bit e 1 || bit e 3))
  || (if bit e 1 then
        level < 2
        || (if bit e 6 then bit e 8 || fld e 16 32 % (pageSize level / 2 ^ 16) != 0
            else fld e 8 8 != 0 || fld e 52 12 != 0 || fld e 16 36 % (pageSize level / 2 ^ 16) != 0)
      else
        level = 4 || fld e 52 12 != 0 || (level < 3 && fld e 8 4 != 0))

/-- Address of the next table of a pointer entry (R437). -/
def nextTable (e : W64) : Nat := fld e 8 44 * 256
/-- Frame of a local leaf (R437). -/
def leafFrame (e : W64) : Nat := fld e 16 36 * 65536

/-- The walk from a table at a level, over the levels left (R436, R438). -/
def walkFrom (s : State) (key : MemKey) (va : Nat) : List Nat → Nat → Except XFault Leaf
  | [], _ => .error ⟨4, 4, 0⟩
  | level :: more, table =>
    let a := table + 8 * vaIndex va level
    if !installed a then .error ⟨5, level, a / 8⟩
    else if s.poisonedAt a 8 then .error ⟨9, level, a / 8⟩
    else
      let e := w64 (leNat (s.peekN key a 8))
      if !bit e 0 then .error ⟨if bit e 5 then 3 else 1, level, a / 8⟩
      else if malformed e level then .error ⟨4, level, a / 8⟩
      else if bit e 1 then
        if !bit e 6 && !installed (leafFrame e + pageSize level - 1) then .error ⟨5, level, a / 8⟩
        else .ok ⟨e, level, a / 8⟩
      else if !installed (nextTable e) then .error ⟨5, level, a / 8⟩
      else walkFrom s key va more (nextTable e)

/-- The whole walk of a context (R436, R438): reason 6 before it. -/
def walk (s : State) (c : Nat) (va : W64) : Except XFault Leaf :=
  if va.toNat / 2 ^ 56 != 0 then .error ⟨6, 0, 0⟩
  else match s.ctxs.find c with
    | none => .error ⟨5, 0, 0⟩
    | some x => walkFrom s (s.keyOf c) va.toNat [0, 1, 2, 3, 4] (dw x.desc 1).toNat

def State.core (s : State) (n : Nat) : Core := s.cores.get n {}
def State.setCore (s : State) (n : Nat) (x : Core) : State := { s with cores := s.cores.put n x }

/-- The cached translation that covers an address (R440). -/
def tlbHit (l : List Tlb) (c va : Nat) : Option Tlb :=
  l.find? (fun t => t.ctx = c && t.va = va / t.size * t.size)

/-- The leaf an access uses: the walk's, or, while a cached translation differs from it, either of the
two (R8, R440), a free choice. -/
def findLeaf (s : State) (core c : Nat) (va : W64) : Except XFault Leaf :=
  let w := walk s c va
  if va.toNat / 2 ^ 56 != 0 then w
  else match tlbHit (s.core core).tlb c va.toNat with
    | none => w
    | some t =>
      if w.toOption = some ⟨t.leaf, t.level, t.epa⟩ then w
      else if Config.choice (s.freeIx * 65536 + va.toNat) then .ok ⟨t.leaf, t.level, t.epa⟩ else w

/-! ### The flat bytes of views (R297, R299, R300) -/

def View.op (w : View) : Nat := fld w.d0 48 4
def View.fmt (w : View) : Nat := fld w.d0 40 8
/-- Bytes of an element. -/
def View.z (w : View) : Nat := fmtWidth w.fmt / 8
def View.rows (w : View) : Nat := fld w.d0 16 12 + 1
def View.cols (w : View) : Nat := fld w.d0 28 12 + 1
/-- Bytes of the tile, whole sectors (R299). -/
def View.size (w : View) : Nat := (w.rows * w.cols * w.z + 63) / 64 * 64
/-- The bytes of the view pool that a view takes. -/
def View.span? (w : View) : Option (Nat × Nat) :=
  match w.loc with
  | .flat a => if w.pool = 0 then none else some (a.toNat, w.pool)
  | _ => none
/-- Whether a view takes the byte of the pool at an address. -/
def View.covers (w : View) (a : Nat) : Bool := w.span?.elim false (fun p => p.1 ≤ a && a < p.1 + p.2)
/-- Whether an address lies in a child's or an accumulated view of a context: accesses to them are never checked for races
(R300). -/
def State.inView (s : State) (c a : Nat) : Bool :=
  s.regions.any (fun (e : Nat × Region) => e.2.ctx = c
    && (e.2.task.epoch.accs.any (fun v => v.2.covers a)
      || e.2.task.epoch.children.any (fun x => x.views.any (fun v => v.2.covers a))))

/-- The leaf checks (R438): reason 2, then reason 7, and the target; an access to a view's bytes is unchecked, as one to an
unchecked page is (R300, R327). -/
def leafTarget (s : State) (c : Nat) (va : W64) (k : AccK) (l : Leaf) : Except XFault Target :=
  let e := l.entry
  let off := va.toNat % pageSize l.level
  let perm := match k with
    | .read => true
    | .write | .atomic => bit e 2
    | .fetch => bit e 3 && !bit e 6
  if !perm then .error ⟨2, l.level, l.epa⟩
  else if bit e 6 then
    let chan := fld e 10 6
    let bound := match s.ctxs.find c with
      | some x => (x.chans.find chan).isSome
      | none => false
    if !bound then .error ⟨7, l.level, l.epa⟩
    else .ok (.rem (.ofNat 16 (fld e 48 16)) chan (bit e 9) (w64 (fld e 16 32 * 65536 + off)) (bit e 4))
  else .ok (.loc (leafFrame e + off) (bit e 4 || s.inView c va.toNat))

/-- The management core's "context": it belongs to none, and its addresses are physical ones (notes/assumptions/120.md). -/
def mgmtCtx : Nat := 1024
/-- Translate an address of a context for an access made from a core. -/
def xlate (s : State) (core c : Nat) (va : W64) (k : AccK) : Except XFault Target :=
  if c = mgmtCtx then (if installed va.toNat then .ok (.loc va.toNat false) else .error ⟨5, 0, 0⟩)
  else match findLeaf s core c va with
  | .error f => .error f
  | .ok l => leafTarget s c va k l

/-- The entries that a walk reads. -/
def walkReads (s : State) (key : MemKey) (va : Nat) : List Nat → Nat → List Nat
  | [], _ => []
  | level :: more, table =>
    let a := table + 8 * vaIndex va level
    let e := w64 (leNat (s.peekN key a 8))
    if !installed a then []
    else if !bit e 0 || malformed e level || bit e 1 || !installed (nextTable e) then [a]
    else a :: walkReads s key va more (nextTable e)
/-- Stacks in self-refresh that a walk of a context and an access to its leaf go to are restored (R455). -/
def State.rouseWalk (s : State) (c : Nat) (va : W64) (l : Leaf) : State :=
  if s.selfRefresh.isEmpty then s
  else
    let tables := (s.ctxs.find c).elim [] (fun x => walkReads s (s.keyOf c) va.toNat [0, 1, 2, 3, 4] (dw x.desc 1).toNat)
    let leaf := if bit l.entry 6 then [] else [leafFrame l.entry + va.toNat % pageSize l.level]
    (tables ++ leaf).foldl (fun s a => s.rouse (sectorOf a)) s
/-- The same for an access of the device to `n` bytes of a context. -/
def State.rouseVa (s : State) (c : Nat) (va : W64) (n : Nat) : State :=
  (pieces va.toNat n).foldl (fun (s : State) (p : Nat × Nat) =>
    match walk s c (w64 p.1) with
    | .ok l => s.rouseWalk c (w64 p.1) l
    | .error _ => s) s
/-- The translation an access used is cached, 4,096 a core, the newest kept (R440); a stack in self-refresh that the access
goes to is restored (R455). -/
def State.cache (s : State) (core c : Nat) (va : W64) : State :=
  match findLeaf s core c va with
  | .error _ => s
  | .ok l =>
    let s := s.rouseWalk c va l
    let co := s.core core
    let base := va.toNat / pageSize l.level * pageSize l.level
    let t : Tlb := { ctx := c, va := base, size := pageSize l.level, leaf := l.entry, level := l.level, epa := l.epa }
    if co.tlb.contains t then s
    else s.setCore core { co with
      tlb := (t :: co.tlb.filter (fun x => !(x.ctx = c && x.va = base))).take 4096 }

end Sys2Proof.Machine
end

