-- ==== Sys2Proof/Machine/Sync.lean ====
section
/-! DEFINITION. Agent identifiers, race tags, releases and acquires (12 R323 to R328). -/
namespace Sys2Proof.Machine

def State.rg? (s : State) (r : Nat) : Option Region := s.regions.find r
def State.setRg (s : State) (r : Nat) (x : Region) : State := { s with regions := s.regions.put r x }
def State.updRg (s : State) (r : Nat) (f : Region → Region) : State :=
  { s with regions := s.regions.upd r f }

def Region.core (rg : Region) : Nat := match rg.place with | some p => p.1 | none => 0
def Region.first (rg : Region) : Nat := match rg.place with | some p => p.2 | none => 0
/-- The identifier of a placed region (R323). -/
def Region.wid (rg : Region) : BitVec 12 := .ofNat 12 (12 * rg.core + rg.first + 1)

/-- The residency on a core that holds an identifier; the block of a custom operator, a region of no member, is none (R325). -/
def State.widRegion (s : State) (core : Nat) (w : BitVec 12) : Option Region :=
  (s.regions.find? (fun e => e.2.nmem != 0 && e.2.place.isSome && e.2.core = core && e.2.wid = w)).map (·.2)
/-- Whether an identifier is that of a residency on a core (R325). -/
def State.residentWid (s : State) (core : Nat) (w : BitVec 12) : Bool := (s.widRegion core w).isSome

/-- The synchronisation count C of identifier index `l` of a core (R324). -/
def State.count (s : State) (core l : Nat) : BitVec 12 := (s.core core).counts.getD l 0
def State.setCount (s : State) (core l : Nat) (c : BitVec 12) : State :=
  s.setCore core { s.core core with counts := listUpd (s.core core).counts l (fun _ => c) }
/-- The lead page an identifier stands for within its core. -/
def widPage (w : BitVec 12) : Nat := (w.toNat - 1) % 12
/-- The knowledge K[l] of a region (R324). -/
def Region.knows (rg : Region) (l : Nat) : BitVec 12 := rg.know.getD l 0

/-- The tag of an ordinary checked write of a region (R324). -/
def State.ownTag (s : State) (rg : Region) : RaceTag :=
  { wid := rg.wid, cnt := s.count rg.core rg.first }

/-- The check of R325: `some` holds the EINFO of the race (R328). -/
def State.race (s : State) (rg : Region) (sec : Nat) : Option W64 :=
  let t := (s.sideAt sec).tag
  if t.wid = 0 || t.wid = rg.wid || !s.residentWid rg.core t.wid then none
  else
    let c := s.count rg.core (widPage t.wid)
    let k := rg.knows (widPage t.wid)
    let a := (c - t.cnt).toNat
    let b := (c - k).toNat
    if a ≥ 2048 || b < a then none
    else some (w64 (rg.wid.toNat * 2 ^ 36 + t.wid.toNat * 2 ^ 24 + t.cnt.toNat * 2 ^ 12 + k.toNat))

/-- The first half of a release: C := C + 1 (R324). -/
def State.bump (s : State) (r : Nat) : State :=
  match s.rg? r with
  | none => s
  | some rg => s.setCount rg.core rg.first (s.count rg.core rg.first + 1)
/-- The tag a release leaves, after `bump` (R324). -/
def State.tagOf (s : State) (r : Nat) : RaceTag :=
  match s.rg? r with
  | none => {}
  | some rg => s.ownTag rg

/-- Of two counts, the one nearer to `c` (R326). -/
def nearer (c new old : BitVec 12) : BitVec 12 := if (c - new).toNat < (c - old).toNat then new else old

/-- The last case of R326: knowledge of every identifier of the core becomes its count. -/
def State.acquireAll (s : State) (r : Nat) : State :=
  match s.rg? r with
  | none => s
  | some rg => s.setRg r { rg with know := (List.range 12).map (s.count rg.core) }

/-- An acquire of a region that reads a tag (R326). -/
def State.acquire (s : State) (r : Nat) (t : RaceTag) : State :=
  match s.rg? r with
  | none => s
  | some rg =>
    if t.wid = rg.wid then s
    else match s.widRegion rg.core t.wid with
      | none => s.acquireAll r
      | some o =>
        let w := widPage t.wid
        s.setRg r { rg with
          know := (List.range 12).map (fun j =>
            if j = w then nearer (s.count rg.core j) t.cnt (rg.knows j)
            else nearer (s.count rg.core j) (o.knows j) (rg.knows j)) }

/-- A residency takes the identifier of its lead page (R324). -/
def State.takeWid (s : State) (r : Nat) : State :=
  match s.rg? r with
  | none => s
  | some rg =>
    let c := s.count rg.core rg.first + 2048
    let s := s.setCount rg.core rg.first c
    let s : State := { s with regions := s.regions.map (fun e =>
      if e.2.place.isSome && e.2.core = rg.core && e.1 != r
      then (e.1, { e.2 with know := listUpd e.2.know rg.first (fun _ => c) }) else e) }
    s.acquireAll r

end Sys2Proof.Machine
end

