-- ==== Sys2Proof/Machine/Faults.lean ====
section
/-! DEFINITION. Records appended by the device, fault records, and double traps (13 R347 to R349; 14 R356;
20 R431, R434, R440 to R443). -/
namespace Sys2Proof.Machine

def State.queue? (s : State) (q : Nat) : Option Queue := s.queues.find q
def State.setQueue (s : State) (q : Nat) (x : Queue) : State := { s with queues := s.queues.put q x }
def State.ctx? (s : State) (c : Nat) : Option Ctx := s.ctxs.find c
def State.setCtx (s : State) (c : Nat) (x : Ctx) : State := { s with ctxs := s.ctxs.put c x }
def State.send (s : State) (x : Sent) : State := { s with sent := s.sent ++ [x] }

/-- The fields of a queue descriptor (R353). -/
def Queue.nslot (q : Queue) : Nat := fld (dw q.desc 0) 16 16
def Queue.dev (q : Queue) : Bool := bit (dw q.desc 0) 8
def Queue.consuming (q : Queue) : Bool := fld (dw q.desc 0) 6 2 = 1
def Queue.aff (q : Queue) : Nat := fld (dw q.desc 0) 52 4
def Queue.prio (q : Queue) : Nat := fld (dw q.desc 0) 9 3
def Queue.ltol (q : Queue) : Nat := fld (dw q.desc 0) 48 4
def Queue.cwa (q : Queue) : W64 := dw q.desc 2
def Queue.cid (q : Queue) : Option Nat :=
  if bit (dw q.desc 3) 12 then some (fld (dw q.desc 3) 0 12) else none
/-- Slots of the record store in use: records waiting, and started ones whose completion is not recorded (R356). -/
def Queue.slotsUsed (q : Queue) : Nat :=
  q.store.length + (q.started.filter (fun x => !x.reported)).length

/-- Append a record to a device-mode queue (R356): `none` when every slot is in use. -/
def State.push (s : State) (qn : Nat) (rec_ : List W64) : Option (State × W64) :=
  match s.queue? qn with
  | none => none
  | some q =>
    if q.nslot ≤ q.slotsUsed then none
    else some (s.setQueue qn { q with store := q.store ++ [⟨rec_⟩], issued := q.issued + 1 }, q.issued + 1)

/-- The fault queue of a context (R340). -/
def Ctx.faultq (x : Ctx) : Nat := fld (dw x.desc 6) 0 13

/-- A group whose members hold pages. -/
def Group.busy (g : Group) : Bool :=
  match g.st with
  | .loading | .running | .snapshotting | .restoring => true
  | _ => false
def State.groupCtx (s : State) (g : Group) : Option Nat :=
  (g.members.filterMap (fun r => (s.rg? r).map (·.ctx))).head?

/-- The state the context was to reach is reached once none of its groups is busy (R349). -/
def State.settle (s : State) (c : Nat) : State :=
  match s.ctx? c with
  | none => s
  | some x =>
    match x.becoming with
    | none => s
    | some st =>
      if s.groups.any (fun g => g.2.busy && s.groupCtx g.2 = some c) then s
      else { s.setCtx c { x with st := st, becoming := none, note := [] } with sent := s.sent ++ x.note }

/-- Hold (R349): queues stop dispatching, every busy group of the context gets a pre-emption request. -/
def State.hold (s : State) (c : Nat) (st : CtxState) (note : List Sent) : State :=
  match s.ctx? c with
  | none => s
  | some x =>
    let s := s.setCtx c { x with becoming := some st, note := x.note ++ note }
    let s : State := { s with groups := s.groups.map (fun g =>
      if g.2.busy && s.groupCtx g.2 = some c && g.2.st != .snapshotting && g.2.req.isNone
      then (g.1, { g.2 with req := some .hold }) else g) }
    s.settle c

/-- A double trap reaches a context (R347, R348): Active and Suspended become Faulted. -/
def State.ctxDoubleTrap (s : State) (c : Nat) (first second : List W64) : State :=
  match s.ctx? c with
  | none => s
  | some x =>
    match x.st with
    | .active | .suspended => s.hold c .faulted [.doubleTrap c first second]
    | _ => s

/-- A fault record of a context (R442): appended to its fault queue; one that finds it full is held and
is a double trap (R434). Answers the sequence number it got. -/
def State.faultRecord (s : State) (c : Nat) (rec_ : List W64) : State × Option W64 :=
  match s.ctx? c with
  | none => (s, none)
  | some x =>
    match s.push x.faultq rec_ with
    | some (s, n) => (s, some n)
    | none => ((s.setCtx c { x with heldRecs := x.heldRecs ++ [⟨rec_⟩] }).ctxDoubleTrap c [] rec_, none)

/-- Source of a fault record (R442). -/
inductive Src where
  | seq (page : Nat)
  | node (page : Nat)
  | engine (page q : Nat)
  | merge
  | mergeUnit (page : Nat)
  deriving DecidableEq, Repr
def Src.dword : Src → W64
  | .seq p => w64 (p * 2 ^ 12)
  | .node p => w64 (1 * 2 ^ 16 + p * 2 ^ 12)
  | .engine p q => w64 (2 * 2 ^ 16 + p * 2 ^ 12 + q * 2 ^ 8)
  | .merge => w64 (3 * 2 ^ 16)
  | .mergeUnit p => w64 (4 * 2 ^ 16 + p * 2 ^ 12)

/-- CTXID of a context (R339). -/
def State.ctxid (s : State) (c : Nat) : W64 :=
  w64 ((match s.ctx? c with | some x => x.gen.toNat | none => 0) * 2 ^ 16 + c)

/-- ECAUSE of a trap (R428). -/
def TrapRec.ecause (t : TrapRec) : W64 :=
  if t.node then w64 (t.iter % 2 ^ 37 * 2 ^ 27 + t.dune % 128 * 2 ^ 20 + t.nidx % 128 * 2 ^ 13
    + t.blk % 8 * 2 ^ 10 + 2 ^ 8 + t.cause)
  else w64 t.cause
/-- FULLBLK of a trap (R442). -/
def TrapRec.fullblk (t : TrapRec) : W64 :=
  if t.node then w64 (t.blk * 2 ^ 32 + t.nidx * 2 ^ 16 + t.dune * 2 ^ 8) else 0

/-- A 64-byte fault record (R442). -/
def State.recordOf (s : State) (rg : Region) (kind cause reason acc : Nat) (addr ecause einfo : W64)
    (src : Src) (entry fullblk : W64) : List W64 :=
  [w64 (1 * 2 ^ 48 + rg.pm1 * 2 ^ 44 + rg.first * 2 ^ 40 + rg.core * 2 ^ 32 + acc * 2 ^ 24
      + reason * 2 ^ 16 + cause * 2 ^ 8 + kind),
   addr, ecause, einfo, s.ctxid rg.ctx, src.dword, entry, fullblk]

/-- The dword at EPA (R442). -/
def State.entryAt (s : State) (c epa : Nat) : W64 := w64 (leNat (s.peekN (s.keyOf c) (epa * 8) 8))

/-- The record of a trap (KIND 0x03, R431, R434): of a translation trap, whose EINFO is the walk detail (R439), with its
ACC and the entry at its EPA, which reasons 6 and 8 have none of. -/
def State.trapRecord (s : State) (rg : Region) (t : TrapRec) (src : Src) : List W64 :=
  let reason := fld t.einfo 0 8
  let entry := if t.cause != 3 || reason = 6 || reason = 8 then 0 else s.entryAt rg.ctx (fld t.einfo 15 49)
  s.recordOf rg 3 t.cause 0 (if t.cause = 3 then fld t.einfo 10 2 else 0) t.eaddr t.ecause t.einfo src entry t.fullblk

/-- A record in or before the fault queue is that of an outstanding fault. -/
def FaultRec.of (f : FaultRec) (r : QRec) : Bool :=
  fld (dw r.dw 0) 0 8 = 1 && fld (dw r.dw 0) 16 8 = f.reason && (dw r.dw 1).toNat / 65536 = f.blk64
/-- NWAIT of a record, saturating (R442). -/
def QRec.nwait (r : QRec) (n : Nat) : QRec := ⟨listUpd r.dw 0 (fun d => putFld d 48 16 (min 65535 n))⟩
/-- NWAIT of an outstanding record rises where it still stands in the fault queue, or is held (R440, R442). -/
def State.joinRec (s : State) (f : FaultRec) : State :=
  match s.ctx? f.ctx with
  | none => s
  | some x =>
    match f.queueSeq with
    | none =>
      match (((List.range x.heldRecs.length).zip x.heldRecs).filter (fun e => f.of e.2)).getLast? with
      | none => s
      | some (i, _) => s.setCtx f.ctx { x with heldRecs := listUpd x.heldRecs i (·.nwait (f.nwait + 1)) }
    | some n =>
      match s.queue? x.faultq with
      | none => s
      | some q =>
        let i := (n - q.taken).toNat
        if i = 0 || q.store.length < i then s
        else s.setQueue x.faultq { q with store := listUpd q.store (i - 1) (·.nwait (f.nwait + 1)) }

/-- What names a waiter on a fault record. -/
def waiterOf (r : Nat) (src : Src) (t : TrapRec) : Nat × W64 × W64 × W64 := (r, src.dword, t.ecause, t.fullblk)
/-- An agent of region `r` pauses on a recoverable fault (R440, R441): it joins the outstanding record of its context,
64 KiB block and reason, unless it has waited on that one already, or writes a KIND 0x01 record. Answers the record's
number. -/
def State.pause (s : State) (r : Nat) (rg : Region) (va : W64) (f : XFault) (k : AccK) (src : Src) (t : TrapRec) :
    State × Nat :=
  match s.faults.find? (fun e => e.2.ctx = rg.ctx && e.2.blk64 = va.toNat / 65536 && e.2.reason = f.reason
      && !e.2.woken && !e.2.left.contains (waiterOf r src t)) with
  | some (id, fr) => (({ s with faults := s.faults.put id { fr with nwait := fr.nwait + 1 } } : State).joinRec fr, id)
  | none =>
    let id := s.nextId
    let (s, n) := s.faultRecord rg.ctx
      (s.recordOf rg 1 3 f.reason k.code va t.ecause (f.detail k) src (s.entryAt rg.ctx f.epa) t.fullblk)
    ({ s with nextId := id + 1
              faults := s.faults.put id { ctx := rg.ctx, blk64 := va.toNat / 65536, reason := f.reason
                                          epa := f.epa, queueSeq := n } }, id)

def EqEntry.waitsOn (id : Nat) : EqEntry → Bool
  | .cmd c => c.paused = some id
  | _ => false
/-- An agent waits on a fault record. -/
def State.waitsOn (s : State) (id : Nat) : Bool :=
  s.fops.any (fun e => e.2.paused = some id)
  || s.regions.any (fun e =>
    e.2.eqs.any (fun q => q.entries.any (EqEntry.waitsOn id)) || e.2.ergq.entries.any (fun c => c.paused = some id)
    || e.2.nodes.any (fun x => x.2.pend.any (fun p => p.paused = some id))
    || e.2.task.epoch.merge.any (fun m => m.faulted && m.rec_ = some id))
/-- Waiters have left a record to retry, and join it no more; one that nobody waits on is done with (R441). -/
def State.leave (s : State) (id : Nat) (w : Nat × W64 × W64 × W64) : State :=
  if s.waitsOn id then { s with faults := s.faults.upd id (fun f => { f with left := f.left ++ [w] }) }
  else { s with faults := s.faults.del id }

end Sys2Proof.Machine
end

