-- ==== Sys2Proof/Machine/Ops.lean ====
section
/-! DEFINITION. Shared operations on a sequencer: register access with parity and duplicates (05 R93,
R117), the status register (R116), running an instruction under its guard (R113, R114), taking a trap
and returning from one (R116, R145; 20 R428 to R435), and wakes (R133, R134). -/
namespace Sys2Proof.Machine

/-- The outcome of a step. -/
abbrev Out := Host.Outcome State Fault Refusal

/-! ### Registers -/

/-- g[n]; g0 reads zero (R93, R130). -/
def Seq.getG (q : Seq) (n : Reg) : W64 := if n = 0 then 0 else q.g[n.toNat]'n.isLt

/-- A write to g[n]: g0 discards it; any other register takes it with its parity, and so does its
duplicate, in a free spare entry or in that of the register written least recently (R93, R117). -/
def Seq.setG (q : Seq) (n : Reg) (v : W64) : Seq :=
  if n = 0 then q
  else { q with
    g := q.g.set n.toNat v n.isLt
    parity := q.parity &&& ~~~ (1#32 <<< n.toNat)
    dupParity := q.dupParity &&& ~~~ (1#32 <<< n.toNat)
    dups := ((n, v) :: q.dups.filter (fun e => e.1 != n)).take 16 }

/-- p[n]; p0 reads true (R64). -/
def Seq.getP (q : Seq) (n : PReg) : Bool := n = 0 || q.p.getLsbD n.toNat
/-- A write to p[n]; p0 discards it (R93). -/
def Seq.setP (q : Seq) (n : PReg) (b : Bool) : Seq :=
  if n = 0 then q
  else { q with p := if b then q.p ||| (1#8 <<< n.toNat) else q.p &&& ~~~ (1#8 <<< n.toNat) }

/-- Whether the guard holds (R64, R114). -/
def Seq.guardOk (q : Seq) (g : Guard) : Bool := q.getP g.p != g.neg

/-- Reading register entries (R117): a parity error is repaired from a good duplicate, and counted; with
none, the duplicate is discarded and the register is named. -/
def Seq.scrub (q : Seq) : List Reg → Seq × Nat × Option Reg
  | [] => (q, 0, none)
  | n :: t =>
    if n = 0 || !q.parity.getLsbD n.toNat then q.scrub t
    else
      match q.dups.find? (fun e => e.1 = n) with
      | some e =>
        if q.dupParity.getLsbD n.toNat then
          ({ q with dups := q.dups.filter (fun e => e.1 != n)
                    dupParity := q.dupParity &&& ~~~ (1#32 <<< n.toNat) }, 0, some n)
        else
          let x := ({ q with g := q.g.set n.toNat e.2 n.isLt
                             parity := q.parity &&& ~~~ (1#32 <<< n.toNat) } : Seq).scrub t
          (x.1, x.2.1 + 1, x.2.2)
      | none => (q, 0, some n)

/-! ### Status (R116) -/

def Seq.wp (q : Seq) : Bool := bit q.stat 0
def Seq.mode (q : Seq) : Nat := fld q.stat 6 2
def Seq.pmode (q : Seq) : Nat := fld q.stat 8 2
def Seq.inh (q : Seq) : Bool := bit q.stat 10
def Seq.dzt (q : Seq) : Bool := bit q.stat 11

/-! ### Places -/

def State.seq? (s : State) (r pg : Nat) : Option Seq :=
  match s.rg? r with
  | none => none
  | some rg => rg.seqs[pg]?
def State.setSeq (s : State) (r pg : Nat) (q : Seq) : State :=
  match s.rg? r with
  | none => s
  | some rg => s.setRg r { rg with seqs := listUpd rg.seqs pg (fun _ => q) }
def State.updSeq (s : State) (r pg : Nat) (f : Seq → Seq) : State :=
  match s.seq? r pg with
  | none => s
  | some q => s.setSeq r pg (f q)

/-- A set pc by a control transfer (R109, R129). -/
def Seq.goto (q : Seq) (a : W64) : Seq := { q with pc := a, xfer := true }

/-! ### Traps -/

/-- A synchronous trap while STAT.INH is 1 is a double trap (R434): the sequencer stops at the
instruction, the residency is to retire with FAULT, and the context is told. -/
def State.doubleTrap (s : State) (r pg : Nat) (q : Seq) (t : TrapRec) : State :=
  match s.rg? r with
  | none => s
  | some rg =>
    let s := s.setRg r { rg with
      seqs := listUpd rg.seqs pg (fun _ => { q with stuck := true }), doomed := true }
    s.ctxDoubleTrap rg.ctx [q.epc, q.ecause, q.eaddr, q.einfo] (s.trapRecord rg t (.seq pg))

/-- The registers after trap entry (R116): PMODE := MODE, MODE := `m`, INH := 1, EPC := the address of
the trapping instruction, the cause registers (R428, R429), pc := TVEC. -/
def Seq.enterIn (q : Seq) (m : Nat) (epc : W64) (t : TrapRec) : Seq :=
  { q with
    stat := putFld (putFld (putFld q.stat 8 2 q.mode) 6 2 m) 10 1 1
    epc := epc, ecause := t.ecause, eaddr := t.eaddr, einfo := t.einfo
    pc := q.tvec, xfer := true }
/-- Trap entry: to supervisor mode, on the management core to firmware mode (R116, R435). -/
def Seq.enter (q : Seq) (epc : W64) (t : TrapRec) : Seq := q.enterIn (if q.mgmt then 2 else 1) epc t

/-- TAKING A TRAP: sequencer `pg` of region `r`, whose instruction stands at `epc`, takes `t`
synchronously. -/
def State.trap (s : State) (r pg : Nat) (epc : W64) (t : TrapRec) : State :=
  match s.seq? r pg with
  | none => s
  | some q =>
    if q.inh then s.doubleTrap r pg { q with pc := epc } t
    else s.setSeq r pg (q.enter epc t)

/-- The registers after a return from a trap to `t` (R145): MODE := PMODE, PMODE := 0, INH := 0. -/
def Seq.leave (q : Seq) (t : W64) : Seq :=
  { q with
    stat := putFld (putFld (putFld q.stat 6 2 q.pmode) 8 2 0) 10 1 0
    pc := t, xfer := true }

/-- Not a trap: an access waits while its stack or row is quiesced, and the instruction is executed again at the sequencer's
next turn (R457). -/
def notYet : TrapRec := { cause := 256 }
def TrapRec.waits (t : TrapRec) : Bool := t.cause = 256

/-- The order in which pending asynchronous traps are taken (R431): ascending cause, node traps of one
cause in ascending block and node index. -/
def TrapRec.before (a b : TrapRec) : Bool :=
  a.cause < b.cause || (a.cause = b.cause && (a.blk < b.blk || (a.blk = b.blk && a.nidx < b.nidx)))
def insertTrap (t : TrapRec) : List TrapRec → List TrapRec
  | [] => [t]
  | x :: l => if t.before x then t :: x :: l else x :: insertTrap t l

/-- Whether the lead sequencer has halted. -/
def Region.leadHalted (rg : Region) : Bool :=
  match rg.seqs with
  | q :: _ => q.halted
  | [] => true

/-- R433: a residency is abandoned: paused engine commands end with XLATE, and it retires with FAULT. -/
def Region.abandon (rg : Region) : Region :=
  { rg with
    faulted := true
    eqs := rg.eqs.map (fun x => { x with entries := x.entries.map (fun e =>
      match e with
      | .cmd c => .cmd (if c.paused.isSome then
          { c with status := if c.status = 0 then 2 else c.status, finished := true, paused := none
                   op := if c.link.isSome then .chainw else c.op } else c)
      | y => y) }) }

/-- An asynchronous trap is raised on the lead of a region (R431): it is held pending; when the lead has
halted it is written as a KIND 0x03 record instead (a stall report needs none), and a node trap then abandons
the residency (R433). A region without sequencers runs a custom view operator: a trap of its nodes only marks
it (R304). -/
def State.raise (s : State) (r : Nat) (t : TrapRec) (src : Src) : State :=
  match s.rg? r with
  | none => s
  | some rg =>
    if rg.seqs.isEmpty then s.setRg r { rg with faulted := true }
    else if rg.leadHalted then
      let s := if t.cause = 6 then s else (s.faultRecord rg.ctx (s.trapRecord rg t src)).1
      if t.node then s.updRg r Region.abandon else s
    else s.setRg r { rg with pendTraps := insertTrap t rg.pendTraps }

/-- The management core, which stands outside the grid (R21), as the shared operations see it while it executes an
instruction: residency 0, which no residency is, of no context, at a place whose identifier is 0xFFD (R323). Its addresses are
physical (`xlate`). DESIGN CHOICE: notes/assumptions/120.md. -/
def mgmtCore : Nat := 192
def mgmtRegion (q : Seq) : Region := { ctx := mgmtCtx, st := .unarmed, place := some (mgmtCore, 1788), seqs := [q] }
/-- It moves: Falim runs, and it has neither halted nor stopped, nor does it sleep. -/
def State.mgmtReady (s : State) : Bool :=
  let q := s.sec.mgmt
  s.sec.boot = .running && !q.halted && !q.stuck && q.sleep.isNone && q.wait.isNone
/-- The state in which it executes an instruction, and the state once it has: its stores have performed. -/
def State.mgmtIn (s : State) : State := { s.setRg 0 (mgmtRegion s.sec.mgmt) with agent := .seq 0 0 }
/-- A trap that is not that of an instruction's own meaning; its traps reach no context and no fault queue (R435). -/
def State.mgmtTrap (s : State) (t : TrapRec) : State := s.trap 0 0 s.sec.mgmt.pc t

/-- A format fault of an engine command (R159): on the issuing sequencer, or on the lead when the issuer has
halted. -/
def State.raiseOn (s : State) (r pg : Nat) (t : TrapRec) (src : Src) : State :=
  match s.seq? r pg with
  | none => s.raise r t src
  | some q => if q.halted then s.raise r t src else s.raise r { t with page := pg } src

/-! ### Running a sequencer instruction -/

/-- What a meaning sees: who executes, the instruction's address, the registers with pc already at the
next instruction, and the state that holds them. -/
structure Run where
  r : Nat
  pg : Nat
  pc : W64
  rg : Region
  q : Seq
  s : State

/-- The state with these registers. -/
def Run.set (v : Run) (q : Seq) : State := v.s.setSeq v.r v.pg q
/-- The state with these registers in another state of the machine. -/
def Run.setIn (v : Run) (s : State) (q : Seq) : State := s.setSeq v.r v.pg q
def Run.lead (v : Run) : Bool := v.pg = 0

def State.countRepairs (s : State) (n : Nat) : State :=
  if n = 0 then s else { s with tele := { s.tele with repairs := s.tele.repairs + n } }

/-- Runs an instruction of `len` words with sources `src` (R113, R114, R117): a false guard only moves
past it; a register that fails parity traps precisely; else the effect, whose trap is taken with the
instruction's address in EPC; an access that must wait leaves the sequencer at the instruction. -/
def runSeq (len : Nat) (g : Guard) (src : List Reg) (s : State) (k : Run → Except TrapRec State) : Out :=
  match s.agent with
  | .seq r pg =>
    match s.rg? r with
    | none => .fault .noSuchAgent
    | some rg =>
      match rg.seqs[pg]? with
      | none => .fault .noSuchAgent
      | some q =>
        let next := q.pc + w64 (4 * len)
        if !q.guardOk g then .next (s.setSeq r pg { q with pc := next })
        else
          match q.scrub src with
          | (q1, n, some bad) =>
            .next (((s.setSeq r pg q1).countRepairs n).trap r pg q.pc { cause := 4, einfo := w64 bad.toNat })
          | (q1, n, none) =>
            let q2 := { q1 with pc := next }
            let s1 := (s.setSeq r pg q2).countRepairs n
            match k { r := r, pg := pg, pc := q.pc, rg := rg, q := q2, s := s1 } with
            | .ok s2 => .next s2
            | .error t =>
              .next (if t.waits then (s.setSeq r pg q1).countRepairs n
                else ((s.setSeq r pg q1).countRepairs n).trap r pg q.pc t)
  | _ => .fault .noSuchAgent

/-- An instruction whose only effect is on the issuing sequencer's registers. -/
def runRegs (len : Nat) (g : Guard) (src : List Reg) (s : State) (k : Seq → Seq) : Out :=
  runSeq len g src s (fun v => .ok (v.set (k v.q)))

/-! ### Wakes -/

/-- A wake event (R133, R134): a sleep ends true, else WP is set. -/
def Seq.wake (q : Seq) : Seq :=
  match q.sleep with
  | some (_, p) => { (q.setP p true) with sleep := none, stat := putFld q.stat 0 1 0 }
  | none => { q with stat := putFld q.stat 0 1 1 }
/-- A sleep ends true without a wake, at pre-emption or a stall report (R115, R134, R410). -/
def Seq.endSleep (q : Seq) : Seq :=
  match q.sleep with
  | some (_, p) => { (q.setP p true) with sleep := none }
  | none => q

end Sys2Proof.Machine
end

