-- ==== Sys2Proof/Machine/Flags.lean ====
section
/-! DEFINITION. Conditions (04 R95; 05 R121), and the region's arithmetic status ACS (02 R53). -/
namespace Sys2Proof.Machine

/-- Whether a condition holds of two dwords (R121). -/
def condHolds (c : Cond) (a b : W64) : Bool :=
  match c with
  | .eq => a == b
  | .ne => a != b
  | .lt => a.slt b
  | .le => a.sle b
  | .gt => b.slt a
  | .ge => b.sle a
  | .ltu => a.ult b
  | .leu => a.ule b
  | .gtu => b.ult a
  | .geu => b.ule a

/-- Status bits are ORed into the region's ACS (R53). -/
def Region.raise (rg : Region) (f : BitVec 5) : Region := { rg with acs := rg.acs ||| f }
def State.raiseAcs (s : State) (r : Nat) (f : BitVec 5) : State := s.updRg r (fun rg => rg.raise f)

end Sys2Proof.Machine
end

