-- ==== Sys2Proof/WellFormed.lean ====
section
/-! DEFINITION. Which instructions the spec's encodings admit: the operand limits that the fields'
widths do not say already (04 R88 to R98, 05 R120, R129, R141, R142, R146; 06 R168, R181; 11 R313). -/
namespace Sys2Proof

/-- Type code (R95). -/
def tyCode : MTy → Nat
  | .i8 => 0 | .ui8 => 1 | .i16 => 2 | .i32 => 3 | .ui32 => 4 | .i64 => 5
/-- Scope code (R95). -/
def scopeCode : Scope → Nat
  | .dune => 0 | .page => 1 | .region => 2 | .core => 3 | .die => 4 | .pkg => 5 | .sys => 6

/-- N32 (R96): NC at most 2, an unused consumer field zero. -/
def N32.wf (x : N32) : Bool :=
  x.k ≤ 2 && (1 ≤ x.k || x.c1 == 0) && (2 ≤ x.k || x.c2 == 0)

/-- Consumers of N64 and N96 (R98): as N32, XC at most 2 and nonzero only with NC = 2, an unused
further consumer zero, a delay bit only on a consumer in use. -/
def consWf (k : BitVec 2) (c1 c2 : BitVec 9) (den : BitVec 4) (xc : BitVec 2) (c3 c4 : BitVec 9) : Bool :=
  N32.wf ⟨k, c1, c2, 0⟩ && xc ≤ 2 && (xc == 0 || k == 2) && (1 ≤ xc || c3 == 0) && (2 ≤ xc || c4 == 0)
    && (1 ≤ k || !den.getLsbD 0) && (2 ≤ k || !den.getLsbD 1)
    && (1 ≤ xc || !den.getLsbD 2) && (2 ≤ xc || !den.getLsbD 3)

def N64.wf (x : N64) : Bool := consWf x.k x.c1 x.c2 x.den x.xc x.c3 x.c4
def N96.wf (x : N96) : Bool := consWf x.k x.c1 x.c2 x.den x.xc x.c3 x.c4

/-- A fetch raises illegal opcode, pool execute, alignment (notes/assumptions/9.md), translation or poison
(R109, R429). -/
def FetchErr.wf (f : FetchErr) : Bool :=
  f.cause ≤ 3 || f.cause == 12

/-- The instruction is one the encodings admit; a node row whose table entry fixes TC or the
consumers keeps them. Machine events and messages have no operand limits. -/
def Instr.wf : Instr → Bool
  | .add _ _ _ _ => true
  | .addSi _ _ _ _ => true
  | .sub _ _ _ _ => true
  | .subSi _ _ _ _ => true
  | .mul _ _ _ _ => true
  | .mulSi _ _ _ _ => true
  | .andR _ _ _ _ => true
  | .andSi _ _ _ _ => true
  | .orR _ _ _ _ => true
  | .orSi _ _ _ _ => true
  | .xorR _ _ _ _ => true
  | .xorSi _ _ _ _ => true
  | .andn _ _ _ _ => true
  | .andnSi _ _ _ _ => true
  | .shl _ _ _ _ => true
  | .shlSi _ _ _ _ => true
  | .shr _ _ _ _ => true
  | .shrSi _ _ _ _ => true
  | .sar _ _ _ _ => true
  | .sarSi _ _ _ _ => true
  | .rot _ _ _ _ => true
  | .rotSi _ _ _ _ => true
  | .mulh _ _ _ _ _ => true
  | .mulhSi _ _ _ _ _ => true
  | .div _ _ _ _ _ => true
  | .divSi _ _ _ _ _ => true
  | .rem _ _ _ _ _ => true
  | .remSi _ _ _ _ _ => true
  | .min _ _ _ _ _ => true
  | .minSi _ _ _ _ _ => true
  | .max _ _ _ _ _ => true
  | .maxSi _ _ _ _ _ => true
  | .ext _ _ _ _ _ => true
  | .extSi _ _ _ _ imm => 1 ≤ imm.toNat && imm.toNat ≤ 64
  | .nop => true
  | .clz _ _ _ => true
  | .popc _ _ _ => true
  | .bitf _ ins sgn _ _ lsb wm1 => lsb.toNat + wm1.toNat ≤ 63 && !(ins && sgn)
  | .cmp _ _ _ _ _ => true
  | .cmpSi _ _ _ _ _ => true
  | .plog _ _ _ _ _ => true
  | .sel _ _ _ _ _ => true
  | .movGG _ _ _ => true
  | .movGP _ _ _ => true
  | .movPG _ _ _ => true
  | .movPP _ _ _ => true
  | .litSi _ _ _ => true
  | .litSl _ _ _ _ => true
  | .lea _ _ _ => true
  | .ld _ _ _ _ => true
  | .st _ _ _ _ => true
  | .amo _ _ ty _ _ _ _ => 3 ≤ tyCode ty
  | .fence _ _ => true
  | .br _ _ => true
  | .brSbl _ off => off.toNat % 4 == 0
  | .jmp _ _ => true
  | .jmpSbl _ off => off.toNat % 4 == 0
  | .call _ _ _ => true
  | .callSbl _ _ off => off.toNat % 4 == 0
  | .ret _ _ => true
  | .loop _ _ off => off.toNat % 4 == 0
  | .monarm _ _ => true
  | .monarmClr _ => true
  | .sleep _ _ _ => true
  | .sleepSi _ _ _ => true
  | .sleepExpiry _ _ => true
  | .testseq _ _ _ _ => true
  | .testseqSi _ _ _ _ _ => true
  | .cfg _ _ _ => true
  | .cfgSi _ _ _ _ => true
  | .cfgList _ _ _ => true
  | .cfgListSi _ _ _ _ => true
  | .cfgstep _ _ => true
  | .cfgstepSi _ _ _ => true
  | .run _ _ _ => true
  | .runSi _ _ _ => true
  | .bound _ _ _ _ => true
  | .boundSi _ _ _ _ _ => true
  | .accrst _ _ => true
  | .accrstSi _ _ imm => imm.toNat ≤ 32767 || 4294934528 ≤ imm.toNat
  | .accrd _ part _ _ => part.toNat ≤ 4
  | .accrdSi _ part _ _ => part.toNat ≤ 4
  | .portw _ _ _ _ _ => true
  | .portwSi _ _ _ _ _ => true
  | .portr _ _ _ _ => true
  | .portrSi _ _ _ _ => true
  | .trap _ _ => true
  | .rett _ => true
  | .rettNext _ => true
  | .csrr _ _ _ => true
  | .csrw _ _ _ => true
  | .csrx _ _ _ _ lsb wm1 => lsb.toNat + wm1.toNat ≤ 63
  | .halt => true
  | .snap _ _ => true
  | .budget _ _ => true
  | .budgetSi _ _ => true
  | .budgetTest _ _ => true
  | .budgetTestSi _ _ => true
  | .budgetExpire _ _ => true
  | .best _ _ _ _ => true
  | .bestSi _ _ _ _ => true
  | .bestClr _ _ => true
  | .bestClrSi _ _ => true
  | .fetchFault f => f.wf
  | .sload _ _ _ => true
  | .sloadSi _ _ _ _ => true
  | .sstore _ _ _ => true
  | .sstoreSi _ _ _ _ => true
  | .cpy _ _ _ => true
  | .cpySi _ _ _ _ => true
  | .etbl _ _ _ => true
  | .etblSi _ _ _ _ => true
  | .xpose _ _ _ => true
  | .xposeSi _ _ _ _ => true
  | .gather _ _ _ => true
  | .gatherSi _ _ _ _ => true
  | .scatter _ _ _ => true
  | .scatterSi _ _ _ _ => true
  | .mcast _ _ _ => true
  | .mcastSi _ _ _ _ => true
  | .chainw _ _ _ => true
  | .chainwSi _ _ _ _ => true
  | .sclose _ _ _ => true
  | .scloseSi _ _ _ => true
  | .scloseCancel _ _ _ => true
  | .scloseCancelSi _ _ _ => true
  | .scloseQueue _ _ _ => true
  | .scloseQueueSi _ _ _ => true
  | .sbar _ _ _ => true
  | .sbarSi _ _ _ => true
  | .sstat _ _ _ => true
  | .sstatSi _ _ _ field => field.toNat < 11
  | .mcastDetach _ _ _ => true
  | .pin _ _ _ _ => true
  | .pinSi _ _ _ _ => true
  | .unpin _ _ _ _ => true
  | .unpinSi _ _ _ _ => true
  | .pref _ _ _ _ _ => true
  | .prefSi _ _ _ _ _ => true
  | .flush _ _ _ _ _ => true
  | .flushSi _ _ _ _ _ => true
  | .chainHoldReread _ _ => true
  | .chaint _ _ _ _ => true
  | .chaintSi _ _ _ _ => true
  | .qpush _ _ _ _ => true
  | .qpushSi _ _ _ _ => true
  | .qpop _ _ _ _ => true
  | .qpopSi _ _ _ _ => true
  | .qfence _ sc _ _ => 2 ≤ scopeCode sc
  | .qfenceSi _ sc _ _ => 2 ≤ scopeCode sc
  | .qseq _ _ _ _ => true
  | .qseqSi _ _ _ _ => true
  | .barinit _ _ _ _ => true
  | .barinitSi _ _ _ _ => true
  | .bararr _ _ _ => true
  | .bararrSi _ _ _ _ => true
  | .bartest _ _ _ _ => true
  | .bartestSi _ _ _ _ => true
  | .spawn _ _ _ => true
  | .spawnSi _ _ _ _ => true
  | .vdecl _ _ _ _ => true
  | .vdeclSi _ _ _ _ _ => true
  | .tend _ _ => true
  | .tendChild _ _ _ => true
  | .tsync _ _ => true
  | .tsyncTake _ _ => true
  | .tresume _ _ _ => true
  | .tresumeSkip _ _ _ => true
  | .tinfo _ _ _ => true
  | .tinfoSi _ _ field _ => field.toNat < 12
  | .tinfoCh _ _ _ _ => true
  | .tinfoChSi _ _ _ field _ => field.toNat < 12
  | .eload _ _ _ => true
  | .eloadSi _ _ _ _ => true
  | .ewire _ _ _ => true
  | .ewireSi _ _ _ _ => true
  | .ethr _ _ _ => true
  | .ethrSi _ _ _ _ => true
  | .exf _ _ _ => true
  | .exfSi _ _ _ _ => true
  | .epop _ _ _ => true
  | .epopSi _ _ _ _ => true
  | .exb _ _ _ => true
  | .exbSi _ _ _ _ => true
  | .esel _ _ _ => true
  | .eselSi _ _ _ _ => true
  | .eeval _ _ _ _ => true
  | .eevalSi _ _ _ _ => true
  | .asyncTrapTaken _ => true
  | .engineCommandStart _ _ => true
  | .engineElement _ _ => true
  | .engineCommandComplete _ _ => true
  | .faultRetry _ => true
  | .ergCommandStart _ _ => true
  | .ergCommandComplete _ => true
  | .ergClearDone _ => true
  | .ergRestoreDone _ => true
  | .ergSaveDone _ _ => true
  | .fibreOpArrive _ => true
  | .scanSegmentDone _ => true
  | .fibreOpComplete _ => true
  | .viewMergeStart _ => true
  | .viewMergeElement _ => true
  | .viewMergeComplete _ => true
  | .childPlaced _ _ => true
  | .monitorNotice _ _ => true
  | .watchClearReply _ _ => true
  | .stallSweep _ => true
  | .cloneWindow _ _ _ => true
  | .cloneDissolve _ => true
  | .configDrained _ => true
  | .residencyRetire _ => true
  | .dispatchDecision => true
  | .queueCommandComplete _ _ => true
  | .groupAdmit _ => true
  | .claimMove => true
  | .loadComplete _ => true
  | .preemptRequest _ _ => true
  | .nodeSnapshotSave _ _ _ => true
  | .haboobQuiescence _ => true
  | .snapshotComplete _ _ => true
  | .groupRestore _ => true
  | .restoreComplete _ _ => true
  | .remoteAck _ _ => true
  | .remoteRetryExhausted _ => true
  | .remapRequest _ _ _ => true
  | .remapComplete _ _ => true
  | .contractBudgetExhaust _ _ => true
  | .contractWindowExpire _ => true
  | .contextTeardownDone _ => true
  | .rmaWrite _ _ => true
  | .rmaRead _ _ => true
  | .rmaAtomic _ _ _ _ _ => true
  | .unsupportedPacket _ => true
  | .devInfo _ => true
  | .pageStat _ => true
  | .ctxCreate _ => true
  | .ctxKey _ => true
  | .ctxStart _ => true
  | .ctxSuspend _ => true
  | .ctxResume _ => true
  | .ctxDestroy _ => true
  | .ctxQuota _ => true
  | .ctxSync _ => true
  | .ctxSyncDone _ => true
  | .qCreate _ => true
  | .qEnable _ => true
  | .qDisable _ => true
  | .qTail _ => true
  | .qFlush _ => true
  | .qRestart _ => true
  | .qDestroy _ => true
  | .qPop _ => true
  | .contractCreate _ => true
  | .contractDestroy _ => true
  | .poolReg _ => true
  | .poolFree _ => true
  | .memWrite _ => true
  | .memRead _ => true
  | .chanBind _ => true
  | .linkStat _ => true
  | .linkIsolate _ => true
  | .linkRestore _ => true
  | .linkEnable _ => true
  | .linkRetryTimer _ => true
  | .linkTrainingEnd _ _ => true
  | .linkLaneFail _ _ => true
  | .linkFerrIsolate _ => true
  | .getVersion _ => true
  | .getCapabilities _ => true
  | .negotiateAlgorithms _ => true
  | .getDigests _ => true
  | .getCertificate _ => true
  | .challenge _ _ => true
  | .getMeasurements _ _ => true
  | .provision _ => true
  | .setNode _ _ => true
  | .deploy _ => true
  | .dbgNonce => true
  | .dbgUnlock _ => true
  | .decommission _ => true
  | .coldReset => true
  | .warmReset => true
  | .bootImagePacket _ _ _ => true
  | .powerStateEnter _ => true
  | .powerStateWake _ => true
  | .thermalSensing _ => true
  | .supplyFault => true
  | .hbmPatrolScrub _ _ => true
  | .sramScrub _ => true
  | .hbmRetraining _ => true
  | .linkEqualisation _ => true
  | .hbmRowRepair _ _ => true
  | .telemetryRecord => true
  | .accessPerformed _ => true
  | .linkLevelRetry _ _ => true
  | .hbmRetrainingDone _ => true
  | .hbmRowRepairDone _ _ => true
  | .ingr x => x.wf
  | .ingrN64 x => x.wf
  | .ingrN96 x => x.wf
  | .egr x => x.wf && x.k == 0
  | .egrN64 x => x.wf
  | .egrN96 x => x.wf
  | .cst x => x.wf
  | .cstN64 x => x.wf
  | .cstN96 x => x.wf
  | .addNode x => x.wf
  | .addNodeN64 x => x.wf
  | .addNodeN96 x => x.wf
  | .subNode x => x.wf
  | .subNodeN64 x => x.wf
  | .subNodeN96 x => x.wf
  | .mulNode x => x.wf
  | .mulNodeN64 x => x.wf
  | .mulNodeN96 x => x.wf
  | .mad x => x.wf
  | .madN64 x => x.wf
  | .madN96 x => x.wf
  | .minNode x => x.wf
  | .minNodeN64 x => x.wf
  | .minNodeN96 x => x.wf
  | .maxNode x => x.wf
  | .maxNodeN64 x => x.wf
  | .maxNodeN96 x => x.wf
  | .absNode x => x.wf
  | .absNodeN64 x => x.wf
  | .absNodeN96 x => x.wf
  | .andNode x => x.wf
  | .andNodeN64 x => x.wf
  | .andNodeN96 x => x.wf
  | .orNode x => x.wf
  | .orNodeN64 x => x.wf
  | .orNodeN96 x => x.wf
  | .xorNode x => x.wf
  | .xorNodeN64 x => x.wf
  | .xorNodeN96 x => x.wf
  | .shlNode x => x.wf
  | .shlNodeN64 x => x.wf
  | .shlNodeN96 x => x.wf
  | .shrNode x => x.wf
  | .shrNodeN64 x => x.wf
  | .shrNodeN96 x => x.wf
  | .sarNode x => x.wf
  | .sarNodeN64 x => x.wf
  | .sarNodeN96 x => x.wf
  | .cmpNode x => x.wf && x.t == 0
  | .cmpNodeN64 x => x.wf
  | .cmpNodeN96 x => x.wf
  | .selNode x => x.wf
  | .selNodeN64 x => x.wf
  | .selNodeN96 x => x.wf
  | .cvt x => x.wf
  | .cvtN64 x => x.wf
  | .cvtN96 x => x.wf
  | .fadd x => x.wf
  | .faddN64 x => x.wf
  | .faddN96 x => x.wf
  | .fmul x => x.wf
  | .fmulN64 x => x.wf
  | .fmulN96 x => x.wf
  | .fma x => x.wf
  | .fmaN64 x => x.wf
  | .fmaN96 x => x.wf
  | .fmin x => x.wf
  | .fminN64 x => x.wf
  | .fminN96 x => x.wf
  | .fmax x => x.wf
  | .fmaxN64 x => x.wf
  | .fmaxN96 x => x.wf
  | .fcmp x => x.wf && x.t == 0
  | .fcmpN64 x => x.wf
  | .fcmpN96 x => x.wf
  | .frcp x => x.wf && x.t == 3
  | .frcpN64 x => x.wf
  | .frcpN96 x => x.wf
  | .frsq x => x.wf && x.t == 3
  | .frsqN64 x => x.wf
  | .frsqN96 x => x.wf
  | .fexp2 x => x.wf && x.t == 3
  | .fexp2N64 x => x.wf
  | .fexp2N96 x => x.wf
  | .flog2 x => x.wf && x.t == 3
  | .flog2N64 x => x.wf
  | .flog2N96 x => x.wf
  | .unpk3 x => x.wf && x.t == 0
  | .unpk3N64 x => x.wf
  | .unpk3N96 x => x.wf
  | .bmandN64 x => x.wf
  | .bmandN96 x => x.wf
  | .pfxpop x => x.wf && x.t == 2
  | .pfxpopN64 x => x.wf
  | .pfxpopN96 x => x.wf
  | .six x => x.wf
  | .sixN64 x => x.wf
  | .sixN96 x => x.wf
  | .sun x => x.wf
  | .sunN64 x => x.wf
  | .sunN96 x => x.wf
  | .topk x => x.wf
  | .topkN64 x => x.wf
  | .topkN96 x => x.wf
  | .mm x => x.wf
  | .mmN64 x => x.wf
  | .mmN96 x => x.wf
  | .mmpl x => x.wf && x.t == 0
  | .mmplN64 x => x.wf
  | .mmplN96 x => x.wf
  | .acc x => x.wf && x.k == 0
  | .accN64 x => x.wf
  | .accN96 x => x.wf
  | .drain x => x.wf
  | .drainN64 x => x.wf
  | .drainN96 x => x.wf
  | .cnt x => x.wf
  | .cntN64 x => x.wf
  | .cntN96 x => x.wf
  | .agen x => x.wf
  | .agenN64 x => x.wf
  | .agenN96 x => x.wf
  | .join x => x.wf
  | .joinN64 x => x.wf
  | .joinN96 x => x.wf
  | .split x => x.wf
  | .splitN64 x => x.wf
  | .splitN96 x => x.wf
  | .merge x => x.wf
  | .mergeN64 x => x.wf
  | .mergeN96 x => x.wf
  | .steer x => x.wf
  | .steerN64 x => x.wf
  | .steerN96 x => x.wf
  | .bartok x => x.wf
  | .bartokN64 x => x.wf
  | .bartokN96 x => x.wf
  | .ldn x => x.wf
  | .ldnN64 x => x.wf
  | .ldnN96 x => x.wf
  | .stn x => x.wf
  | .stnN64 x => x.wf
  | .stnN96 x => x.wf
  | .atomNode x => x.wf
  | .atomNodeN64 x => x.wf
  | .atomNodeN96 x => x.wf
  | .acqn x => x.wf
  | .acqnN64 x => x.wf
  | .acqnN96 x => x.wf
  | .relnN64 x => x.wf
  | .relnN96 x => x.wf
  | .wcvt x => x.wf
  | .wcvtN64 x => x.wf
  | .wcvtN96 x => x.wf
  | .mstore x => x.wf
  | .mstoreN64 x => x.wf
  | .mstoreN96 x => x.wf
  | .pivdiv x => x.wf && x.t == 3
  | .pivdivN64 x => x.wf
  | .pivdivN96 x => x.wf
  | .resid x => x.wf && x.t == 3
  | .residN64 x => x.wf
  | .residN96 x => x.wf
  | .shuf x => x.wf
  | .shufN64 x => x.wf
  | .shufN96 x => x.wf
  | .fmerge x => x.wf
  | .fmergeN64 x => x.wf
  | .fmergeN96 x => x.wf
  | .fins x => x.wf
  | .finsN64 x => x.wf
  | .finsN96 x => x.wf
  | .fscan x => x.wf
  | .fscanN64 x => x.wf
  | .fscanN96 x => x.wf
  | .fprobe x => x.wf
  | .fprobeN64 x => x.wf
  | .fprobeN96 x => x.wf
  | .finter x => x.wf
  | .finterN64 x => x.wf
  | .finterN96 x => x.wf
  | .fcountN64 x => x.wf
  | .fcountN96 x => x.wf
  | .fclearN64 x => x.wf
  | .fclearN96 x => x.wf
  | .fcompactN64 x => x.wf
  | .fcompactN96 x => x.wf
  | .ftopk x => x.wf
  | .ftopkN64 x => x.wf
  | .ftopkN96 x => x.wf
  | .fstatN64 x => x.wf
  | .fstatN96 x => x.wf

end Sys2Proof
end

