-- ==== Sys2Proof/Decode.lean ====
section
/-! DEFINITION. Decoding (04 R83 to R100): from little-endian words to an instruction, or the name of
the first check that fails; and the encoder, written from the same tables. Words are naturals below
2^32 here, fields are cut out once, and the machine never sees raw encodings. -/
namespace Sys2Proof

/-- Why words are no instruction (R83, R84, R109 checks 4 to 9, R111 codes 2 to 4). -/
inductive DecErr where
  /-- fewer words are given than the length code asks for -/
  | short
  /-- a header word, of this KIND (check 4; KIND 1 and 2 are check 2) -/
  | header (kind : Nat)
  /-- OP is reserved (check 5) -/
  | reservedOp
  /-- LEN matches no form of OP (check 7) -/
  | undefinedLen
  /-- a field holds a reserved value or is not zero where it must be (check 8), at this FPOS (R110) -/
  | field (fpos : Nat)
  /-- a node's consumer fields break R98 (R111 code 4) -/
  | consumer
  /-- the special-register number is reserved (check 9) -/
  | csr
  deriving DecidableEq, Repr

/-! ### Small codes (R95, R100, R108) -/

def scopeOf : Nat → Scope
  | 0 => .dune | 1 => .page | 2 => .region | 3 => .core | 4 => .die | 5 => .pkg | _ => .sys
def tyOf : Nat → MTy
  | 0 => .i8 | 1 => .ui8 | 2 => .i16 | 3 => .i32 | 4 => .ui32 | _ => .i64
def condOf : Nat → Cond
  | 0 => .eq | 1 => .ne | 2 => .lt | 3 => .le | 4 => .gt | 5 => .ge | 6 => .ltu | 7 => .leu | 8 => .gtu
  | _ => .geu
def condCode : Cond → Nat
  | .eq => 0 | .ne => 1 | .lt => 2 | .le => 3 | .gt => 4 | .ge => 5 | .ltu => 6 | .leu => 7 | .gtu => 8
  | .geu => 9
def aopOf : Nat → Aop
  | 0 => .add | 1 => .and | 2 => .or | 3 => .xor | 4 => .min | 5 => .max | 6 => .minu | 7 => .maxu
  | 8 => .swap | _ => .cas
def aopCode : Aop → Nat
  | .add => 0 | .and => 1 | .or => 2 | .xor => 3 | .min => 4 | .max => 5 | .minu => 6 | .maxu => 7
  | .swap => 8 | .cas => 9
/-- Special-register numbers (R108). -/
def csrOf (n : Nat) : Option Csr :=
  if n == 0 then some .cyc else if n == 1 then some .stat else if n == 2 then some .acs
  else if n == 3 then some .budget else if n == 4 then some .best else if n == 5 then some .bestres
  else if n == 6 then some .monmask else if n == 7 then some .pageid else if n == 8 then some .ctxid
  else if n == 9 then some .dupmap else if n == 0x100 then some .epc else if n == 0x101 then some .ecause
  else if n == 0x102 then some .eaddr else if n == 0x103 then some .einfo else if n == 0x104 then some .tvec
  else none
def csrCode : Csr → Nat
  | .cyc => 0 | .stat => 1 | .acs => 2 | .budget => 3 | .best => 4 | .bestres => 5 | .monmask => 6
  | .pageid => 7 | .ctxid => 8 | .dupmap => 9 | .epc => 0x100 | .ecause => 0x101 | .eaddr => 0x102
  | .einfo => 0x103 | .tvec => 0x104

/-- The classes of the opcode map (R100). -/
inductive OpClass where
  | sequencer | engine | task | erg | node | fibre | reserved
  deriving DecidableEq, Repr

def opClass (op : Nat) : OpClass :=
  if op ≤ 0x37 then .sequencer
  else if 0x40 ≤ op && op ≤ 0x57 then .engine
  else if 0x58 ≤ op && op ≤ 0x5D then .task
  else if 0x60 ≤ op && op ≤ 0x67 then .erg
  else if 0x80 ≤ op && op ≤ 0xB7 then .node
  else if 0xB8 ≤ op && op ≤ 0xC1 then .fibre
  else .reserved

/-! ### Sequencer forms (R85 to R94) -/

/-- The fields of a sequencer instruction: first word as SR, then the second and third word. -/
structure Raw where
  op : Nat
  len : Nat
  d : Nat
  s1 : Nat
  s2 : Nat
  gp : Nat
  gs : Nat
  var : Nat
  w1 : Nat
  w2 : Nat
  deriving DecidableEq, Repr

/-- Cutting the fields out (R85). -/
def Raw.ofWords (w0 w1 w2 : Nat) : Raw :=
  { op := w0 / 4 % 256, len := w0 % 4, d := w0 / 1024 % 32, s1 := w0 / 32768 % 32
    s2 := w0 / 1048576 % 32, gp := w0 / 33554432 % 8, gs := w0 / 268435456 % 2
    var := w0 / 536870912 % 8, w1 := w1, w2 := w2 }

/-- The first word of the fields (R85). -/
def Raw.word0 (r : Raw) : Nat :=
  r.len + 4 * r.op + 1024 * r.d + 32768 * r.s1 + 1048576 * r.s2 + 33554432 * r.gp
    + 268435456 * r.gs + 536870912 * r.var

def Raw.guard (r : Raw) : Guard := { p := .ofNat 3 r.gp, neg := r.gs == 1 }

/-- MODE, SC and DISP of form SM (R88). -/
def Raw.mem (r : Raw) : MemRef :=
  if r.w1 / 1073741824 % 4 == 0 then .base (.ofNat 5 r.s1) (.ofNat 28 r.w1)
  else if r.w1 / 1073741824 % 4 == 1 then
    .index (.ofNat 5 r.s1) (.ofNat 5 r.s2) (.ofNat 2 (r.w1 / 268435456))
  else .pcRel (.ofNat 28 r.w1)
/-- The checks of form SM on the first word, then on the second; the reserved MODE 3 asks no other field to be zero. -/
def Raw.memLo (r : Raw) : List (Nat × Bool) :=
  [(15, r.w1 / 1073741824 % 4 != 2 || r.s1 == 0), (20, r.w1 / 1073741824 % 4 == 1 || r.w1 / 1073741824 % 4 == 3 || r.s2 == 0)]
def Raw.memHi (r : Raw) : List (Nat × Bool) :=
  [(32, r.w1 / 1073741824 % 4 != 1 || r.w1 % 268435456 == 0),
   (60, r.w1 / 1073741824 % 4 == 1 || r.w1 / 1073741824 % 4 == 3 || r.w1 / 268435456 % 4 == 0),
   (62, r.w1 / 1073741824 % 4 != 3)]

def bad : Except DecErr Instr := .error .undefinedLen

/-- The answer for each of the three lengths (R84). -/
def byLen (r : Raw) (a b c : Except DecErr Instr) : Except DecErr Instr :=
  if r.len == 0 then a else if r.len == 1 then b else if r.len == 2 then c else bad

/-- Check 8: the first field, by position, that fails (notes/assumptions/7.md), else the instruction. -/
def chk (fs : List (Nat × Bool)) (i : Instr) : Except DecErr Instr :=
  match fs.find? (fun f => !f.2) with
  | some f => .error (.field f.1)
  | none => .ok i

/-- Check 8, then the special-register number of check 9. -/
def chkCsr (fs : List (Nat × Bool)) (w1 : Nat) (k : Csr → Instr) : Except DecErr Instr :=
  match fs.find? (fun f => !f.2), csrOf (w1 % 4096) with
  | some f, _ => .error (.field f.1)
  | none, none => .error .csr
  | none, some n => .ok (k n)

/-- The sequencer, engine, task and Erg rows of the forms table (R99). DESIGN CHOICE: where only the upper bits of the
register field of a predicate or accumulator operand are not zero, the offending field of R110 is those bits (FPOS 13, 18,
23, 14 or 19), not the 5-bit register field (notes/assumptions/140.md). -/
def decodeSeq (r : Raw) : Except DecErr Instr :=
  match r.op with
  | 0x00 => byLen r (chk [(10, r.d == 0), (15, r.s1 == 0), (20, r.s2 == 0), (25, r.gp == 0), (28, r.gs == 0), (29, r.var == 0)] (.nop))
      bad
      bad
  | 0x01 => byLen r (chk [(29, r.var == 0)] (.add r.guard (.ofNat 5 r.d) (.ofNat 5 r.s1) (.ofNat 5 r.s2)))
      (chk [(20, r.s2 == 0), (29, r.var == 0)] (.addSi r.guard (.ofNat 5 r.d) (.ofNat 5 r.s1) (.ofNat 32 r.w1)))
      bad
  | 0x02 => byLen r (chk [(29, r.var == 0)] (.sub r.guard (.ofNat 5 r.d) (.ofNat 5 r.s1) (.ofNat 5 r.s2)))
      (chk [(20, r.s2 == 0), (29, r.var == 0)] (.subSi r.guard (.ofNat 5 r.d) (.ofNat 5 r.s1) (.ofNat 32 r.w1)))
      bad
  | 0x03 => byLen r (chk [(29, r.var == 0)] (.mul r.guard (.ofNat 5 r.d) (.ofNat 5 r.s1) (.ofNat 5 r.s2)))
      (chk [(20, r.s2 == 0), (29, r.var == 0)] (.mulSi r.guard (.ofNat 5 r.d) (.ofNat 5 r.s1) (.ofNat 32 r.w1)))
      bad
  | 0x04 => byLen r (chk [(29, r.var ≤ 1)] (.mulh r.guard (r.var == 1) (.ofNat 5 r.d) (.ofNat 5 r.s1) (.ofNat 5 r.s2)))
      (chk [(20, r.s2 == 0), (29, r.var ≤ 1)] (.mulhSi r.guard (r.var == 1) (.ofNat 5 r.d) (.ofNat 5 r.s1) (.ofNat 32 r.w1)))
      bad
  | 0x05 => byLen r (chk [(29, r.var ≤ 1)] (.div r.guard (r.var == 1) (.ofNat 5 r.d) (.ofNat 5 r.s1) (.ofNat 5 r.s2)))
      (chk [(20, r.s2 == 0), (29, r.var ≤ 1)] (.divSi r.guard (r.var == 1) (.ofNat 5 r.d) (.ofNat 5 r.s1) (.ofNat 32 r.w1)))
      bad
  | 0x06 => byLen r (chk [(29, r.var ≤ 1)] (.rem r.guard (r.var == 1) (.ofNat 5 r.d) (.ofNat 5 r.s1) (.ofNat 5 r.s2)))
      (chk [(20, r.s2 == 0), (29, r.var ≤ 1)] (.remSi r.guard (r.var == 1) (.ofNat 5 r.d) (.ofNat 5 r.s1) (.ofNat 32 r.w1)))
      bad
  | 0x07 => byLen r (chk [(29, r.var == 0)] (.andR r.guard (.ofNat 5 r.d) (.ofNat 5 r.s1) (.ofNat 5 r.s2)))
      (chk [(20, r.s2 == 0), (29, r.var == 0)] (.andSi r.guard (.ofNat 5 r.d) (.ofNat 5 r.s1) (.ofNat 32 r.w1)))
      bad
  | 0x08 => byLen r (chk [(29, r.var == 0)] (.orR r.guard (.ofNat 5 r.d) (.ofNat 5 r.s1) (.ofNat 5 r.s2)))
      (chk [(20, r.s2 == 0), (29, r.var == 0)] (.orSi r.guard (.ofNat 5 r.d) (.ofNat 5 r.s1) (.ofNat 32 r.w1)))
      bad
  | 0x09 => byLen r (chk [(29, r.var == 0)] (.xorR r.guard (.ofNat 5 r.d) (.ofNat 5 r.s1) (.ofNat 5 r.s2)))
      (chk [(20, r.s2 == 0), (29, r.var == 0)] (.xorSi r.guard (.ofNat 5 r.d) (.ofNat 5 r.s1) (.ofNat 32 r.w1)))
      bad
  | 0x0A => byLen r (chk [(29, r.var == 0)] (.andn r.guard (.ofNat 5 r.d) (.ofNat 5 r.s1) (.ofNat 5 r.s2)))
      (chk [(20, r.s2 == 0), (29, r.var == 0)] (.andnSi r.guard (.ofNat 5 r.d) (.ofNat 5 r.s1) (.ofNat 32 r.w1)))
      bad
  | 0x0B => byLen r (chk [(29, r.var == 0)] (.shl r.guard (.ofNat 5 r.d) (.ofNat 5 r.s1) (.ofNat 5 r.s2)))
      (chk [(20, r.s2 == 0), (29, r.var == 0)] (.shlSi r.guard (.ofNat 5 r.d) (.ofNat 5 r.s1) (.ofNat 32 r.w1)))
      bad
  | 0x0C => byLen r (chk [(29, r.var == 0)] (.shr r.guard (.ofNat 5 r.d) (.ofNat 5 r.s1) (.ofNat 5 r.s2)))
      (chk [(20, r.s2 == 0), (29, r.var == 0)] (.shrSi r.guard (.ofNat 5 r.d) (.ofNat 5 r.s1) (.ofNat 32 r.w1)))
      bad
  | 0x0D => byLen r (chk [(29, r.var == 0)] (.sar r.guard (.ofNat 5 r.d) (.ofNat 5 r.s1) (.ofNat 5 r.s2)))
      (chk [(20, r.s2 == 0), (29, r.var == 0)] (.sarSi r.guard (.ofNat 5 r.d) (.ofNat 5 r.s1) (.ofNat 32 r.w1)))
      bad
  | 0x0E => byLen r (chk [(29, r.var == 0)] (.rot r.guard (.ofNat 5 r.d) (.ofNat 5 r.s1) (.ofNat 5 r.s2)))
      (chk [(20, r.s2 == 0), (29, r.var == 0)] (.rotSi r.guard (.ofNat 5 r.d) (.ofNat 5 r.s1) (.ofNat 32 r.w1)))
      bad
  | 0x0F => byLen r (chk [(29, r.var ≤ 1)] (.min r.guard (r.var == 1) (.ofNat 5 r.d) (.ofNat 5 r.s1) (.ofNat 5 r.s2)))
      (chk [(20, r.s2 == 0), (29, r.var ≤ 1)] (.minSi r.guard (r.var == 1) (.ofNat 5 r.d) (.ofNat 5 r.s1) (.ofNat 32 r.w1)))
      bad
  | 0x10 => byLen r (chk [(29, r.var ≤ 1)] (.max r.guard (r.var == 1) (.ofNat 5 r.d) (.ofNat 5 r.s1) (.ofNat 5 r.s2)))
      (chk [(20, r.s2 == 0), (29, r.var ≤ 1)] (.maxSi r.guard (r.var == 1) (.ofNat 5 r.d) (.ofNat 5 r.s1) (.ofNat 32 r.w1)))
      bad
  | 0x11 => byLen r (chk [(20, r.s2 == 0), (29, r.var == 0)] (.clz r.guard (.ofNat 5 r.d) (.ofNat 5 r.s1)))
      bad
      bad
  | 0x12 => byLen r (chk [(20, r.s2 == 0), (29, r.var == 0)] (.popc r.guard (.ofNat 5 r.d) (.ofNat 5 r.s1)))
      bad
      bad
  | 0x13 => byLen r (chk [(29, r.var ≤ 1)] (.ext r.guard (r.var == 1) (.ofNat 5 r.d) (.ofNat 5 r.s1) (.ofNat 5 r.s2)))
      (chk [(20, r.s2 == 0), (29, r.var ≤ 1), (32, 1 ≤ r.w1 && r.w1 ≤ 64)] (.extSi r.guard (r.var == 1) (.ofNat 5 r.d) (.ofNat 5 r.s1) (.ofNat 32 r.w1)))
      bad
  | 0x14 => byLen r (chk [(10, r.d / 8 * 8 + r.var ≤ 9)] (.cmp r.guard (condOf (r.d / 8 * 8 + r.var)) (.ofNat 3 r.d) (.ofNat 5 r.s1) (.ofNat 5 r.s2)))
      (chk [(10, r.d / 8 * 8 + r.var ≤ 9), (20, r.s2 == 0)] (.cmpSi r.guard (condOf (r.d / 8 * 8 + r.var)) (.ofNat 3 r.d) (.ofNat 5 r.s1) (.ofNat 32 r.w1)))
      bad
  | 0x15 => byLen r bad
      (chk [(13, r.d < 8), (18, r.s1 < 8), (23, r.s2 < 8), (29, r.var == 0), (36, r.w1 < 16)] (.plog r.guard (.ofNat 3 r.d) (.ofNat 3 r.s1) (.ofNat 3 r.s2) (.ofNat 4 (r.w1))))
      bad
  | 0x16 => byLen r (chk [] (.sel r.guard (.ofNat 3 r.var) (.ofNat 5 r.d) (.ofNat 5 r.s1) (.ofNat 5 r.s2)))
      bad
      bad
  | 0x17 => byLen r (if r.var == 0 then chk [(20, r.s2 == 0), (29, r.var == 0)] (.movGG r.guard (.ofNat 5 r.d) (.ofNat 5 r.s1))
      else if r.var == 1 then chk [(18, r.s1 < 8), (20, r.s2 == 0), (29, r.var == 1)] (.movGP r.guard (.ofNat 5 r.d) (.ofNat 3 r.s1))
      else if r.var == 2 then chk [(13, r.d < 8), (20, r.s2 == 0), (29, r.var == 2)] (.movPG r.guard (.ofNat 3 r.d) (.ofNat 5 r.s1))
      else if r.var == 3 then chk [(13, r.d < 8), (18, r.s1 < 8), (20, r.s2 == 0), (29, r.var == 3)] (.movPP r.guard (.ofNat 3 r.d) (.ofNat 3 r.s1))
      else chk [(20, r.s2 == 0), (29, false)] (.nop))
      bad
      bad
  | 0x18 => byLen r bad
      (chk [(15, r.s1 == 0), (20, r.s2 == 0), (29, r.var == 0)] (.litSi r.guard (.ofNat 5 r.d) (.ofNat 32 r.w1)))
      (chk [(15, r.s1 == 0), (20, r.s2 == 0), (29, r.var == 0)] (.litSl r.guard (.ofNat 5 r.d) (.ofNat 32 r.w1) (.ofNat 32 r.w2)))
  | 0x19 => byLen r bad
      (chk (r.memLo ++ (29, decide (r.var ≤ 5)) :: r.memHi) (.ld r.guard (tyOf r.var) (.ofNat 5 r.d) r.mem))
      bad
  | 0x1A => byLen r bad
      (chk (r.memLo ++ (29, decide (r.var ≤ 5)) :: r.memHi) (.st r.guard (tyOf r.var) (.ofNat 5 r.d) r.mem))
      bad
  | 0x1B => byLen r bad
      (chk [(29, 3 ≤ r.var && r.var ≤ 5), (56, r.w1 / 16777216 % 16 ≤ 9), (60, r.w1 / 268435456 % 4 == 0), (62, r.w1 / 1073741824 == 0)] (.amo r.guard (aopOf (r.w1 / 16777216 % 16)) (tyOf r.var) (.ofNat 5 r.d) (.ofNat 5 r.s1) (.ofNat 5 r.s2) (.ofNat 24 r.w1)))
      bad
  | 0x1C => byLen r (chk [(10, r.d == 0), (15, r.s1 == 0), (20, r.s2 == 0), (29, r.var ≤ 6)] (.fence r.guard (scopeOf r.var)))
      bad
      bad
  | 0x1D => byLen r (chk [(29, r.var == 0)] (.br r.guard (.ofNat 15 (r.d + 32 * r.s1 + 1024 * r.s2))))
      (chk [(10, r.d == 0), (15, r.s1 == 0), (20, r.s2 == 0), (29, r.var == 0), (32, r.w1 % 4 == 0)] (.brSbl r.guard (.ofNat 32 r.w1)))
      bad
  | 0x1E => byLen r (chk [(10, r.d == 0), (20, r.s2 == 0), (29, r.var == 0)] (.jmp r.guard (.ofNat 5 r.s1)))
      (chk [(10, r.d == 0), (15, r.s1 == 0), (20, r.s2 == 0), (29, r.var == 0), (32, r.w1 % 4 == 0)] (.jmpSbl r.guard (.ofNat 32 r.w1)))
      bad
  | 0x1F => byLen r (chk [(20, r.s2 == 0), (29, r.var == 0)] (.call r.guard (.ofNat 5 r.d) (.ofNat 5 r.s1)))
      (chk [(15, r.s1 == 0), (20, r.s2 == 0), (29, r.var == 0), (32, r.w1 % 4 == 0)] (.callSbl r.guard (.ofNat 5 r.d) (.ofNat 32 r.w1)))
      bad
  | 0x20 => byLen r (chk [(10, r.d == 0), (20, r.s2 == 0), (29, r.var == 0)] (.ret r.guard (.ofNat 5 r.s1)))
      bad
      bad
  | 0x21 => byLen r bad
      (chk [(15, r.s1 == 0), (20, r.s2 == 0), (29, r.var == 0), (32, r.w1 % 4 == 0)] (.loop r.guard (.ofNat 5 r.d) (.ofNat 32 r.w1)))
      bad
  | 0x22 => byLen r (if r.var == 0 then chk [(10, r.d == 0), (20, r.s2 == 0), (29, r.var == 0)] (.monarm r.guard (.ofNat 5 r.s1))
      else if r.var == 1 then chk [(10, r.d == 0), (15, r.s1 == 0), (20, r.s2 == 0), (29, r.var == 1)] (.monarmClr r.guard)
      else chk [(10, r.d == 0), (20, r.s2 == 0), (29, false)] (.nop))
      bad
      bad
  | 0x23 => byLen r (chk [(13, r.d < 8), (20, r.s2 == 0), (29, r.var == 0)] (.sleep r.guard (.ofNat 3 r.d) (.ofNat 5 r.s1)))
      (chk [(13, r.d < 8), (15, r.s1 == 0), (20, r.s2 == 0), (29, r.var == 0)] (.sleepSi r.guard (.ofNat 3 r.d) (.ofNat 32 r.w1)))
      bad
  | 0x24 => byLen r (chk [(13, r.d < 8), (29, r.var == 0)] (.testseq r.guard (.ofNat 3 r.d) (.ofNat 5 r.s1) (.ofNat 5 r.s2)))
      (chk [(13, r.d < 8), (29, r.var == 0)] (.testseqSi r.guard (.ofNat 3 r.d) (.ofNat 5 r.s1) (.ofNat 5 r.s2) (.ofNat 32 r.w1)))
      bad
  | 0x25 => byLen r (if r.var == 0 then chk [(20, r.s2 == 0), (29, r.var == 0)] (.cfg r.guard (.ofNat 5 r.d) (.ofNat 5 r.s1))
      else if r.var == 1 then chk [(20, r.s2 == 0), (29, r.var == 1)] (.cfgList r.guard (.ofNat 5 r.d) (.ofNat 5 r.s1))
      else chk [(20, r.s2 == 0), (29, false)] (.nop))
      (if r.var == 0 then chk [(20, r.s2 == 0), (29, r.var == 0)] (.cfgSi r.guard (.ofNat 5 r.d) (.ofNat 5 r.s1) (.ofNat 32 r.w1))
      else if r.var == 1 then chk [(20, r.s2 == 0), (29, r.var == 1)] (.cfgListSi r.guard (.ofNat 5 r.d) (.ofNat 5 r.s1) (.ofNat 32 r.w1))
      else chk [(20, r.s2 == 0), (29, false)] (.nop))
      bad
  | 0x26 => byLen r (chk [(15, r.s1 == 0), (20, r.s2 == 0), (29, r.var == 0)] (.cfgstep r.guard (.ofNat 5 r.d)))
      (chk [(15, r.s1 == 0), (20, r.s2 == 0), (29, r.var == 0)] (.cfgstepSi r.guard (.ofNat 5 r.d) (.ofNat 32 r.w1)))
      bad
  | 0x27 => byLen r (chk [(13, r.d < 8), (20, r.s2 == 0), (29, r.var == 0)] (.run r.guard (.ofNat 3 r.d) (.ofNat 5 r.s1)))
      (chk [(13, r.d < 8), (15, r.s1 == 0), (20, r.s2 == 0), (29, r.var == 0)] (.runSi r.guard (.ofNat 3 r.d) (.ofNat 32 r.w1)))
      bad
  | 0x28 => byLen r (chk [(13, r.d < 8), (29, r.var == 0)] (.bound r.guard (.ofNat 3 r.d) (.ofNat 5 r.s1) (.ofNat 5 r.s2)))
      (chk [(13, r.d < 8), (15, r.s1 == 0), (29, r.var == 0), (43, r.w1 < 2048)] (.boundSi r.guard (.ofNat 3 r.d) (.ofNat 5 r.s2) (.ofNat 7 (r.w1)) (.ofNat 4 (r.w1 / 128))))
      bad
  | 0x29 => byLen r (chk [(14, r.d < 16), (15, r.s1 == 0), (20, r.s2 == 0), (29, r.var == 0)] (.accrst r.guard (.ofNat 4 r.d)))
      (chk [(14, r.d < 16), (15, r.s1 == 0), (20, r.s2 == 0), (29, r.var == 0), (32, r.w1 ≤ 32767 || 4294934528 ≤ r.w1)] (.accrstSi r.guard (.ofNat 4 r.d) (.ofNat 32 r.w1)))
      bad
  | 0x2A => byLen r (chk [(19, r.s1 < 16), (20, r.s2 == 0), (29, r.var ≤ 4)] (.accrd r.guard (.ofNat 3 r.var) (.ofNat 5 r.d) (.ofNat 4 r.s1)))
      (chk [(15, r.s1 == 0), (20, r.s2 == 0), (29, r.var ≤ 4), (36, r.w1 < 16)] (.accrdSi r.guard (.ofNat 3 r.var) (.ofNat 5 r.d) (.ofNat 4 (r.w1))))
      bad
  | 0x2B => byLen r (chk [(13, r.d < 8), (29, r.var ≤ 1)] (.portw r.guard (r.var == 1) (.ofNat 3 r.d) (.ofNat 5 r.s1) (.ofNat 5 r.s2)))
      (chk [(13, r.d < 8), (20, r.s2 == 0), (29, r.var ≤ 1), (38, r.w1 < 64)] (.portwSi r.guard (r.var == 1) (.ofNat 3 r.d) (.ofNat 5 r.s1) (.ofNat 6 (r.w1))))
      bad
  | 0x2C => byLen r (chk [(20, r.s2 == 0)] (.portr r.guard (.ofNat 3 r.var) (.ofNat 5 r.d) (.ofNat 5 r.s1)))
      (chk [(15, r.s1 == 0), (20, r.s2 == 0), (38, r.w1 < 64)] (.portrSi r.guard (.ofNat 3 r.var) (.ofNat 5 r.d) (.ofNat 6 (r.w1))))
      bad
  | 0x2D => byLen r bad
      (chk [(10, r.d == 0), (15, r.s1 == 0), (20, r.s2 == 0), (29, r.var == 0)] (.trap r.guard (.ofNat 32 r.w1)))
      bad
  | 0x2E => byLen r (if r.var == 0 then chk [(10, r.d == 0), (15, r.s1 == 0), (20, r.s2 == 0), (29, r.var == 0)] (.rett r.guard)
      else if r.var == 1 then chk [(10, r.d == 0), (15, r.s1 == 0), (20, r.s2 == 0), (29, r.var == 1)] (.rettNext r.guard)
      else chk [(10, r.d == 0), (15, r.s1 == 0), (20, r.s2 == 0), (29, false)] (.nop))
      bad
      bad
  | 0x2F => byLen r bad
      (chkCsr [(15, r.s1 == 0), (20, r.s2 == 0), (29, r.var == 0), (44, r.w1 / 4096 % 64 == 0), (50, r.w1 / 262144 % 64 == 0), (56, r.w1 / 16777216 == 0)] r.w1 fun n => .csrr r.guard (.ofNat 5 r.d) n)
      bad
  | 0x30 => byLen r bad
      (chkCsr [(10, r.d == 0), (20, r.s2 == 0), (29, r.var == 0), (44, r.w1 / 4096 % 64 == 0), (50, r.w1 / 262144 % 64 == 0), (56, r.w1 / 16777216 == 0)] r.w1 fun n => .csrw r.guard (.ofNat 5 r.s1) n)
      bad
  | 0x31 => byLen r (chk [(10, r.d == 0), (15, r.s1 == 0), (20, r.s2 == 0), (25, r.gp == 0), (28, r.gs == 0), (29, r.var == 0)] (.halt))
      bad
      bad
  | 0x32 => byLen r (chk [(10, r.d == 0), (20, r.s2 == 0), (29, r.var == 0)] (.snap r.guard (.ofNat 5 r.s1)))
      bad
      bad
  | 0x33 => byLen r (if r.var == 0 then chk [(10, r.d == 0), (20, r.s2 == 0), (29, r.var == 0)] (.budget r.guard (.ofNat 5 r.s1))
      else if r.var == 1 then chk [(13, r.d < 8), (15, r.s1 == 0), (20, r.s2 == 0), (29, r.var == 1)] (.budgetTest r.guard (.ofNat 3 r.d))
      else chk [(20, r.s2 == 0), (29, false)] (.nop))
      (if r.var == 0 then chk [(10, r.d == 0), (15, r.s1 == 0), (20, r.s2 == 0), (29, r.var == 0)] (.budgetSi r.guard (.ofNat 32 r.w1))
      else if r.var == 1 then chk [(13, r.d < 8), (15, r.s1 == 0), (20, r.s2 == 0), (29, r.var == 1), (32, r.w1 == 0)] (.budgetTestSi r.guard (.ofNat 3 r.d))
      else chk [(15, r.s1 == 0), (20, r.s2 == 0), (29, false)] (.nop))
      bad
  | 0x34 => byLen r (if r.var == 0 then chk [(13, r.d < 8), (29, r.var == 0)] (.best r.guard (.ofNat 3 r.d) (.ofNat 5 r.s1) (.ofNat 5 r.s2))
      else if r.var == 1 then chk [(13, r.d < 8), (15, r.s1 == 0), (20, r.s2 == 0), (29, r.var == 1)] (.bestClr r.guard (.ofNat 3 r.d))
      else chk [(13, r.d < 8), (29, false)] (.nop))
      (if r.var == 0 then chk [(13, r.d < 8), (20, r.s2 == 0), (29, r.var == 0)] (.bestSi r.guard (.ofNat 3 r.d) (.ofNat 5 r.s1) (.ofNat 32 r.w1))
      else if r.var == 1 then chk [(13, r.d < 8), (15, r.s1 == 0), (20, r.s2 == 0), (29, r.var == 1), (32, r.w1 == 0)] (.bestClrSi r.guard (.ofNat 3 r.d))
      else chk [(13, r.d < 8), (20, r.s2 == 0), (29, false)] (.nop))
      bad
  | 0x35 => byLen r bad
      (chk (r.memLo ++ (29, r.var == 0) :: r.memHi) (.lea r.guard (.ofNat 5 r.d) r.mem))
      bad
  | 0x36 => byLen r bad
      (chk [(20, r.s2 == 0), (29, r.var == 0), (32, r.w1 % 64 + r.w1 / 64 % 64 ≤ 63), (45, !(r.w1 / 4096 % 2 == 1 && r.w1 / 8192 % 2 == 1)), (46, r.w1 < 16384)] (.bitf r.guard (r.w1 / 4096 % 2 == 1) (r.w1 / 8192 % 2 == 1) (.ofNat 5 r.d) (.ofNat 5 r.s1) (.ofNat 6 r.w1) (.ofNat 6 (r.w1 / 64))))
      bad
  | 0x37 => byLen r bad
      (chkCsr [(20, r.s2 == 0), (29, r.var == 0), (44, r.w1 / 4096 % 64 + r.w1 / 262144 % 64 ≤ 63), (56, r.w1 / 16777216 == 0)] r.w1 fun n => .csrx r.guard (.ofNat 5 r.d) (.ofNat 5 r.s1) n (.ofNat 6 (r.w1 / 4096)) (.ofNat 6 (r.w1 / 262144)))
      bad
  | 0x40 => byLen r (chk [(20, r.s2 == 0), (29, r.var == 0)] (.sload r.guard (.ofNat 5 r.d) (.ofNat 5 r.s1)))
      (chk [(20, r.s2 == 0), (29, r.var == 0)] (.sloadSi r.guard (.ofNat 5 r.d) (.ofNat 5 r.s1) (.ofNat 32 r.w1)))
      bad
  | 0x41 => byLen r (chk [(20, r.s2 == 0), (29, r.var == 0)] (.sstore r.guard (.ofNat 5 r.d) (.ofNat 5 r.s1)))
      (chk [(20, r.s2 == 0), (29, r.var == 0)] (.sstoreSi r.guard (.ofNat 5 r.d) (.ofNat 5 r.s1) (.ofNat 32 r.w1)))
      bad
  | 0x42 => byLen r (if r.var == 0 then chk [(13, r.d < 8), (20, r.s2 == 0), (29, r.var == 0)] (.sclose r.guard (.ofNat 3 r.d) (.ofNat 5 r.s1))
      else if r.var == 1 then chk [(13, r.d < 8), (20, r.s2 == 0), (29, r.var == 1)] (.scloseCancel r.guard (.ofNat 3 r.d) (.ofNat 5 r.s1))
      else if r.var == 2 then chk [(13, r.d < 8), (20, r.s2 == 0), (29, r.var == 2)] (.scloseQueue r.guard (.ofNat 3 r.d) (.ofNat 5 r.s1))
      else chk [(13, r.d < 8), (20, r.s2 == 0), (29, false)] (.nop))
      (if r.var == 0 then chk [(13, r.d < 8), (15, r.s1 == 0), (20, r.s2 == 0), (29, r.var == 0), (32, r.w1 < 64)] (.scloseSi r.guard (.ofNat 3 r.d) (.ofNat 6 (r.w1)))
      else if r.var == 1 then chk [(13, r.d < 8), (15, r.s1 == 0), (20, r.s2 == 0), (29, r.var == 1), (32, r.w1 < 64)] (.scloseCancelSi r.guard (.ofNat 3 r.d) (.ofNat 6 (r.w1)))
      else if r.var == 2 then chk [(13, r.d < 8), (15, r.s1 == 0), (20, r.s2 == 0), (29, r.var == 2), (32, r.w1 < 8)] (.scloseQueueSi r.guard (.ofNat 3 r.d) (.ofNat 3 (r.w1)))
      else chk [(13, r.d < 8), (15, r.s1 == 0), (20, r.s2 == 0), (29, false)] (.nop))
      bad
  | 0x43 => byLen r (chk [(13, r.d < 8), (20, r.s2 == 0), (29, r.var == 0)] (.sbar r.guard (.ofNat 3 r.d) (.ofNat 5 r.s1)))
      (chk [(13, r.d < 8), (15, r.s1 == 0), (20, r.s2 == 0), (29, r.var == 0), (40, r.w1 < 256)] (.sbarSi r.guard (.ofNat 3 r.d) (.ofNat 8 (r.w1))))
      bad
  | 0x44 => byLen r (chk [(20, r.s2 == 0), (29, r.var == 0)] (.sstat r.guard (.ofNat 5 r.d) (.ofNat 5 r.s1)))
      (chk [(15, r.s1 == 0), (20, r.s2 == 0), (29, r.var == 0), (35, r.w1 / 8 % 32 < 11), (40, r.w1 < 256)] (.sstatSi r.guard (.ofNat 5 r.d) (.ofNat 3 (r.w1)) (.ofNat 5 (r.w1 / 8))))
      bad
  | 0x45 => byLen r (chk [(20, r.s2 == 0), (29, r.var == 0)] (.cpy r.guard (.ofNat 5 r.d) (.ofNat 5 r.s1)))
      (chk [(20, r.s2 == 0), (29, r.var == 0)] (.cpySi r.guard (.ofNat 5 r.d) (.ofNat 5 r.s1) (.ofNat 32 r.w1)))
      bad
  | 0x46 => byLen r (chk [(20, r.s2 == 0), (29, r.var == 0)] (.etbl r.guard (.ofNat 5 r.d) (.ofNat 5 r.s1)))
      (chk [(20, r.s2 == 0), (29, r.var == 0)] (.etblSi r.guard (.ofNat 5 r.d) (.ofNat 5 r.s1) (.ofNat 32 r.w1)))
      bad
  | 0x47 => byLen r (chk [(20, r.s2 == 0), (29, r.var == 0)] (.xpose r.guard (.ofNat 5 r.d) (.ofNat 5 r.s1)))
      (chk [(20, r.s2 == 0), (29, r.var == 0)] (.xposeSi r.guard (.ofNat 5 r.d) (.ofNat 5 r.s1) (.ofNat 32 r.w1)))
      bad
  | 0x48 => byLen r (chk [(20, r.s2 == 0), (29, r.var == 0)] (.gather r.guard (.ofNat 5 r.d) (.ofNat 5 r.s1)))
      (chk [(20, r.s2 == 0), (29, r.var == 0)] (.gatherSi r.guard (.ofNat 5 r.d) (.ofNat 5 r.s1) (.ofNat 32 r.w1)))
      bad
  | 0x49 => byLen r (chk [(20, r.s2 == 0), (29, r.var == 0)] (.scatter r.guard (.ofNat 5 r.d) (.ofNat 5 r.s1)))
      (chk [(20, r.s2 == 0), (29, r.var == 0)] (.scatterSi r.guard (.ofNat 5 r.d) (.ofNat 5 r.s1) (.ofNat 32 r.w1)))
      bad
  | 0x4A => byLen r (chk [(20, r.s2 == 0), (29, r.var == 0)] (.mcast r.guard (.ofNat 5 r.d) (.ofNat 5 r.s1)))
      (chk [(20, r.s2 == 0), (29, r.var == 0)] (.mcastSi r.guard (.ofNat 5 r.d) (.ofNat 5 r.s1) (.ofNat 32 r.w1)))
      bad
  | 0x4B => byLen r (chk [(29, r.var == 0)] (.pin r.guard (.ofNat 5 r.d) (.ofNat 5 r.s1) (.ofNat 5 r.s2)))
      (chk [(20, r.s2 == 0), (29, r.var == 0)] (.pinSi r.guard (.ofNat 5 r.d) (.ofNat 5 r.s1) (.ofNat 32 r.w1)))
      bad
  | 0x4C => byLen r (chk [(29, r.var == 0)] (.unpin r.guard (.ofNat 5 r.d) (.ofNat 5 r.s1) (.ofNat 5 r.s2)))
      (chk [(20, r.s2 == 0), (29, r.var == 0)] (.unpinSi r.guard (.ofNat 5 r.d) (.ofNat 5 r.s1) (.ofNat 32 r.w1)))
      bad
  | 0x4D => byLen r (chk [] (.pref r.guard (.ofNat 3 r.var) (.ofNat 5 r.d) (.ofNat 5 r.s1) (.ofNat 5 r.s2)))
      (chk [(20, r.s2 == 0)] (.prefSi r.guard (.ofNat 3 r.var) (.ofNat 5 r.d) (.ofNat 5 r.s1) (.ofNat 32 r.w1)))
      bad
  | 0x4E => byLen r (chk [] (.flush r.guard (.ofNat 3 r.var) (.ofNat 5 r.d) (.ofNat 5 r.s1) (.ofNat 5 r.s2)))
      (chk [(20, r.s2 == 0)] (.flushSi r.guard (.ofNat 3 r.var) (.ofNat 5 r.d) (.ofNat 5 r.s1) (.ofNat 32 r.w1)))
      bad
  | 0x4F => byLen r (chk [(20, r.s2 == 0), (29, r.var == 0)] (.chainw r.guard (.ofNat 5 r.d) (.ofNat 5 r.s1)))
      (chk [(20, r.s2 == 0), (29, r.var == 0)] (.chainwSi r.guard (.ofNat 5 r.d) (.ofNat 5 r.s1) (.ofNat 32 r.w1)))
      bad
  | 0x50 => byLen r (chk [(13, r.d < 8), (29, r.var == 0)] (.chaint r.guard (.ofNat 3 r.d) (.ofNat 5 r.s1) (.ofNat 5 r.s2)))
      (chk [(13, r.d < 8), (20, r.s2 == 0), (29, r.var == 0)] (.chaintSi r.guard (.ofNat 3 r.d) (.ofNat 5 r.s1) (.ofNat 32 r.w1)))
      bad
  | 0x51 => byLen r (chk [(29, r.var == 0)] (.qpush r.guard (.ofNat 5 r.d) (.ofNat 5 r.s1) (.ofNat 5 r.s2)))
      (chk [(15, r.s1 == 0), (29, r.var == 0), (45, r.w1 < 8192)] (.qpushSi r.guard (.ofNat 5 r.d) (.ofNat 5 r.s2) (.ofNat 13 (r.w1))))
      bad
  | 0x52 => byLen r (chk [(13, r.d < 8), (29, r.var == 0)] (.qpop r.guard (.ofNat 3 r.d) (.ofNat 5 r.s1) (.ofNat 5 r.s2)))
      (chk [(13, r.d < 8), (15, r.s1 == 0), (29, r.var == 0), (45, r.w1 < 8192)] (.qpopSi r.guard (.ofNat 3 r.d) (.ofNat 5 r.s2) (.ofNat 13 (r.w1))))
      bad
  | 0x53 => byLen r (chk [(13, r.d < 8), (20, r.s2 == 0), (29, 2 ≤ r.var && r.var ≤ 6)] (.qfence r.guard (scopeOf r.var) (.ofNat 3 r.d) (.ofNat 5 r.s1)))
      (chk [(13, r.d < 8), (15, r.s1 == 0), (20, r.s2 == 0), (29, 2 ≤ r.var && r.var ≤ 6), (40, r.w1 < 256)] (.qfenceSi r.guard (scopeOf r.var) (.ofNat 3 r.d) (.ofNat 8 (r.w1))))
      bad
  | 0x54 => byLen r (chk [(20, r.s2 == 0), (29, r.var ≤ 1)] (.qseq r.guard (r.var == 1) (.ofNat 5 r.d) (.ofNat 5 r.s1)))
      (chk [(15, r.s1 == 0), (20, r.s2 == 0), (29, r.var ≤ 1), (45, r.w1 < 8192)] (.qseqSi r.guard (r.var == 1) (.ofNat 5 r.d) (.ofNat 13 (r.w1))))
      bad
  | 0x55 => byLen r (chk [(13, r.d < 8), (29, r.var == 0)] (.barinit r.guard (.ofNat 3 r.d) (.ofNat 5 r.s1) (.ofNat 5 r.s2)))
      (chk [(13, r.d < 8), (20, r.s2 == 0), (29, r.var == 0)] (.barinitSi r.guard (.ofNat 3 r.d) (.ofNat 5 r.s1) (.ofNat 32 r.w1)))
      bad
  | 0x56 => byLen r (chk [(20, r.s2 == 0), (29, r.var == 0)] (.bararr r.guard (.ofNat 5 r.d) (.ofNat 5 r.s1)))
      (chk [(20, r.s2 == 0), (29, r.var == 0)] (.bararrSi r.guard (.ofNat 5 r.d) (.ofNat 5 r.s1) (.ofNat 32 r.w1)))
      bad
  | 0x57 => byLen r (chk [(13, r.d < 8), (29, r.var == 0)] (.bartest r.guard (.ofNat 3 r.d) (.ofNat 5 r.s1) (.ofNat 5 r.s2)))
      (chk [(13, r.d < 8), (20, r.s2 == 0), (29, r.var == 0)] (.bartestSi r.guard (.ofNat 3 r.d) (.ofNat 5 r.s1) (.ofNat 32 r.w1)))
      bad
  | 0x58 => byLen r (chk [(13, r.d < 8), (20, r.s2 == 0), (29, r.var == 0)] (.spawn r.guard (.ofNat 3 r.d) (.ofNat 5 r.s1)))
      (chk [(13, r.d < 8), (20, r.s2 == 0), (29, r.var == 0)] (.spawnSi r.guard (.ofNat 3 r.d) (.ofNat 5 r.s1) (.ofNat 32 r.w1)))
      bad
  | 0x59 => byLen r (chk [(29, r.var == 0)] (.vdecl r.guard (.ofNat 5 r.d) (.ofNat 5 r.s1) (.ofNat 5 r.s2)))
      (chk [(29, r.var == 0), (36, r.w1 < 16)] (.vdeclSi r.guard (.ofNat 5 r.d) (.ofNat 5 r.s1) (.ofNat 5 r.s2) (.ofNat 4 (r.w1))))
      bad
  | 0x5A => byLen r (if r.var == 0 then chk [(13, r.d < 8), (15, r.s1 == 0), (20, r.s2 == 0), (29, r.var == 0)] (.tend r.guard (.ofNat 3 r.d))
      else if r.var == 1 then chk [(13, r.d < 8), (20, r.s2 == 0), (29, r.var == 1)] (.tendChild r.guard (.ofNat 3 r.d) (.ofNat 5 r.s1))
      else chk [(13, r.d < 8), (20, r.s2 == 0), (29, false)] (.nop))
      bad
      bad
  | 0x5B => byLen r (if r.var == 0 then chk [(13, r.d < 8), (15, r.s1 == 0), (20, r.s2 == 0), (29, r.var == 0)] (.tsync r.guard (.ofNat 3 r.d))
      else if r.var == 1 then chk [(15, r.s1 == 0), (20, r.s2 == 0), (29, r.var == 1)] (.tsyncTake r.guard (.ofNat 5 r.d))
      else chk [(15, r.s1 == 0), (20, r.s2 == 0), (29, false)] (.nop))
      bad
      bad
  | 0x5C => byLen r (if r.var == 0 then chk [(13, r.d < 8), (20, r.s2 == 0), (29, r.var == 0)] (.tresume r.guard (.ofNat 3 r.d) (.ofNat 5 r.s1))
      else if r.var == 1 then chk [(13, r.d < 8), (20, r.s2 == 0), (29, r.var == 1)] (.tresumeSkip r.guard (.ofNat 3 r.d) (.ofNat 5 r.s1))
      else chk [(13, r.d < 8), (20, r.s2 == 0), (29, false)] (.nop))
      bad
      bad
  | 0x5D => byLen r (if r.var == 0 then chk [(15, r.s1 == 0), (29, r.var == 0)] (.tinfo r.guard (.ofNat 5 r.d) (.ofNat 5 r.s2))
      else if r.var == 1 then chk [(29, r.var == 1)] (.tinfoCh r.guard (.ofNat 5 r.d) (.ofNat 5 r.s1) (.ofNat 5 r.s2))
      else chk [(29, false)] (.nop))
      (if r.var == 0 then chk [(15, r.s1 == 0), (20, r.s2 == 0), (29, r.var == 0), (32, r.w1 / 1 % 32 < 12), (41, r.w1 < 512)] (.tinfoSi r.guard (.ofNat 5 r.d) (.ofNat 5 (r.w1)) (.ofNat 4 (r.w1 / 32)))
      else if r.var == 1 then chk [(20, r.s2 == 0), (29, r.var == 1), (32, r.w1 / 1 % 32 < 12), (41, r.w1 < 512)] (.tinfoChSi r.guard (.ofNat 5 r.d) (.ofNat 5 r.s1) (.ofNat 5 (r.w1)) (.ofNat 4 (r.w1 / 32)))
      else chk [(20, r.s2 == 0), (29, false), (32, r.w1 / 1 % 32 < 12), (41, r.w1 < 512)] (.nop))
      bad
  | 0x60 => byLen r (chk [(20, r.s2 == 0), (29, r.var == 0)] (.eload r.guard (.ofNat 5 r.d) (.ofNat 5 r.s1)))
      (chk [(20, r.s2 == 0), (29, r.var == 0)] (.eloadSi r.guard (.ofNat 5 r.d) (.ofNat 5 r.s1) (.ofNat 32 r.w1)))
      bad
  | 0x61 => byLen r (chk [(20, r.s2 == 0), (29, r.var == 0)] (.ewire r.guard (.ofNat 5 r.d) (.ofNat 5 r.s1)))
      (chk [(20, r.s2 == 0), (29, r.var == 0)] (.ewireSi r.guard (.ofNat 5 r.d) (.ofNat 5 r.s1) (.ofNat 32 r.w1)))
      bad
  | 0x62 => byLen r (chk [(20, r.s2 == 0), (29, r.var == 0)] (.esel r.guard (.ofNat 5 r.d) (.ofNat 5 r.s1)))
      (chk [(15, r.s1 == 0), (20, r.s2 == 0), (29, r.var == 0), (36, r.w1 < 16)] (.eselSi r.guard (.ofNat 5 r.d) (.ofNat 2 (r.w1)) (.ofNat 2 (r.w1 / 4))))
      bad
  | 0x63 => byLen r (chk [(20, r.s2 == 0), (29, r.var == 0)] (.ethr r.guard (.ofNat 5 r.d) (.ofNat 5 r.s1)))
      (chk [(20, r.s2 == 0), (29, r.var == 0)] (.ethrSi r.guard (.ofNat 5 r.d) (.ofNat 5 r.s1) (.ofNat 32 r.w1)))
      bad
  | 0x64 => byLen r (chk [(20, r.s2 == 0), (29, r.var == 0)] (.exf r.guard (.ofNat 5 r.d) (.ofNat 5 r.s1)))
      (chk [(20, r.s2 == 0), (29, r.var == 0)] (.exfSi r.guard (.ofNat 5 r.d) (.ofNat 5 r.s1) (.ofNat 32 r.w1)))
      bad
  | 0x65 => byLen r (chk [(29, r.var == 0)] (.eeval r.guard (.ofNat 5 r.d) (.ofNat 5 r.s1) (.ofNat 5 r.s2)))
      (chk [(15, r.s1 == 0), (20, r.s2 == 0), (29, r.var == 0), (56, r.w1 < 16777216)] (.eevalSi r.guard (.ofNat 5 r.d) (.ofNat 12 (r.w1)) (.ofNat 12 (r.w1 / 4096))))
      bad
  | 0x66 => byLen r (chk [(20, r.s2 == 0), (29, r.var == 0)] (.epop r.guard (.ofNat 5 r.d) (.ofNat 5 r.s1)))
      (chk [(20, r.s2 == 0), (29, r.var == 0)] (.epopSi r.guard (.ofNat 5 r.d) (.ofNat 5 r.s1) (.ofNat 32 r.w1)))
      bad
  | 0x67 => byLen r (chk [(20, r.s2 == 0), (29, r.var == 0)] (.exb r.guard (.ofNat 5 r.d) (.ofNat 5 r.s1)))
      (chk [(20, r.s2 == 0), (29, r.var == 0)] (.exbSi r.guard (.ofNat 5 r.d) (.ofNat 5 r.s1) (.ofNat 32 r.w1)))
      bad
  | _ => .error .reservedOp

/-! ### Node forms (R96 to R98) -/

/-- The fields of an encoded node. -/
structure NRaw where
  op : Nat
  len : Nat
  t : Nat
  c1 : Nat
  c2 : Nat
  k : Nat
  fmt : Nat
  den : Nat
  xc : Nat
  c3 : Nat
  c4 : Nat
  lit : Nat
  deriving DecidableEq, Repr

def NRaw.ofWords (w0 w1 w2 : Nat) : NRaw :=
  { op := w0 / 4 % 256, len := w0 % 4, t := w0 / 1024 % 4, c1 := w0 / 4096 % 512
    c2 := w0 / 2097152 % 512, k := w0 / 1073741824 % 4
    fmt := w1 % 256, den := w1 / 256 % 16, xc := w1 / 4096 % 4, c3 := w1 / 16384 % 512
    c4 := w1 / 8388608 % 512, lit := w2 }

def NRaw.word0 (n : NRaw) : Nat :=
  n.len + 4 * n.op + 1024 * n.t + 4096 * n.c1 + 2097152 * n.c2 + 1073741824 * n.k
def NRaw.word1 (n : NRaw) : Nat :=
  n.fmt + 256 * n.den + 4096 * n.xc + 16384 * n.c3 + 8388608 * n.c4

/-- Code 3 of R111 for the first word: NC is not 3, unused consumer fields are zero, and TC is zero
where the form asks for it. -/
def NRaw.fields1 (n : NRaw) : List (Nat × Bool) :=
  [(10, n.len == 0 || n.t == 0), (12, 1 ≤ n.k || n.c1 == 0), (21, 2 ≤ n.k || n.c2 == 0), (30, n.k ≤ 2)]
/-- ... and for the extension word. -/
def NRaw.fields2 (n : NRaw) : List (Nat × Bool) :=
  [(44, n.xc ≤ 2), (46, 1 ≤ n.xc || n.c3 == 0), (55, 2 ≤ n.xc || n.c4 == 0)]
/-- Code 4 of R111: a delay bit on an unused consumer, or XC without NC = 2. -/
def NRaw.consumersOk (n : NRaw) : Bool :=
  (n.xc == 0 || n.k == 2) && (1 ≤ n.k || n.den % 2 == 0) && (2 ≤ n.k || n.den / 2 % 2 == 0)
    && (1 ≤ n.xc || n.den / 4 % 2 == 0) && (2 ≤ n.xc || n.den / 8 % 2 == 0)

def NRaw.toN32 (n : NRaw) : N32 :=
  { k := .ofNat 2 n.k, c1 := .ofNat 9 n.c1, c2 := .ofNat 9 n.c2, t := .ofNat 2 n.t }
def NRaw.toN64 (n : NRaw) : N64 :=
  { k := .ofNat 2 n.k, c1 := .ofNat 9 n.c1, c2 := .ofNat 9 n.c2, fmt := .ofNat 8 n.fmt
    den := .ofNat 4 n.den, xc := .ofNat 2 n.xc, c3 := .ofNat 9 n.c3, c4 := .ofNat 9 n.c4 }
def NRaw.toN96 (n : NRaw) : N96 :=
  { k := .ofNat 2 n.k, c1 := .ofNat 9 n.c1, c2 := .ofNat 9 n.c2, fmt := .ofNat 8 n.fmt
    den := .ofNat 4 n.den, xc := .ofNat 2 n.xc, c3 := .ofNat 9 n.c3, c4 := .ofNat 9 n.c4
    lit := .ofNat 32 n.lit }

def NRaw.n32 (n : NRaw) (f : N32 → Instr) : Except DecErr Instr := chk n.fields1 (f n.toN32)
/-- A row whose format is fixed, so TC is (R96, R192). -/
def NRaw.n32t (n : NRaw) (t : Nat) (f : N32 → Instr) : Except DecErr Instr :=
  chk ((10, n.t == t) :: n.fields1) (f n.toN32)
/-- A row that has no consumers (R192, R214). -/
def NRaw.n32c (n : NRaw) (f : N32 → Instr) : Except DecErr Instr :=
  chk (n.fields1 ++ [(30, n.k == 0)]) (f n.toN32)
def NRaw.ext (n : NRaw) (i : Instr) : Except DecErr Instr :=
  match chk (n.fields1 ++ n.fields2) i with
  | .ok i => if n.consumersOk then .ok i else .error .consumer
  | .error e => .error e
def NRaw.n64 (n : NRaw) (f : N64 → Instr) : Except DecErr Instr := n.ext (f n.toN64)
def NRaw.n96 (n : NRaw) (f : N96 → Instr) : Except DecErr Instr := n.ext (f n.toN96)
def NRaw.byForm (n : NRaw) (a b c : Except DecErr Instr) : Except DecErr Instr :=
  if n.len == 0 then a else if n.len == 1 then b else if n.len == 2 then c else bad

/-- The node and fibre node rows of the forms table (R99). -/
noncomputable def decodeNode (n : NRaw) : Except DecErr Instr :=
  match n.op with
  | 0x80 => n.byForm (n.n32 .ingr) (n.n64 .ingrN64) (n.n96 .ingrN96)
  | 0x81 => n.byForm (n.n32c .egr) (n.n64 .egrN64) (n.n96 .egrN96)
  | 0x82 => n.byForm (n.n32 .cst) (n.n64 .cstN64) (n.n96 .cstN96)
  | 0x83 => n.byForm (n.n32 .addNode) (n.n64 .addNodeN64) (n.n96 .addNodeN96)
  | 0x84 => n.byForm (n.n32 .subNode) (n.n64 .subNodeN64) (n.n96 .subNodeN96)
  | 0x85 => n.byForm (n.n32 .mulNode) (n.n64 .mulNodeN64) (n.n96 .mulNodeN96)
  | 0x86 => n.byForm (n.n32 .mad) (n.n64 .madN64) (n.n96 .madN96)
  | 0x87 => n.byForm (n.n32 .minNode) (n.n64 .minNodeN64) (n.n96 .minNodeN96)
  | 0x88 => n.byForm (n.n32 .maxNode) (n.n64 .maxNodeN64) (n.n96 .maxNodeN96)
  | 0x89 => n.byForm (n.n32 .absNode) (n.n64 .absNodeN64) (n.n96 .absNodeN96)
  | 0x8A => n.byForm (n.n32 .andNode) (n.n64 .andNodeN64) (n.n96 .andNodeN96)
  | 0x8B => n.byForm (n.n32 .orNode) (n.n64 .orNodeN64) (n.n96 .orNodeN96)
  | 0x8C => n.byForm (n.n32 .xorNode) (n.n64 .xorNodeN64) (n.n96 .xorNodeN96)
  | 0x8D => n.byForm (n.n32 .shlNode) (n.n64 .shlNodeN64) (n.n96 .shlNodeN96)
  | 0x8E => n.byForm (n.n32 .shrNode) (n.n64 .shrNodeN64) (n.n96 .shrNodeN96)
  | 0x8F => n.byForm (n.n32 .sarNode) (n.n64 .sarNodeN64) (n.n96 .sarNodeN96)
  | 0x90 => n.byForm (n.n32t 0 .cmpNode) (n.n64 .cmpNodeN64) (n.n96 .cmpNodeN96)
  | 0x91 => n.byForm (n.n32 .selNode) (n.n64 .selNodeN64) (n.n96 .selNodeN96)
  | 0x92 => n.byForm (n.n32 .cvt) (n.n64 .cvtN64) (n.n96 .cvtN96)
  | 0x93 => n.byForm (n.n32 .fadd) (n.n64 .faddN64) (n.n96 .faddN96)
  | 0x94 => n.byForm (n.n32 .fmul) (n.n64 .fmulN64) (n.n96 .fmulN96)
  | 0x95 => n.byForm (n.n32 .fma) (n.n64 .fmaN64) (n.n96 .fmaN96)
  | 0x96 => n.byForm (n.n32 .fmin) (n.n64 .fminN64) (n.n96 .fminN96)
  | 0x97 => n.byForm (n.n32 .fmax) (n.n64 .fmaxN64) (n.n96 .fmaxN96)
  | 0x98 => n.byForm (n.n32t 0 .fcmp) (n.n64 .fcmpN64) (n.n96 .fcmpN96)
  | 0x99 => n.byForm (n.n32t 3 .frcp) (n.n64 .frcpN64) (n.n96 .frcpN96)
  | 0x9A => n.byForm (n.n32t 3 .frsq) (n.n64 .frsqN64) (n.n96 .frsqN96)
  | 0x9B => n.byForm (n.n32t 3 .fexp2) (n.n64 .fexp2N64) (n.n96 .fexp2N96)
  | 0x9C => n.byForm (n.n32t 3 .flog2) (n.n64 .flog2N64) (n.n96 .flog2N96)
  | 0x9D => n.byForm (n.n32t 0 .unpk3) (n.n64 .unpk3N64) (n.n96 .unpk3N96)
  | 0x9E => n.byForm bad (n.n64 .bmandN64) (n.n96 .bmandN96)
  | 0x9F => n.byForm (n.n32t 2 .pfxpop) (n.n64 .pfxpopN64) (n.n96 .pfxpopN96)
  | 0xA0 => n.byForm (n.n32 .six) (n.n64 .sixN64) (n.n96 .sixN96)
  | 0xA1 => n.byForm (n.n32 .sun) (n.n64 .sunN64) (n.n96 .sunN96)
  | 0xA2 => n.byForm (n.n32 .topk) (n.n64 .topkN64) (n.n96 .topkN96)
  | 0xA3 => n.byForm (n.n32 .mm) (n.n64 .mmN64) (n.n96 .mmN96)
  | 0xA4 => n.byForm (n.n32t 0 .mmpl) (n.n64 .mmplN64) (n.n96 .mmplN96)
  | 0xA5 => n.byForm (n.n32c .acc) (n.n64 .accN64) (n.n96 .accN96)
  | 0xA6 => n.byForm (n.n32 .drain) (n.n64 .drainN64) (n.n96 .drainN96)
  | 0xA7 => n.byForm (n.n32 .cnt) (n.n64 .cntN64) (n.n96 .cntN96)
  | 0xA8 => n.byForm (n.n32 .agen) (n.n64 .agenN64) (n.n96 .agenN96)
  | 0xA9 => n.byForm (n.n32 .join) (n.n64 .joinN64) (n.n96 .joinN96)
  | 0xAA => n.byForm (n.n32 .split) (n.n64 .splitN64) (n.n96 .splitN96)
  | 0xAB => n.byForm (n.n32 .merge) (n.n64 .mergeN64) (n.n96 .mergeN96)
  | 0xAC => n.byForm (n.n32 .steer) (n.n64 .steerN64) (n.n96 .steerN96)
  | 0xAD => n.byForm (n.n32 .bartok) (n.n64 .bartokN64) (n.n96 .bartokN96)
  | 0xAE => n.byForm (n.n32 .ldn) (n.n64 .ldnN64) (n.n96 .ldnN96)
  | 0xAF => n.byForm (n.n32 .stn) (n.n64 .stnN64) (n.n96 .stnN96)
  | 0xB0 => n.byForm (n.n32 .atomNode) (n.n64 .atomNodeN64) (n.n96 .atomNodeN96)
  | 0xB1 => n.byForm (n.n32 .acqn) (n.n64 .acqnN64) (n.n96 .acqnN96)
  | 0xB2 => n.byForm bad (n.n64 .relnN64) (n.n96 .relnN96)
  | 0xB3 => n.byForm (n.n32 .wcvt) (n.n64 .wcvtN64) (n.n96 .wcvtN96)
  | 0xB4 => n.byForm (n.n32 .mstore) (n.n64 .mstoreN64) (n.n96 .mstoreN96)
  | 0xB5 => n.byForm (n.n32t 3 .pivdiv) (n.n64 .pivdivN64) (n.n96 .pivdivN96)
  | 0xB6 => n.byForm (n.n32t 3 .resid) (n.n64 .residN64) (n.n96 .residN96)
  | 0xB7 => n.byForm (n.n32 .shuf) (n.n64 .shufN64) (n.n96 .shufN96)
  | 0xB8 => n.byForm (n.n32 .fmerge) (n.n64 .fmergeN64) (n.n96 .fmergeN96)
  | 0xB9 => n.byForm (n.n32 .fins) (n.n64 .finsN64) (n.n96 .finsN96)
  | 0xBA => n.byForm (n.n32 .fscan) (n.n64 .fscanN64) (n.n96 .fscanN96)
  | 0xBB => n.byForm (n.n32 .fprobe) (n.n64 .fprobeN64) (n.n96 .fprobeN96)
  | 0xBC => n.byForm (n.n32 .finter) (n.n64 .finterN64) (n.n96 .finterN96)
  | 0xBD => n.byForm bad (n.n64 .fcountN64) (n.n96 .fcountN96)
  | 0xBE => n.byForm bad (n.n64 .fclearN64) (n.n96 .fclearN96)
  | 0xBF => n.byForm bad (n.n64 .fcompactN64) (n.n96 .fcompactN96)
  | 0xC0 => n.byForm (n.n32 .ftopk) (n.n64 .ftopkN64) (n.n96 .ftopkN96)
  | 0xC1 => n.byForm bad (n.n64 .fstatN64) (n.n96 .fstatN96)
  | _ => .error .reservedOp

/-! ### Words and bytes -/

/-- An instruction from its words, the later ones zero where the form has none (R83, R100). -/
noncomputable def decodeWords (w0 w1 w2 : Nat) : Except DecErr Instr :=
  if w0 % 4 == 3 then .error (.header (w0 / 4 % 16))
  else match opClass (w0 / 4 % 256) with
    | .reserved => .error .reservedOp
    | .node | .fibre => decodeNode (.ofWords w0 w1 w2)
    | _ => decodeSeq (.ofWords w0 w1 w2)

/-- Four bytes, least significant first, as a word (R83). -/
def leWord (a b c d : Byte) : Nat :=
  a.toNat + 256 * b.toNat + 65536 * c.toNat + 16777216 * d.toNat

/-- The bytes of a word, least significant first (R83). -/
def wordBytes (w : Nat) : List Byte :=
  [.ofNat 8 w, .ofNat 8 (w / 256), .ofNat 8 (w / 65536), .ofNat 8 (w / 16777216)]

/-- Decoding any bytes: the instruction at their start and the bytes after it, or why there is none. -/
noncomputable def decode : List Byte → Except DecErr (Instr × List Byte)
  | a :: b :: c :: d :: r =>
    let w0 := leWord a b c d
    if w0 % 4 == 0 || w0 % 4 == 3 then (decodeWords w0 0 0).map (·, r)
    else match r with
      | e :: f :: g :: h :: r =>
        let w1 := leWord e f g h
        if w0 % 4 == 1 then (decodeWords w0 w1 0).map (·, r)
        else match r with
          | i :: j :: k :: l :: r => (decodeWords w0 w1 (leWord i j k l)).map (·, r)
          | _ => .error .short
      | _ => .error .short
  | _ => .error .short

/-! ### The encoder -/

def noGuard : Guard := { p := 0, neg := false }
def rawOf (op len : Nat) (g : Guard) (d s1 s2 var w1 w2 : Nat) : Raw :=
  { op := op, len := len, d := d, s1 := s1, s2 := s2, gp := g.p.toNat, gs := g.neg.toNat
    var := var, w1 := w1, w2 := w2 }
/-- B, X and the second word of form SM (R88). -/
def memS1 : MemRef → Nat
  | .base b _ => b.toNat | .index b _ _ => b.toNat | .pcRel _ => 0
def memS2 : MemRef → Nat
  | .base _ _ => 0 | .index _ x _ => x.toNat | .pcRel _ => 0
def memW : MemRef → Nat
  | .base _ d => d.toNat
  | .index _ _ sc => 1073741824 + 268435456 * sc.toNat
  | .pcRel d => 2147483648 + d.toNat
def nraw32 (op : Nat) (x : N32) : NRaw :=
  { op := op, len := 0, t := x.t.toNat, c1 := x.c1.toNat, c2 := x.c2.toNat, k := x.k.toNat
    fmt := 0, den := 0, xc := 0, c3 := 0, c4 := 0, lit := 0 }
def nraw64 (op : Nat) (x : N64) : NRaw :=
  { op := op, len := 1, t := 0, c1 := x.c1.toNat, c2 := x.c2.toNat, k := x.k.toNat
    fmt := x.fmt.toNat, den := x.den.toNat, xc := x.xc.toNat, c3 := x.c3.toNat, c4 := x.c4.toNat
    lit := 0 }
def nraw96 (op : Nat) (x : N96) : NRaw :=
  { op := op, len := 2, t := 0, c1 := x.c1.toNat, c2 := x.c2.toNat, k := x.k.toNat
    fmt := x.fmt.toNat, den := x.den.toNat, xc := x.xc.toNat, c3 := x.c3.toNat, c4 := x.c4.toNat
    lit := x.lit.toNat }

/-- The fields of an encoded instruction. -/
inductive Enc where
  | seq (r : Raw)
  | node (n : NRaw)
  deriving DecidableEq, Repr

/-- The fields of an instruction; a machine event or a message has no encoding. -/
def encodeFields : Instr → Option Enc
  | .add g d a b => some (.seq (rawOf 1 0 g d.toNat a.toNat b.toNat 0 0 0))
  | .addSi g d a imm => some (.seq (rawOf 1 1 g d.toNat a.toNat 0 0 imm.toNat 0))
  | .sub g d a b => some (.seq (rawOf 2 0 g d.toNat a.toNat b.toNat 0 0 0))
  | .subSi g d a imm => some (.seq (rawOf 2 1 g d.toNat a.toNat 0 0 imm.toNat 0))
  | .mul g d a b => some (.seq (rawOf 3 0 g d.toNat a.toNat b.toNat 0 0 0))
  | .mulSi g d a imm => some (.seq (rawOf 3 1 g d.toNat a.toNat 0 0 imm.toNat 0))
  | .andR g d a b => some (.seq (rawOf 7 0 g d.toNat a.toNat b.toNat 0 0 0))
  | .andSi g d a imm => some (.seq (rawOf 7 1 g d.toNat a.toNat 0 0 imm.toNat 0))
  | .orR g d a b => some (.seq (rawOf 8 0 g d.toNat a.toNat b.toNat 0 0 0))
  | .orSi g d a imm => some (.seq (rawOf 8 1 g d.toNat a.toNat 0 0 imm.toNat 0))
  | .xorR g d a b => some (.seq (rawOf 9 0 g d.toNat a.toNat b.toNat 0 0 0))
  | .xorSi g d a imm => some (.seq (rawOf 9 1 g d.toNat a.toNat 0 0 imm.toNat 0))
  | .andn g d a b => some (.seq (rawOf 10 0 g d.toNat a.toNat b.toNat 0 0 0))
  | .andnSi g d a imm => some (.seq (rawOf 10 1 g d.toNat a.toNat 0 0 imm.toNat 0))
  | .shl g d a b => some (.seq (rawOf 11 0 g d.toNat a.toNat b.toNat 0 0 0))
  | .shlSi g d a imm => some (.seq (rawOf 11 1 g d.toNat a.toNat 0 0 imm.toNat 0))
  | .shr g d a b => some (.seq (rawOf 12 0 g d.toNat a.toNat b.toNat 0 0 0))
  | .shrSi g d a imm => some (.seq (rawOf 12 1 g d.toNat a.toNat 0 0 imm.toNat 0))
  | .sar g d a b => some (.seq (rawOf 13 0 g d.toNat a.toNat b.toNat 0 0 0))
  | .sarSi g d a imm => some (.seq (rawOf 13 1 g d.toNat a.toNat 0 0 imm.toNat 0))
  | .rot g d a b => some (.seq (rawOf 14 0 g d.toNat a.toNat b.toNat 0 0 0))
  | .rotSi g d a imm => some (.seq (rawOf 14 1 g d.toNat a.toNat 0 0 imm.toNat 0))
  | .mulh g u d a b => some (.seq (rawOf 4 0 g d.toNat a.toNat b.toNat u.toNat 0 0))
  | .mulhSi g u d a imm => some (.seq (rawOf 4 1 g d.toNat a.toNat 0 u.toNat imm.toNat 0))
  | .div g u d a b => some (.seq (rawOf 5 0 g d.toNat a.toNat b.toNat u.toNat 0 0))
  | .divSi g u d a imm => some (.seq (rawOf 5 1 g d.toNat a.toNat 0 u.toNat imm.toNat 0))
  | .rem g u d a b => some (.seq (rawOf 6 0 g d.toNat a.toNat b.toNat u.toNat 0 0))
  | .remSi g u d a imm => some (.seq (rawOf 6 1 g d.toNat a.toNat 0 u.toNat imm.toNat 0))
  | .min g u d a b => some (.seq (rawOf 15 0 g d.toNat a.toNat b.toNat u.toNat 0 0))
  | .minSi g u d a imm => some (.seq (rawOf 15 1 g d.toNat a.toNat 0 u.toNat imm.toNat 0))
  | .max g u d a b => some (.seq (rawOf 16 0 g d.toNat a.toNat b.toNat u.toNat 0 0))
  | .maxSi g u d a imm => some (.seq (rawOf 16 1 g d.toNat a.toNat 0 u.toNat imm.toNat 0))
  | .ext g u d a b => some (.seq (rawOf 19 0 g d.toNat a.toNat b.toNat u.toNat 0 0))
  | .extSi g u d a imm => some (.seq (rawOf 19 1 g d.toNat a.toNat 0 u.toNat imm.toNat 0))
  | .nop => some (.seq (rawOf 0 0 noGuard 0 0 0 0 0 0))
  | .clz g d a => some (.seq (rawOf 17 0 g d.toNat a.toNat 0 0 0 0))
  | .popc g d a => some (.seq (rawOf 18 0 g d.toNat a.toNat 0 0 0 0))
  | .bitf g ins sgn d a lsb wm1 => some (.seq (rawOf 54 1 g d.toNat a.toNat 0 0 (lsb.toNat + 64 * wm1.toNat + 4096 * ins.toNat + 8192 * sgn.toNat) 0))
  | .cmp g c p a b => some (.seq (rawOf 20 0 g (p.toNat + condCode c / 8 * 8) a.toNat b.toNat (condCode c % 8) 0 0))
  | .cmpSi g c p a imm => some (.seq (rawOf 20 1 g (p.toNat + condCode c / 8 * 8) a.toNat 0 (condCode c % 8) imm.toNat 0))
  | .plog g d a b table => some (.seq (rawOf 21 1 g d.toNat a.toNat b.toNat 0 table.toNat 0))
  | .sel g q d a b => some (.seq (rawOf 22 0 g d.toNat a.toNat b.toNat q.toNat 0 0))
  | .movGG g d a => some (.seq (rawOf 23 0 g d.toNat a.toNat 0 0 0 0))
  | .movGP g d a => some (.seq (rawOf 23 0 g d.toNat a.toNat 0 1 0 0))
  | .movPG g d a => some (.seq (rawOf 23 0 g d.toNat a.toNat 0 2 0 0))
  | .movPP g d a => some (.seq (rawOf 23 0 g d.toNat a.toNat 0 3 0 0))
  | .litSi g d imm => some (.seq (rawOf 24 1 g d.toNat 0 0 0 imm.toNat 0))
  | .litSl g d imm lit => some (.seq (rawOf 24 2 g d.toNat 0 0 0 imm.toNat lit.toNat))
  | .lea g d m => some (.seq (rawOf 53 1 g d.toNat (memS1 m) (memS2 m) 0 (memW m) 0))
  | .ld g ty d m => some (.seq (rawOf 25 1 g d.toNat (memS1 m) (memS2 m) (tyCode ty) (memW m) 0))
  | .st g ty d m => some (.seq (rawOf 26 1 g d.toNat (memS1 m) (memS2 m) (tyCode ty) (memW m) 0))
  | .amo g op ty d a b disp => some (.seq (rawOf 27 1 g d.toNat a.toNat b.toNat (tyCode ty) (disp.toNat + 16777216 * aopCode op) 0))
  | .fence g sc => some (.seq (rawOf 28 0 g 0 0 0 (scopeCode sc) 0 0))
  | .br g off => some (.seq (rawOf 29 0 g (off.toNat % 32) (off.toNat / 32 % 32) (off.toNat / 1024) 0 0 0))
  | .brSbl g off => some (.seq (rawOf 29 1 g 0 0 0 0 off.toNat 0))
  | .jmp g a => some (.seq (rawOf 30 0 g 0 a.toNat 0 0 0 0))
  | .jmpSbl g off => some (.seq (rawOf 30 1 g 0 0 0 0 off.toNat 0))
  | .call g d a => some (.seq (rawOf 31 0 g d.toNat a.toNat 0 0 0 0))
  | .callSbl g d off => some (.seq (rawOf 31 1 g d.toNat 0 0 0 off.toNat 0))
  | .ret g a => some (.seq (rawOf 32 0 g 0 a.toNat 0 0 0 0))
  | .loop g d off => some (.seq (rawOf 33 1 g d.toNat 0 0 0 off.toNat 0))
  | .monarm g a => some (.seq (rawOf 34 0 g 0 a.toNat 0 0 0 0))
  | .monarmClr g => some (.seq (rawOf 34 0 g 0 0 0 1 0 0))
  | .sleep g p a => some (.seq (rawOf 35 0 g p.toNat a.toNat 0 0 0 0))
  | .sleepSi g p imm => some (.seq (rawOf 35 1 g p.toNat 0 0 0 imm.toNat 0))
  | .sleepExpiry _ _ => none
  | .testseq g p a b => some (.seq (rawOf 36 0 g p.toNat a.toNat b.toNat 0 0 0))
  | .testseqSi g p a b imm => some (.seq (rawOf 36 1 g p.toNat a.toNat b.toNat 0 imm.toNat 0))
  | .cfg g d a => some (.seq (rawOf 37 0 g d.toNat a.toNat 0 0 0 0))
  | .cfgSi g d a imm => some (.seq (rawOf 37 1 g d.toNat a.toNat 0 0 imm.toNat 0))
  | .cfgList g d a => some (.seq (rawOf 37 0 g d.toNat a.toNat 0 1 0 0))
  | .cfgListSi g d a imm => some (.seq (rawOf 37 1 g d.toNat a.toNat 0 1 imm.toNat 0))
  | .cfgstep g d => some (.seq (rawOf 38 0 g d.toNat 0 0 0 0 0))
  | .cfgstepSi g d imm => some (.seq (rawOf 38 1 g d.toNat 0 0 0 imm.toNat 0))
  | .run g p a => some (.seq (rawOf 39 0 g p.toNat a.toNat 0 0 0 0))
  | .runSi g p imm => some (.seq (rawOf 39 1 g p.toNat 0 0 0 imm.toNat 0))
  | .bound g p a b => some (.seq (rawOf 40 0 g p.toNat a.toNat b.toNat 0 0 0))
  | .boundSi g p b node blk => some (.seq (rawOf 40 1 g p.toNat 0 b.toNat 0 (node.toNat + blk.toNat * 128) 0))
  | .accrst g n => some (.seq (rawOf 41 0 g n.toNat 0 0 0 0 0))
  | .accrstSi g n imm => some (.seq (rawOf 41 1 g n.toNat 0 0 0 imm.toNat 0))
  | .accrd g part d n => some (.seq (rawOf 42 0 g d.toNat n.toNat 0 part.toNat 0 0))
  | .accrdSi g part d n => some (.seq (rawOf 42 1 g d.toNat 0 0 part.toNat n.toNat 0))
  | .portw g eos p a b => some (.seq (rawOf 43 0 g p.toNat a.toNat b.toNat eos.toNat 0 0))
  | .portwSi g eos p a port => some (.seq (rawOf 43 1 g p.toNat a.toNat 0 eos.toNat port.toNat 0))
  | .portr g f d a => some (.seq (rawOf 44 0 g d.toNat a.toNat 0 f.toNat 0 0))
  | .portrSi g f d port => some (.seq (rawOf 44 1 g d.toNat 0 0 f.toNat port.toNat 0))
  | .trap g imm => some (.seq (rawOf 45 1 g 0 0 0 0 imm.toNat 0))
  | .rett g => some (.seq (rawOf 46 0 g 0 0 0 0 0 0))
  | .rettNext g => some (.seq (rawOf 46 0 g 0 0 0 1 0 0))
  | .csrr g d n => some (.seq (rawOf 47 1 g d.toNat 0 0 0 (csrCode n) 0))
  | .csrw g a n => some (.seq (rawOf 48 1 g 0 a.toNat 0 0 (csrCode n) 0))
  | .csrx g d a n lsb wm1 => some (.seq (rawOf 55 1 g d.toNat a.toNat 0 0 (csrCode n + 4096 * lsb.toNat + 262144 * wm1.toNat) 0))
  | .halt => some (.seq (rawOf 49 0 noGuard 0 0 0 0 0 0))
  | .snap g a => some (.seq (rawOf 50 0 g 0 a.toNat 0 0 0 0))
  | .budget g a => some (.seq (rawOf 51 0 g 0 a.toNat 0 0 0 0))
  | .budgetSi g imm => some (.seq (rawOf 51 1 g 0 0 0 0 imm.toNat 0))
  | .budgetTest g p => some (.seq (rawOf 51 0 g p.toNat 0 0 1 0 0))
  | .budgetTestSi g p => some (.seq (rawOf 51 1 g p.toNat 0 0 1 0 0))
  | .budgetExpire _ _ => none
  | .best g p a b => some (.seq (rawOf 52 0 g p.toNat a.toNat b.toNat 0 0 0))
  | .bestSi g p a imm => some (.seq (rawOf 52 1 g p.toNat a.toNat 0 0 imm.toNat 0))
  | .bestClr g p => some (.seq (rawOf 52 0 g p.toNat 0 0 1 0 0))
  | .bestClrSi g p => some (.seq (rawOf 52 1 g p.toNat 0 0 1 0 0))
  | .fetchFault _ => none
  | .sload g d a => some (.seq (rawOf 64 0 g d.toNat a.toNat 0 0 0 0))
  | .sloadSi g d a imm => some (.seq (rawOf 64 1 g d.toNat a.toNat 0 0 imm.toNat 0))
  | .sstore g d a => some (.seq (rawOf 65 0 g d.toNat a.toNat 0 0 0 0))
  | .sstoreSi g d a imm => some (.seq (rawOf 65 1 g d.toNat a.toNat 0 0 imm.toNat 0))
  | .cpy g d a => some (.seq (rawOf 69 0 g d.toNat a.toNat 0 0 0 0))
  | .cpySi g d a imm => some (.seq (rawOf 69 1 g d.toNat a.toNat 0 0 imm.toNat 0))
  | .etbl g d a => some (.seq (rawOf 70 0 g d.toNat a.toNat 0 0 0 0))
  | .etblSi g d a imm => some (.seq (rawOf 70 1 g d.toNat a.toNat 0 0 imm.toNat 0))
  | .xpose g d a => some (.seq (rawOf 71 0 g d.toNat a.toNat 0 0 0 0))
  | .xposeSi g d a imm => some (.seq (rawOf 71 1 g d.toNat a.toNat 0 0 imm.toNat 0))
  | .gather g d a => some (.seq (rawOf 72 0 g d.toNat a.toNat 0 0 0 0))
  | .gatherSi g d a imm => some (.seq (rawOf 72 1 g d.toNat a.toNat 0 0 imm.toNat 0))
  | .scatter g d a => some (.seq (rawOf 73 0 g d.toNat a.toNat 0 0 0 0))
  | .scatterSi g d a imm => some (.seq (rawOf 73 1 g d.toNat a.toNat 0 0 imm.toNat 0))
  | .mcast g d a => some (.seq (rawOf 74 0 g d.toNat a.toNat 0 0 0 0))
  | .mcastSi g d a imm => some (.seq (rawOf 74 1 g d.toNat a.toNat 0 0 imm.toNat 0))
  | .chainw g d a => some (.seq (rawOf 79 0 g d.toNat a.toNat 0 0 0 0))
  | .chainwSi g d a imm => some (.seq (rawOf 79 1 g d.toNat a.toNat 0 0 imm.toNat 0))
  | .sclose g p a => some (.seq (rawOf 66 0 g p.toNat a.toNat 0 0 0 0))
  | .scloseSi g p n => some (.seq (rawOf 66 1 g p.toNat 0 0 0 n.toNat 0))
  | .scloseCancel g p a => some (.seq (rawOf 66 0 g p.toNat a.toNat 0 1 0 0))
  | .scloseCancelSi g p n => some (.seq (rawOf 66 1 g p.toNat 0 0 1 n.toNat 0))
  | .scloseQueue g p a => some (.seq (rawOf 66 0 g p.toNat a.toNat 0 2 0 0))
  | .scloseQueueSi g p n => some (.seq (rawOf 66 1 g p.toNat 0 0 2 n.toNat 0))
  | .sbar g p a => some (.seq (rawOf 67 0 g p.toNat a.toNat 0 0 0 0))
  | .sbarSi g p mask => some (.seq (rawOf 67 1 g p.toNat 0 0 0 mask.toNat 0))
  | .sstat g d a => some (.seq (rawOf 68 0 g d.toNat a.toNat 0 0 0 0))
  | .sstatSi g d eq field => some (.seq (rawOf 68 1 g d.toNat 0 0 0 (eq.toNat + field.toNat * 8) 0))
  | .mcastDetach _ _ _ => none
  | .pin g d a b => some (.seq (rawOf 75 0 g d.toNat a.toNat b.toNat 0 0 0))
  | .pinSi g d a imm => some (.seq (rawOf 75 1 g d.toNat a.toNat 0 0 imm.toNat 0))
  | .unpin g d a b => some (.seq (rawOf 76 0 g d.toNat a.toNat b.toNat 0 0 0))
  | .unpinSi g d a imm => some (.seq (rawOf 76 1 g d.toNat a.toNat 0 0 imm.toNat 0))
  | .pref g q d a b => some (.seq (rawOf 77 0 g d.toNat a.toNat b.toNat q.toNat 0 0))
  | .prefSi g q d a imm => some (.seq (rawOf 77 1 g d.toNat a.toNat 0 q.toNat imm.toNat 0))
  | .flush g q d a b => some (.seq (rawOf 78 0 g d.toNat a.toNat b.toNat q.toNat 0 0))
  | .flushSi g q d a imm => some (.seq (rawOf 78 1 g d.toNat a.toNat 0 q.toNat imm.toNat 0))
  | .chainHoldReread _ _ => none
  | .chaint g p a b => some (.seq (rawOf 80 0 g p.toNat a.toNat b.toNat 0 0 0))
  | .chaintSi g p a imm => some (.seq (rawOf 80 1 g p.toNat a.toNat 0 0 imm.toNat 0))
  | .qpush g d a b => some (.seq (rawOf 81 0 g d.toNat a.toNat b.toNat 0 0 0))
  | .qpushSi g d b q => some (.seq (rawOf 81 1 g d.toNat 0 b.toNat 0 q.toNat 0))
  | .qpop g p a b => some (.seq (rawOf 82 0 g p.toNat a.toNat b.toNat 0 0 0))
  | .qpopSi g p b q => some (.seq (rawOf 82 1 g p.toNat 0 b.toNat 0 q.toNat 0))
  | .qfence g sc p a => some (.seq (rawOf 83 0 g p.toNat a.toNat 0 (scopeCode sc) 0 0))
  | .qfenceSi g sc p mask => some (.seq (rawOf 83 1 g p.toNat 0 0 (scopeCode sc) mask.toNat 0))
  | .qseq g issued d a => some (.seq (rawOf 84 0 g d.toNat a.toNat 0 issued.toNat 0 0))
  | .qseqSi g issued d q => some (.seq (rawOf 84 1 g d.toNat 0 0 issued.toNat q.toNat 0))
  | .barinit g p a b => some (.seq (rawOf 85 0 g p.toNat a.toNat b.toNat 0 0 0))
  | .barinitSi g p a imm => some (.seq (rawOf 85 1 g p.toNat a.toNat 0 0 imm.toNat 0))
  | .bararr g d a => some (.seq (rawOf 86 0 g d.toNat a.toNat 0 0 0 0))
  | .bararrSi g d a imm => some (.seq (rawOf 86 1 g d.toNat a.toNat 0 0 imm.toNat 0))
  | .bartest g p a b => some (.seq (rawOf 87 0 g p.toNat a.toNat b.toNat 0 0 0))
  | .bartestSi g p a imm => some (.seq (rawOf 87 1 g p.toNat a.toNat 0 0 imm.toNat 0))
  | .spawn g p a => some (.seq (rawOf 88 0 g p.toNat a.toNat 0 0 0 0))
  | .spawnSi g p a imm => some (.seq (rawOf 88 1 g p.toNat a.toNat 0 0 imm.toNat 0))
  | .vdecl g d a b => some (.seq (rawOf 89 0 g d.toNat a.toNat b.toNat 0 0 0))
  | .vdeclSi g d a b vid => some (.seq (rawOf 89 1 g d.toNat a.toNat b.toNat 0 vid.toNat 0))
  | .tend g p => some (.seq (rawOf 90 0 g p.toNat 0 0 0 0 0))
  | .tendChild g p a => some (.seq (rawOf 90 0 g p.toNat a.toNat 0 1 0 0))
  | .tsync g p => some (.seq (rawOf 91 0 g p.toNat 0 0 0 0 0))
  | .tsyncTake g d => some (.seq (rawOf 91 0 g d.toNat 0 0 1 0 0))
  | .tresume g p a => some (.seq (rawOf 92 0 g p.toNat a.toNat 0 0 0 0))
  | .tresumeSkip g p a => some (.seq (rawOf 92 0 g p.toNat a.toNat 0 1 0 0))
  | .tinfo g d b => some (.seq (rawOf 93 0 g d.toNat 0 b.toNat 0 0 0))
  | .tinfoSi g d field view => some (.seq (rawOf 93 1 g d.toNat 0 0 0 (field.toNat + view.toNat * 32) 0))
  | .tinfoCh g d a b => some (.seq (rawOf 93 0 g d.toNat a.toNat b.toNat 1 0 0))
  | .tinfoChSi g d a field view => some (.seq (rawOf 93 1 g d.toNat a.toNat 0 1 (field.toNat + view.toNat * 32) 0))
  | .eload g d a => some (.seq (rawOf 96 0 g d.toNat a.toNat 0 0 0 0))
  | .eloadSi g d a imm => some (.seq (rawOf 96 1 g d.toNat a.toNat 0 0 imm.toNat 0))
  | .ewire g d a => some (.seq (rawOf 97 0 g d.toNat a.toNat 0 0 0 0))
  | .ewireSi g d a imm => some (.seq (rawOf 97 1 g d.toNat a.toNat 0 0 imm.toNat 0))
  | .ethr g d a => some (.seq (rawOf 99 0 g d.toNat a.toNat 0 0 0 0))
  | .ethrSi g d a imm => some (.seq (rawOf 99 1 g d.toNat a.toNat 0 0 imm.toNat 0))
  | .exf g d a => some (.seq (rawOf 100 0 g d.toNat a.toNat 0 0 0 0))
  | .exfSi g d a imm => some (.seq (rawOf 100 1 g d.toNat a.toNat 0 0 imm.toNat 0))
  | .epop g d a => some (.seq (rawOf 102 0 g d.toNat a.toNat 0 0 0 0))
  | .epopSi g d a imm => some (.seq (rawOf 102 1 g d.toNat a.toNat 0 0 imm.toNat 0))
  | .exb g d a => some (.seq (rawOf 103 0 g d.toNat a.toNat 0 0 0 0))
  | .exbSi g d a imm => some (.seq (rawOf 103 1 g d.toNat a.toNat 0 0 imm.toNat 0))
  | .esel g d a => some (.seq (rawOf 98 0 g d.toNat a.toNat 0 0 0 0))
  | .eselSi g d w t => some (.seq (rawOf 98 1 g d.toNat 0 0 0 (w.toNat + t.toNat * 4) 0))
  | .eeval g d a b => some (.seq (rawOf 101 0 g d.toNat a.toNat b.toNat 0 0 0))
  | .eevalSi g d first cm1 => some (.seq (rawOf 101 1 g d.toNat 0 0 0 (first.toNat + cm1.toNat * 4096) 0))
  | .asyncTrapTaken _ => none
  | .engineCommandStart _ _ => none
  | .engineElement _ _ => none
  | .engineCommandComplete _ _ => none
  | .faultRetry _ => none
  | .ergCommandStart _ _ => none
  | .ergCommandComplete _ => none
  | .ergClearDone _ => none
  | .ergRestoreDone _ => none
  | .ergSaveDone _ _ => none
  | .fibreOpArrive _ => none
  | .scanSegmentDone _ => none
  | .fibreOpComplete _ => none
  | .viewMergeStart _ => none
  | .viewMergeElement _ => none
  | .viewMergeComplete _ => none
  | .childPlaced _ _ => none
  | .monitorNotice _ _ => none
  | .watchClearReply _ _ => none
  | .stallSweep _ => none
  | .cloneWindow _ _ _ => none
  | .cloneDissolve _ => none
  | .configDrained _ => none
  | .residencyRetire _ => none
  | .dispatchDecision => none
  | .queueCommandComplete _ _ => none
  | .groupAdmit _ => none
  | .claimMove => none
  | .loadComplete _ => none
  | .preemptRequest _ _ => none
  | .nodeSnapshotSave _ _ _ => none
  | .haboobQuiescence _ => none
  | .snapshotComplete _ _ => none
  | .groupRestore _ => none
  | .restoreComplete _ _ => none
  | .remoteAck _ _ => none
  | .remoteRetryExhausted _ => none
  | .remapRequest _ _ _ => none
  | .remapComplete _ _ => none
  | .contractBudgetExhaust _ _ => none
  | .contractWindowExpire _ => none
  | .contextTeardownDone _ => none
  | .rmaWrite _ _ => none
  | .rmaRead _ _ => none
  | .rmaAtomic _ _ _ _ _ => none
  | .unsupportedPacket _ => none
  | .devInfo _ => none
  | .pageStat _ => none
  | .ctxCreate _ => none
  | .ctxKey _ => none
  | .ctxStart _ => none
  | .ctxSuspend _ => none
  | .ctxResume _ => none
  | .ctxDestroy _ => none
  | .ctxQuota _ => none
  | .ctxSync _ => none
  | .ctxSyncDone _ => none
  | .qCreate _ => none
  | .qEnable _ => none
  | .qDisable _ => none
  | .qTail _ => none
  | .qFlush _ => none
  | .qRestart _ => none
  | .qDestroy _ => none
  | .qPop _ => none
  | .contractCreate _ => none
  | .contractDestroy _ => none
  | .poolReg _ => none
  | .poolFree _ => none
  | .memWrite _ => none
  | .memRead _ => none
  | .chanBind _ => none
  | .linkStat _ => none
  | .linkIsolate _ => none
  | .linkRestore _ => none
  | .linkEnable _ => none
  | .linkRetryTimer _ => none
  | .linkTrainingEnd _ _ => none
  | .linkLaneFail _ _ => none
  | .linkFerrIsolate _ => none
  | .getVersion _ => none
  | .getCapabilities _ => none
  | .negotiateAlgorithms _ => none
  | .getDigests _ => none
  | .getCertificate _ => none
  | .challenge _ _ => none
  | .getMeasurements _ _ => none
  | .provision _ => none
  | .setNode _ _ => none
  | .deploy _ => none
  | .dbgNonce => none
  | .dbgUnlock _ => none
  | .decommission _ => none
  | .coldReset => none
  | .warmReset => none
  | .bootImagePacket _ _ _ => none
  | .powerStateEnter _ => none
  | .powerStateWake _ => none
  | .thermalSensing _ => none
  | .supplyFault => none
  | .hbmPatrolScrub _ _ => none
  | .sramScrub _ => none
  | .hbmRetraining _ => none
  | .linkEqualisation _ => none
  | .hbmRowRepair _ _ => none
  | .telemetryRecord => none
  | .accessPerformed _ => none
  | .linkLevelRetry _ _ => none
  | .hbmRetrainingDone _ => none
  | .hbmRowRepairDone _ _ => none
  | .ingr x => some (.node (nraw32 128 x))
  | .ingrN64 x => some (.node (nraw64 128 x))
  | .ingrN96 x => some (.node (nraw96 128 x))
  | .egr x => some (.node (nraw32 129 x))
  | .egrN64 x => some (.node (nraw64 129 x))
  | .egrN96 x => some (.node (nraw96 129 x))
  | .cst x => some (.node (nraw32 130 x))
  | .cstN64 x => some (.node (nraw64 130 x))
  | .cstN96 x => some (.node (nraw96 130 x))
  | .addNode x => some (.node (nraw32 131 x))
  | .addNodeN64 x => some (.node (nraw64 131 x))
  | .addNodeN96 x => some (.node (nraw96 131 x))
  | .subNode x => some (.node (nraw32 132 x))
  | .subNodeN64 x => some (.node (nraw64 132 x))
  | .subNodeN96 x => some (.node (nraw96 132 x))
  | .mulNode x => some (.node (nraw32 133 x))
  | .mulNodeN64 x => some (.node (nraw64 133 x))
  | .mulNodeN96 x => some (.node (nraw96 133 x))
  | .mad x => some (.node (nraw32 134 x))
  | .madN64 x => some (.node (nraw64 134 x))
  | .madN96 x => some (.node (nraw96 134 x))
  | .minNode x => some (.node (nraw32 135 x))
  | .minNodeN64 x => some (.node (nraw64 135 x))
  | .minNodeN96 x => some (.node (nraw96 135 x))
  | .maxNode x => some (.node (nraw32 136 x))
  | .maxNodeN64 x => some (.node (nraw64 136 x))
  | .maxNodeN96 x => some (.node (nraw96 136 x))
  | .absNode x => some (.node (nraw32 137 x))
  | .absNodeN64 x => some (.node (nraw64 137 x))
  | .absNodeN96 x => some (.node (nraw96 137 x))
  | .andNode x => some (.node (nraw32 138 x))
  | .andNodeN64 x => some (.node (nraw64 138 x))
  | .andNodeN96 x => some (.node (nraw96 138 x))
  | .orNode x => some (.node (nraw32 139 x))
  | .orNodeN64 x => some (.node (nraw64 139 x))
  | .orNodeN96 x => some (.node (nraw96 139 x))
  | .xorNode x => some (.node (nraw32 140 x))
  | .xorNodeN64 x => some (.node (nraw64 140 x))
  | .xorNodeN96 x => some (.node (nraw96 140 x))
  | .shlNode x => some (.node (nraw32 141 x))
  | .shlNodeN64 x => some (.node (nraw64 141 x))
  | .shlNodeN96 x => some (.node (nraw96 141 x))
  | .shrNode x => some (.node (nraw32 142 x))
  | .shrNodeN64 x => some (.node (nraw64 142 x))
  | .shrNodeN96 x => some (.node (nraw96 142 x))
  | .sarNode x => some (.node (nraw32 143 x))
  | .sarNodeN64 x => some (.node (nraw64 143 x))
  | .sarNodeN96 x => some (.node (nraw96 143 x))
  | .cmpNode x => some (.node (nraw32 144 x))
  | .cmpNodeN64 x => some (.node (nraw64 144 x))
  | .cmpNodeN96 x => some (.node (nraw96 144 x))
  | .selNode x => some (.node (nraw32 145 x))
  | .selNodeN64 x => some (.node (nraw64 145 x))
  | .selNodeN96 x => some (.node (nraw96 145 x))
  | .cvt x => some (.node (nraw32 146 x))
  | .cvtN64 x => some (.node (nraw64 146 x))
  | .cvtN96 x => some (.node (nraw96 146 x))
  | .fadd x => some (.node (nraw32 147 x))
  | .faddN64 x => some (.node (nraw64 147 x))
  | .faddN96 x => some (.node (nraw96 147 x))
  | .fmul x => some (.node (nraw32 148 x))
  | .fmulN64 x => some (.node (nraw64 148 x))
  | .fmulN96 x => some (.node (nraw96 148 x))
  | .fma x => some (.node (nraw32 149 x))
  | .fmaN64 x => some (.node (nraw64 149 x))
  | .fmaN96 x => some (.node (nraw96 149 x))
  | .fmin x => some (.node (nraw32 150 x))
  | .fminN64 x => some (.node (nraw64 150 x))
  | .fminN96 x => some (.node (nraw96 150 x))
  | .fmax x => some (.node (nraw32 151 x))
  | .fmaxN64 x => some (.node (nraw64 151 x))
  | .fmaxN96 x => some (.node (nraw96 151 x))
  | .fcmp x => some (.node (nraw32 152 x))
  | .fcmpN64 x => some (.node (nraw64 152 x))
  | .fcmpN96 x => some (.node (nraw96 152 x))
  | .frcp x => some (.node (nraw32 153 x))
  | .frcpN64 x => some (.node (nraw64 153 x))
  | .frcpN96 x => some (.node (nraw96 153 x))
  | .frsq x => some (.node (nraw32 154 x))
  | .frsqN64 x => some (.node (nraw64 154 x))
  | .frsqN96 x => some (.node (nraw96 154 x))
  | .fexp2 x => some (.node (nraw32 155 x))
  | .fexp2N64 x => some (.node (nraw64 155 x))
  | .fexp2N96 x => some (.node (nraw96 155 x))
  | .flog2 x => some (.node (nraw32 156 x))
  | .flog2N64 x => some (.node (nraw64 156 x))
  | .flog2N96 x => some (.node (nraw96 156 x))
  | .unpk3 x => some (.node (nraw32 157 x))
  | .unpk3N64 x => some (.node (nraw64 157 x))
  | .unpk3N96 x => some (.node (nraw96 157 x))
  | .bmandN64 x => some (.node (nraw64 158 x))
  | .bmandN96 x => some (.node (nraw96 158 x))
  | .pfxpop x => some (.node (nraw32 159 x))
  | .pfxpopN64 x => some (.node (nraw64 159 x))
  | .pfxpopN96 x => some (.node (nraw96 159 x))
  | .six x => some (.node (nraw32 160 x))
  | .sixN64 x => some (.node (nraw64 160 x))
  | .sixN96 x => some (.node (nraw96 160 x))
  | .sun x => some (.node (nraw32 161 x))
  | .sunN64 x => some (.node (nraw64 161 x))
  | .sunN96 x => some (.node (nraw96 161 x))
  | .topk x => some (.node (nraw32 162 x))
  | .topkN64 x => some (.node (nraw64 162 x))
  | .topkN96 x => some (.node (nraw96 162 x))
  | .mm x => some (.node (nraw32 163 x))
  | .mmN64 x => some (.node (nraw64 163 x))
  | .mmN96 x => some (.node (nraw96 163 x))
  | .mmpl x => some (.node (nraw32 164 x))
  | .mmplN64 x => some (.node (nraw64 164 x))
  | .mmplN96 x => some (.node (nraw96 164 x))
  | .acc x => some (.node (nraw32 165 x))
  | .accN64 x => some (.node (nraw64 165 x))
  | .accN96 x => some (.node (nraw96 165 x))
  | .drain x => some (.node (nraw32 166 x))
  | .drainN64 x => some (.node (nraw64 166 x))
  | .drainN96 x => some (.node (nraw96 166 x))
  | .cnt x => some (.node (nraw32 167 x))
  | .cntN64 x => some (.node (nraw64 167 x))
  | .cntN96 x => some (.node (nraw96 167 x))
  | .agen x => some (.node (nraw32 168 x))
  | .agenN64 x => some (.node (nraw64 168 x))
  | .agenN96 x => some (.node (nraw96 168 x))
  | .join x => some (.node (nraw32 169 x))
  | .joinN64 x => some (.node (nraw64 169 x))
  | .joinN96 x => some (.node (nraw96 169 x))
  | .split x => some (.node (nraw32 170 x))
  | .splitN64 x => some (.node (nraw64 170 x))
  | .splitN96 x => some (.node (nraw96 170 x))
  | .merge x => some (.node (nraw32 171 x))
  | .mergeN64 x => some (.node (nraw64 171 x))
  | .mergeN96 x => some (.node (nraw96 171 x))
  | .steer x => some (.node (nraw32 172 x))
  | .steerN64 x => some (.node (nraw64 172 x))
  | .steerN96 x => some (.node (nraw96 172 x))
  | .bartok x => some (.node (nraw32 173 x))
  | .bartokN64 x => some (.node (nraw64 173 x))
  | .bartokN96 x => some (.node (nraw96 173 x))
  | .ldn x => some (.node (nraw32 174 x))
  | .ldnN64 x => some (.node (nraw64 174 x))
  | .ldnN96 x => some (.node (nraw96 174 x))
  | .stn x => some (.node (nraw32 175 x))
  | .stnN64 x => some (.node (nraw64 175 x))
  | .stnN96 x => some (.node (nraw96 175 x))
  | .atomNode x => some (.node (nraw32 176 x))
  | .atomNodeN64 x => some (.node (nraw64 176 x))
  | .atomNodeN96 x => some (.node (nraw96 176 x))
  | .acqn x => some (.node (nraw32 177 x))
  | .acqnN64 x => some (.node (nraw64 177 x))
  | .acqnN96 x => some (.node (nraw96 177 x))
  | .relnN64 x => some (.node (nraw64 178 x))
  | .relnN96 x => some (.node (nraw96 178 x))
  | .wcvt x => some (.node (nraw32 179 x))
  | .wcvtN64 x => some (.node (nraw64 179 x))
  | .wcvtN96 x => some (.node (nraw96 179 x))
  | .mstore x => some (.node (nraw32 180 x))
  | .mstoreN64 x => some (.node (nraw64 180 x))
  | .mstoreN96 x => some (.node (nraw96 180 x))
  | .pivdiv x => some (.node (nraw32 181 x))
  | .pivdivN64 x => some (.node (nraw64 181 x))
  | .pivdivN96 x => some (.node (nraw96 181 x))
  | .resid x => some (.node (nraw32 182 x))
  | .residN64 x => some (.node (nraw64 182 x))
  | .residN96 x => some (.node (nraw96 182 x))
  | .shuf x => some (.node (nraw32 183 x))
  | .shufN64 x => some (.node (nraw64 183 x))
  | .shufN96 x => some (.node (nraw96 183 x))
  | .fmerge x => some (.node (nraw32 184 x))
  | .fmergeN64 x => some (.node (nraw64 184 x))
  | .fmergeN96 x => some (.node (nraw96 184 x))
  | .fins x => some (.node (nraw32 185 x))
  | .finsN64 x => some (.node (nraw64 185 x))
  | .finsN96 x => some (.node (nraw96 185 x))
  | .fscan x => some (.node (nraw32 186 x))
  | .fscanN64 x => some (.node (nraw64 186 x))
  | .fscanN96 x => some (.node (nraw96 186 x))
  | .fprobe x => some (.node (nraw32 187 x))
  | .fprobeN64 x => some (.node (nraw64 187 x))
  | .fprobeN96 x => some (.node (nraw96 187 x))
  | .finter x => some (.node (nraw32 188 x))
  | .finterN64 x => some (.node (nraw64 188 x))
  | .finterN96 x => some (.node (nraw96 188 x))
  | .fcountN64 x => some (.node (nraw64 189 x))
  | .fcountN96 x => some (.node (nraw96 189 x))
  | .fclearN64 x => some (.node (nraw64 190 x))
  | .fclearN96 x => some (.node (nraw96 190 x))
  | .fcompactN64 x => some (.node (nraw64 191 x))
  | .fcompactN96 x => some (.node (nraw96 191 x))
  | .ftopk x => some (.node (nraw32 192 x))
  | .ftopkN64 x => some (.node (nraw64 192 x))
  | .ftopkN96 x => some (.node (nraw96 192 x))
  | .fstatN64 x => some (.node (nraw64 193 x))
  | .fstatN96 x => some (.node (nraw96 193 x))

def Enc.len : Enc → Nat
  | .seq r => r.len
  | .node n => n.len
/-- The words of the fields. -/
def Enc.words : Enc → Nat × Nat × Nat
  | .seq r => (r.word0, r.w1, r.w2)
  | .node n => (n.word0, n.word1, n.lit)

/-- The instruction's words, first word first: one, two or three as its length code says. -/
def encode (i : Instr) : List Nat :=
  match encodeFields i with
  | none => []
  | some e => [e.words.1, e.words.2.1, e.words.2.2].take (e.len + 1)

/-- The instruction's bytes in memory order. -/
def encodeBytes (i : Instr) : List Byte := (encode i).flatMap wordBytes

/-- The instruction whose bits, numbered from the first word's least significant, are those of `w`
below `nbits`, every later bit zero. -/
noncomputable def decodeTableWord (nbits w : Nat) : Option Instr :=
  let v := w % 2 ^ nbits
  match decode (wordBytes (v % 4294967296) ++ wordBytes (v / 4294967296 % 4294967296)
      ++ wordBytes (v / 18446744073709551616 % 4294967296)) with
  | .ok (i, _) => some i
  | .error _ => none

end Sys2Proof
end

