-- ==== Sys2Proof/Machine/NodeTab.lean ====
section
/-! DEFINITION. The rows of the node tables: formats, slots, literal words and consumers of every node and
fibre node (04 R96 to R98, R105, R107; 07 R192, R193, R195 to R213; 08 R221 to R224, R240, R246; 09 R256,
R257, R273). -/
namespace Sys2Proof.Machine

/-- A node as configuration load and a firing see it, whatever its form (R191): an N32 or N64 node has a
literal word of zero. -/
structure NodeV where
  op : Nat
  fmt : Nat
  /-- consumers in use, in order: node index and slot (R97) -/
  cons : List (Nat × Nat)
  den : Nat
  lit : Nat
  deriving DecidableEq, Repr

/-- Format of a TC code (R96). -/
def tcFmt : Nat → Nat
  | 0 => 0x01 | 1 => 0x12 | 2 => 0x19 | _ => 0x18

def consOf (k xc : Nat) (c1 c2 c3 c4 : BitVec 9) : List (Nat × Nat) :=
  ([c1, c2].take k ++ [c3, c4].take xc).map (fun c => (c.toNat / 4, c.toNat % 4))

def view32 (op : Nat) (x : N32) : NodeV :=
  { op := op, fmt := tcFmt x.t.toNat, cons := consOf x.k.toNat 0 x.c1 x.c2 0 0, den := 0, lit := 0 }
def view64 (op : Nat) (x : N64) : NodeV :=
  { op := op, fmt := x.fmt.toNat, cons := consOf x.k.toNat x.xc.toNat x.c1 x.c2 x.c3 x.c4
    den := x.den.toNat, lit := 0 }
def view96 (op : Nat) (x : N96) : NodeV :=
  { op := op, fmt := x.fmt.toNat, cons := consOf x.k.toNat x.xc.toNat x.c1 x.c2 x.c3 x.c4
    den := x.den.toNat, lit := x.lit.toNat }
/-- The view of an encoded node. -/
def nodeView (n : NRaw) : NodeV :=
  if n.len = 0 then view32 n.op n.toN32 else if n.len = 1 then view64 n.op n.toN64 else view96 n.op n.toN96

/-- Bits of the literal word. -/
def NodeV.bits (v : NodeV) (lo w : Nat) : Nat := v.lit / 2 ^ lo % 2 ^ w
def NodeV.flag (v : NodeV) (n : Nat) : Bool := v.bits n 1 = 1
/-- Only these bits of the literal may be set: a list of (lowest bit, width). -/
def NodeV.litIn (v : NodeV) (l : List (Nat × Nat)) : Bool :=
  v.lit = l.foldl (fun m f => m + 2 ^ f.1 * v.bits f.1 f.2) 0

/-! ### Opcode groups -/

def opLoad (op : Nat) : Bool := op = 0xAE || op = 0xB0 || op = 0xB1
def isFibreOp (op : Nat) : Bool := 0xB8 ≤ op && op ≤ 0xC1
def isFibreWriter (op : Nat) : Bool := op = 0xB8 || op = 0xB9 || op = 0xBE || op = 0xBF
/-- DRAIN in record mode (R222). -/
def NodeV.drainMem (v : NodeV) : Bool := v.op = 0xA6 && v.flag 8
/-- Nodes whose entry defines slot o for their mode (R105, R221, R256). -/
def NodeV.hasO (v : NodeV) : Bool :=
  v.drainMem || v.op = 0xAE || v.op = 0xAF || v.op = 0xB0 || v.op = 0xB1 || v.op = 0xB3 || v.op = 0xB4
    || isFibreOp v.op
/-- Nodes that send order tokens (R221, R256). -/
def NodeV.sendsO (v : NodeV) : Bool := v.hasO || v.op = 0xB2
/-- Nodes whose every consumer must be an order slot (R221, R256). -/
def NodeV.onlyO (v : NodeV) : Bool :=
  v.drainMem || v.op = 0xAF || v.op = 0xB2 || isFibreWriter v.op
def NodeV.tile (v : NodeV) : Bool := v.op = 0xAF && v.flag 4

/-! ### Formats -/

def fmtAny (f : Nat) : Bool := fmtKnown f && f != 0x00 && f != 0x05 && f != 0x06 && f != 0x30
def fmtAnyRaw (f : Nat) : Bool := fmtAny f || f = 0x00
def fmtINTFX (f : Nat) : Bool := fmtIsINT f || f = 0x21
def fmtF8 (f : Nat) : Bool := f = 0x03 || f = 0x04
/-- Value formats of ACC, DRAIN and CVT's destination but FX64. -/
def fmtNum (f : Nat) : Bool :=
  fmtIsINT f || f = 0x0B || fmtIsFLT f || fmtF8 f || f = 0x08 || f = 0x09 || f = 0x0A
/-- MEMF: formats of 8, 16, 32 or 64 bits an element, and RAW (R221). -/
def fmtMem (f : Nat) : Bool :=
  f = 0x00 || fmtINTFX f || fmtIsFLT f || fmtF8 f
/-- Value formats of a pool (R248). -/
def fmtPool (f : Nat) : Bool := fmtINTFX f || fmtIsFLT f || fmtF8 f
def fmtKey (f : Nat) : Bool := f = 0x19 || f = 0x1A || f = 0x20
def fmtAddr (flat : Bool) (f : Nat) : Bool := f = 0x20 || (!flat && (f = 0x19 || f = 0x1A))
/-- Operand classes of MM (R224). -/
def mmClass (f : Nat) : Option Nat :=
  if f = 0x01 || f = 0x02 || f = 0x0B then some 0
  else if fmtF8 f || f = 0x08 || f = 0x09 || f = 0x0A then some 1
  else if f = 0x10 || f = 0x11 then some 2
  else if f = 0x18 then some 3
  else none
/-- Whether R251 lets an operator code act on a format. -/
def copOk (cop f : Nat) : Bool :=
  match cop with
  | 1 | 2 | 5 | 6 => true
  | 3 => fmtIsINT f || f = 0x18 || f = 0x21
  | 4 => fmtIsINT f || f = 0x21
  | 7 | 8 | 9 => fmtIsINT f
  | _ => false

/-- The node formats a row allows (R192, R221, R256). -/
def NodeV.fmtOk (v : NodeV) : Bool :=
  let f := v.fmt
  match v.op with
  | 0x80 | 0x81 | 0xA9 | 0xAA | 0xAB | 0xAC | 0xAD | 0xB7 => fmtAnyRaw f
  | 0x82 => fmtIsINT f || fmtIsFLT f || fmtF8 f || f = 0x21
  | 0x83 | 0x84 | 0x87 | 0x88 => fmtINTFX f
  | 0x85 | 0x86 | 0x8A | 0x8B | 0x8C | 0x8D | 0x8E | 0x8F => fmtIsINT f
  | 0x89 => f = 0x01 || f = 0x12 || f = 0x19 || f = 0x20 || f = 0x21
  | 0x90 | 0x98 | 0x9D => f = 0x01
  | 0x91 => fmtAny f
  | 0x92 => fmtNum f || f = 0x21
  | 0x93 | 0x94 | 0x95 | 0x96 | 0x97 => fmtIsFLT f
  | 0x99 | 0x9A | 0x9B | 0x9C | 0xB5 | 0xB6 => f = 0x18
  | 0x9E => f = 0x1A
  | 0x9F => f = 0x19
  | 0xA0 | 0xA1 => if v.flag 4 then fmtAny f else fmtKey f
  | 0xA2 => fmtINTFX f || fmtIsFLT f || fmtF8 f
  | 0xA3 => (mmClass f).isSome
  | 0xA4 => mmClass f = some 0
  | 0xA5 | 0xA6 => fmtNum f
  | 0xA7 | 0xA8 => f = 0x19 || f = 0x20
  | 0xAE => fmtMem f
  | 0xAF => if v.flag 4 then fmtAnyRaw f else fmtMem f
  | 0xB0 => fmtKey f || (f = 0x21 && v.bits 11 4 = 0)
  | 0xB1 => fmtKey f
  | 0xB2 | 0xBE | 0xBF => f = 0x00
  | 0xB3 => f = 0x12 || f = 0x11 || f = 0x10 || f = 0x19 || f = 0x1A || f = 0x18 || f = 0x20 || f = 0x21
  | 0xB4 => fmtMem f && f != 0x00
  | 0xB8 | 0xB9 | 0xBA | 0xBB | 0xBC | 0xC0 => fmtPool f
  | 0xBD | 0xC1 => f = 0x20
  | _ => false

/-! ### Slots -/

/-- What a row says of a slot's format-section byte. -/
inductive SlotRow where
  | unused
  | order
  | req (ok : Nat → Bool)
  | opt (ok : Nat → Bool)

def SlotRow.ok (r : SlotRow) (b : Nat) : Bool :=
  match r with
  | .unused => b = 0xFF
  | .order => b = 0xFE
  | .req f => b != 0xFF && b != 0xFE && f b
  | .opt f => b = 0xFF || (b != 0xFE && f b)
def SlotRow.required (r : SlotRow) (b : Nat) : Bool :=
  match r with
  | .req _ => true
  | .opt _ => b != 0xFF
  | _ => false

def isF (f : Nat) : SlotRow := .req (fun b => b = f)

/-- The formats of slot `i` of JOIN: that of OSEL has the node's, which may be RAW (R192). -/
def NodeV.joinFmt (v : NodeV) (i : Nat) : Nat → Bool := if v.bits 0 2 = i then fmtAnyRaw else fmtAny
/-- The four slots of a row (R192, R221, R256); d is slot o where the entry defines one (R97). -/
def NodeV.slots (v : NodeV) : List SlotRow :=
  let f := v.fmt
  let o := if v.hasO then .order else .unused
  let addr := SlotRow.req (fmtAddr (v.flag 0))
  let no : List SlotRow := [.unused, .unused, .unused]
  let abc : List SlotRow :=
    match v.op with
    | 0x80 | 0x82 | 0xA8 => no
    | 0x81 | 0x89 | 0xA2 | 0xA5 | 0xAA | 0xAD | 0xB7 => [isF f, .unused, .unused]
    | 0x83 | 0x84 | 0x85 | 0x87 | 0x88 | 0x8A | 0x8B | 0x8C | 0x8D | 0x8E | 0x8F
    | 0x93 | 0x94 | 0x96 | 0x97 | 0x9E | 0xA0 | 0xA1 => [isF f, isF f, .unused]
    | 0x86 | 0x95 => [isF f, isF f, isF f]
    | 0x90 => [.req fmtINTFX, .req fmtINTFX, .unused]
    | 0x98 => [.req fmtIsFLT, .req fmtIsFLT, .unused]
    | 0x91 => [isF 0x01, isF f, isF f]
    | 0x92 => [.req (fun b => fmtNum b || b = 0x21 || b = 0x07), .unused, .unused]
    | 0x99 | 0x9A | 0x9B | 0x9C => [isF 0x18, .unused, .unused]
    | 0x9D => [isF 0x00, .unused, .unused]
    | 0x9F => [isF 0x1A, isF 0x1A, .unused]
    | 0xA3 | 0xA4 => List.replicate 3 (.req (fun b => b = 0x19 || b = 0x20))
    | 0xA6 => if v.flag 8 then [.req (fmtAddr (v.flag 9)), .unused, .unused]
              else [.req fmtAny, .unused, .unused]
    | 0xA7 => if v.flag 18 then [.req fmtAny, .unused, .unused] else no
    | 0xA9 => [.req (v.joinFmt 0), .req (v.joinFmt 1), .opt (v.joinFmt 2)]
    | 0xAB => [isF f, isF f, .opt (fun b => b = f)]
    | 0xAC => [isF f, if v.bits 0 4 = 0 then isF 0x01 else .unused, .unused]
    | 0xAE | 0xB1 => [addr, .unused, .unused]
    | 0xAF => [if v.flag 4 then .unused else addr, isF f, .unused]
    | 0xB0 => [addr, isF f, if v.bits 11 4 = 9 then isF f else .unused]
    | 0xB2 => [.order, .order, .order]
    | 0xB3 => [addr, if v.flag 20 then .unused else isF f, .unused]
    | 0xB4 => [isF 0x20, isF f, .unused]
    | 0xB5 => [isF 0x18, isF 0x18, .opt (fun b => b = 0x18)]
    | 0xB6 => [isF 0x18, isF 0x20, .unused]
    | 0xB8 | 0xB9 => if v.flag 16 then [isF 0x20, isF 0x20, isF f] else [isF 0x20, isF f, .unused]
    | 0xBB => [isF 0x20, isF (if v.flag 16 then 0x20 else 0x1A), .unused]
    | 0xBC => [isF 0x20, isF (if v.flag 17 then f else 0x20), .unused]
    | 0xBA | 0xBD | 0xBE | 0xBF | 0xC0 | 0xC1 => [isF 0x20, .unused, .unused]
    | _ => no
  let d : SlotRow :=
    match v.op with
    | 0xA9 => .opt (v.joinFmt 3)
    | 0xAB => .opt (fun b => b = f)
    | 0xB2 => .order
    | _ => o
  abc ++ [d]

/-- Byte `i` of a format-section word (R105). -/
def slotByte (w : W32) (i : Nat) : Nat := w.toNat / 2 ^ (8 * i) % 256
def NodeV.required (v : NodeV) (w : W32) : List Nat :=
  (List.range 4).filter (fun i => ((v.slots.getD i .unused).required (slotByte w i)))
/-- Every slot byte is in line with the row; JOIN and MERGE take their slots from a upward (R192). -/
def NodeV.slotsOk (v : NodeV) (w : W32) : Bool :=
  (List.range 4).all (fun i => (v.slots.getD i .unused).ok (slotByte w i))
    && (!(v.op = 0xA9 || v.op = 0xAB) || slotByte w 2 != 0xFF || slotByte w 3 = 0xFF)
    && (v.op != 0xA9 || slotByte w (v.bits 0 2) = v.fmt)
    && (!(v.op = 0x90 || v.op = 0x98) || slotByte w 0 = slotByte w 1)

/-! ### Literal words -/

/-- A literal of CONST in range of its format (R195): 8-bit and 16-bit values are zero- or sign-extended. -/
def constOk (f lit : Nat) : Bool :=
  let w := fmtWidth f
  w ≥ 32 || lit < 2 ^ w || (2 ^ (w - 1) ≤ lit % 2 ^ w && lit / 2 ^ w = 2 ^ (32 - w) - 1)

/-- OPT (R193), with the fields a row may use. -/
def NodeV.optOk (v : NodeV) (sat rm bsc anchor : Bool) (cond : Nat) : Bool :=
  v.litIn ([(12, 4)] ++ (if sat then [(11, 1)] else []) ++ (if rm then [(10, 1), (7, 3)] else [])
    ++ (if bsc then [(5, 1)] else []) ++ (if anchor then [(20, 12)] else [])
    ++ (if cond != 0 then [(0, 5)] else []))
  && (cond = 0 || v.bits 0 5 < cond)
  && v.bits 7 3 ≤ 4 && (v.flag 10 || v.bits 7 3 = 0)

/-- The anchor of CVT (R193). -/
def NodeV.anchor (v : NodeV) : Int := sval 12 (v.bits 20 12)

/-- The literal bits of a row, given slot a's format byte (R192, R193, R221, R222, R257). STN with both MARK and TSC is refused
(MODEL'S CHOICE, notes/assumptions/154.md). -/
def NodeV.litOk (v : NodeV) (sa : Nat) : Bool :=
  match v.op with
  | 0x80 | 0x81 => v.litIn [(0, 7)]
  | 0x82 => constOk v.fmt v.lit
  | 0x83 | 0x84 | 0x89 => v.optOk (fmtIsINT v.fmt) false false false 0
  | 0x85 | 0x86 => v.optOk true false false false 0
  | 0x87 | 0x88 | 0x8A | 0x8B | 0x8C | 0x8D | 0x8E | 0x8F | 0x91 => v.optOk false false false false 0
  | 0x90 => v.optOk false false false false 10
  | 0x98 => v.optOk false false false false 6
  | 0x92 =>
    let fx := v.fmt = 0x21 || sa = 0x21
    v.optOk false true (fmtWidth sa < 16) fx 0 && v.anchor ≤ 1100 && -1100 ≤ v.anchor
  | 0x93 | 0x94 | 0x95 | 0x99 | 0x9A | 0x9B | 0x9C => v.optOk false true false false 0
  | 0x96 | 0x97 => v.optOk false true false false 0
  | 0x9D => v.litIn [(0, 3)] && v.bits 0 3 ≤ 4
  | 0x9E => v.litIn [(0, 2)] && v.bits 0 2 ≤ 2
  | 0x9F => v.litIn [(0, 4)]
  | 0xA0 => v.litIn [(0, 5)]
  | 0xA1 => v.litIn [(0, 8)] && v.bits 5 3 ≤ 4
      && (v.bits 5 3 < 2 || (v.flag 4 && (fmtINTFX v.fmt || fmtIsFLT v.fmt)))
  | 0xA2 => v.litIn [(0, 14)]
  | 0xA3 | 0xA4 => v.litIn [(0, 9), (10, 8)]
  | 0xA5 => v.litIn [(0, 4)]
  | 0xA6 => v.litIn [(0, 10)] && v.bits 5 3 ≤ 4 && (!v.flag 0 || v.bits 2 3 = 0) && (v.flag 8 || !v.flag 9)
  | 0xA7 => v.litIn [(0, 20)] && (!v.flag 19 || (v.bits 0 16 = 0 && !v.flag 18))
  | 0xA8 => v.litIn [(0, 12)]
  | 0xA9 => v.litIn [(0, 2)]
  | 0xAA => v.litIn [(0, 6)]
  | 0xAB => v.litIn [(0, 7)]
  | 0xAC => v.litIn [(0, 5)]
  | 0xAD => v.litIn [(0, 8)]
  | 0xAE => v.litIn [(0, 1), (2, 1)]
  | 0xAF =>
    if v.flag 4 then v.litIn [(4, 7)] && !(v.flag 5 && v.flag 6) && (!v.flag 6 || v.fmt = 0x18)
    else v.litIn [(0, 1)]
  | 0xB0 => v.litIn [(0, 1), (11, 4)] && v.bits 11 4 ≤ 9
  | 0xB1 => v.litIn [(0, 1), (15, 3)] && v.bits 15 3 ≤ 6
  | 0xB2 => v.litIn [(15, 3)] && v.bits 15 3 ≤ 6
  | 0xB3 => v.litIn [(0, 1), (18, 3)] && v.bits 18 2 ≤ 2 && 8 * 2 ^ v.bits 18 2 < fmtWidth v.fmt
  | 0xB4 => v.litIn [(0, 1), (21, 6)] && v.flag 0
  | 0xB5 => v.litIn [(0, 10)] && v.bits 0 2 ≤ 1 && v.bits 3 3 ≤ 4 && (v.flag 2 || v.bits 3 3 = 0)
  | 0xB6 => v.litIn [(0, 4)]
  | 0xB7 =>
    let md := v.bits 0 3
    let lg := v.bits 3 3
    v.litIn [(0, 12)] && md ≤ 4 && 1 ≤ lg && lg ≤ 6 && v.bits 6 6 < 2 ^ lg
      && (md = 1 || md = 2 || v.bits 6 6 = 0)
  | 0xB8 => v.litIn [(0, 17), (18, 4)] && v.bits 18 4 ≤ 9
  | 0xB9 => v.litIn [(0, 12), (16, 1), (18, 4)] && v.bits 18 4 ≤ 9
  | 0xBA | 0xBB => v.litIn [(0, 12), (16, 1)]
  | 0xBC => v.litIn [(0, 12), (17, 1), (12, 4)] && (v.flag 17 || v.bits 12 4 = 0)
  | 0xBD => v.litIn [(0, 12), (22, 1)]
  | 0xBE | 0xBF => v.litIn [(0, 12)]
  | 0xC0 => v.litIn [(0, 12), (22, 10)]
  | 0xC1 => v.litIn [(0, 12), (22, 3)] && v.bits 22 3 ≤ 5
  | _ => false

/-- The literal bits of a row as far as the node word tells: what CVT allows hangs on the format of slot a as well. -/
def NodeV.litWord (v : NodeV) : Bool :=
  if v.op = 0x92 then v.optOk false true true true 0 && v.anchor ≤ 1100 && -1100 ≤ v.anchor else v.litOk 0
/-- Slot `i` is one the node's entry defines (R111). -/
def NodeV.defines (v : NodeV) (i : Nat) : Bool :=
  match v.slots.getD i .unused with
  | .unused => false
  | _ => true
/-- Slot `i` is an order slot (R221, R256). -/
def NodeV.orders (v : NodeV) (i : Nat) : Bool :=
  match v.slots.getD i .unused with
  | .order => true
  | _ => false

/-- The consumers a row allows (R192, R210). -/
def NodeV.consOk (v : NodeV) : Bool :=
  match v.op with
  | 0x81 | 0xA5 => v.cons.isEmpty
  | 0xAA => 2 ≤ v.cons.length
  | _ => true

/-- The format an edge from consumer place `k` carries (R107, R256). -/
def NodeV.outFmt (v : NodeV) (k : Nat) : Nat :=
  if (v.op = 0xBA || v.op = 0xBB) && v.flag 16 && k % 2 = 0 then 0x20 else v.fmt

/-- Slots a pairing rule covers (R189): the required slots of the nodes it names. -/
def paired (op : Nat) : Bool :=
  (0x83 ≤ op && op ≤ 0x88) || (0x8A ≤ op && op ≤ 0x91) || (0x93 ≤ op && op ≤ 0x98)
    || op = 0x9E || op = 0x9F || op = 0xA9

end Sys2Proof.Machine
end

