-- ==== Sys2Proof/Machine/Pack.lean ====
section
/-! DEFINITION. Elements in bytes (02 R32, R33): packing and unpacking of every element format. A T3 element
is its digit 0, 1 or 2. -/
namespace Sys2Proof.Machine

/-- Bytes of `n` packed elements (R33, R215). -/
def packLen (f n : Nat) : Nat :=
  if f = 0x07 then (n + 4) / 5
  else if fmtWidth f = 6 then 3 * ((n + 3) / 4)
  else (n * fmtWidth f + 7) / 8

/-- The bytes that hold element `i`, as (offset, count). -/
def elemSpan (f i : Nat) : Nat × Nat :=
  if f = 0x07 then (i / 5, 1)
  else if fmtWidth f = 6 then (i / 4 * 3, 3)
  else if fmtWidth f = 4 then (i / 2, 1)
  else (i * (fmtWidth f / 8), fmtWidth f / 8)

/-- Element `i` from the number its bytes hold; `none` for an illegal T3 byte (R32). -/
def elemOf (f i x : Nat) : Option Nat :=
  if f = 0x07 then (if x < 243 then some (x / 3 ^ (i % 5) % 3) else none)
  else if fmtWidth f = 6 then some (x / 2 ^ (6 * (i % 4)) % 64)
  else if fmtWidth f = 4 then some (x / 16 ^ (i % 2) % 16)
  else some (x % 2 ^ fmtWidth f)

/-- Element `i` of a packed byte list. -/
def unpackAt (f : Nat) (l : List Byte) (i : Nat) : Option Nat :=
  let (o, n) := elemSpan f i
  elemOf f i (leNat ((l.drop o).take n))

/-- Number of elements in one unit of packing, and the unit's bytes. -/
def packUnit (f : Nat) : Nat × Nat :=
  if f = 0x07 then (5, 1) else if fmtWidth f = 6 then (4, 3) else if fmtWidth f = 4 then (2, 1)
  else (1, fmtWidth f / 8)

/-- The number that a unit's elements form. -/
def unitNat (f : Nat) : List Nat → Nat
  | [] => 0
  | x :: t => if f = 0x07 then trit x + 3 * unitNat f t else x % 2 ^ fmtWidth f + 2 ^ fmtWidth f * unitNat f t

/-- Pack elements, over the units left. -/
def packUnits (f : Nat) : Nat → List Nat → List Byte
  | 0, _ => []
  | n + 1, l =>
    let (k, b) := packUnit f
    if l.isEmpty then []
    else leBytes b (unitNat f (l.take k)) ++ packUnits f n (l.drop k)
def pack (f : Nat) (l : List Nat) : List Byte := packUnits f l.length l

end Sys2Proof.Machine
end

