-- ==== Sys2Proof/Machine/Load.lean ====
section
/-! DEFINITION. Configuration load: the checks of a block image and of a configuration descriptor, in order
(04 R103 to R107, R111; 07 R191 to R195; 08 R214 to R217, R221, R224; 09 R257; 15 R371, R372). The reads are
those of whoever loads, so a load is written over a reader of `n` bytes at a virtual address. -/
namespace Sys2Proof.Machine

/-- How a load ends without a configuration: a read failed, or it is refused with a code and an index. -/
inductive LoadErr (ε : Type) where
  | read (e : ε)
  | refuse (code idx : Nat)

abbrev Rd (ε : Type) := W64 → Nat → Except ε Nat
abbrev Ld (ε α : Type) := Except (LoadErr ε) α

def ldRead {ε : Type} (rd : Rd ε) (va : W64) (n : Nat) : Ld ε Nat :=
  match rd va n with
  | .ok x => .ok x
  | .error e => .error (.read e)

/-- `n` consecutive units of `sz` bytes. -/
def ldReads {ε : Type} (rd : Rd ε) (sz : Nat) (va : W64) : Nat → Ld ε (List Nat)
  | 0 => .ok []
  | n + 1 =>
    match ldRead rd va sz with
    | .error e => .error e
    | .ok x =>
      match ldReads rd sz (va + w64 sz) n with
      | .error e => .error e
      | .ok l => .ok (x :: l)

def refuseIf {ε : Type} (b : Bool) (code idx : Nat) : Ld ε Unit :=
  if b then .error (.refuse code idx) else .ok ()

/-! ### A block image as it stands -/

/-- A node of an image: its words, view and dune, and its format-section word. -/
structure ImgNode where
  words : List Nat
  raw : NRaw
  v : NodeV
  dune : Nat
  fmts : W32

/-- An image: header fields, nodes, and pool contents in words. -/
structure Img where
  amf : Nat
  lmtrap : Bool
  pm1 : Nat
  bid : Nat
  clone : BitVec 128
  nodes : List ImgNode
  hasPool : Bool
  pool : List Nat

/-- Word positions and lengths of the nodes (R105). A node whose LEN is 11, which no node has, counts as one word: the header
is held against the extent before the node is refused (DESIGN CHOICE, notes/assumptions/135.md). -/
def nodeSpans (w : List Nat) : Nat → Nat → List (Nat × Nat)
  | 0, _ => []
  | n + 1, p =>
    let k := if w.getD p 0 % 4 = 3 then 1 else w.getD p 0 % 4 + 1
    (p, k) :: nodeSpans w n (p + k)

/-- The image of a block whose header and extent agree (R103, R105, R106); code 1 otherwise. The padding that R106 says is
zero, before the contents and after them, is not looked at (DESIGN CHOICE, notes/assumptions/49.md). -/
def imageOf (w : List Nat) (blklen litoff : Nat) : Option Img :=
  let h := w.getD 0 0
  let clx := h / 2 ^ 26 % 2
  let nn := h / 64 % 128 + 1
  let spans := nodeSpans w nn (4 + 4 * clx)
  let pos := match spans.getLast? with | some s => s.1 + s.2 | none => 0
  let fa := pos + (nn + 3) / 4
  let fin := fa + nn
  let marker := w.getD litoff 0
  let plen := marker / 64 % 65536
  let ok := if litoff = 0 then blklen = fin
    else litoff = fin && litoff < blklen && marker % 64 = 7 && marker / 2 ^ 22 = 0 && litoff + plen = blklen
  if !ok then none
  else
    let cs := litoff + 1 + (litoff + 1) % 2
    some {
      amf := h / 2 ^ 17 % 256, lmtrap := h / 2 ^ 25 % 2 = 1, pm1 := h / 2 ^ 13 % 16, bid := w.getD 3 0
      clone := if clx = 1 then .ofNat 128 (w.getD 4 0 + 2 ^ 32 * w.getD 5 0 + 2 ^ 64 * w.getD 6 0 + 2 ^ 96 * w.getD 7 0) else 0
      nodes := (spans.zip (List.range nn)).map (fun e =>
        let ws := (w.drop e.1.1).take e.1.2
        let raw := NRaw.ofWords (ws.getD 0 0) (ws.getD 1 0) (ws.getD 2 0)
        { words := ws, raw := raw, v := nodeView raw
          dune := w.getD (pos + e.2 / 4) 0 / 2 ^ (8 * (e.2 % 4)) % 256
          fmts := .ofNat 32 (w.getD (fa + e.2) 0) })
      hasPool := litoff != 0
      pool := if litoff = 0 then [] else w.drop cs }

/-! ### Checks on one node (R111 codes 2 to 4) -/

/-- A tile-slot table entry's fields (R214). -/
def teDune (e : W64) : Nat := fld e 57 7
def teSlot (e : W64) : Nat := fld e 53 4
def teSc (e : W64) : Bool := bit e 52
def tePl (e : W64) : Nat := fld e 48 4
def teFmt (e : W64) : Nat := fld e 40 8
def teCols (e : W64) : Nat := fld e 28 12 + 1
def teRows (e : W64) : Nat := fld e 20 8 + 1
def teBase (e : W64) : Nat := fld e 0 16
def tileEntry (tiles : List W64) (dune slot : Nat) : Option W64 :=
  tiles.find? (fun e => teDune e = dune && teSlot e = slot)

/-- The restrictions of R221 and R224 that look beyond the node: `prev` holds the nodes before it in the
configuration, with their dunes. -/
def nodeContextOk (tiles : List W64) (prev : List (NodeV × Nat)) (x : ImgNode) : Bool :=
  let v := x.v
  match v.op with
  | 0xA3 | 0xA4 =>
    match tileEntry tiles x.dune (v.bits 0 4), tileEntry tiles x.dune (v.bits 4 4) with
    | some a, some b =>
      tePl a = 0 && v.fmt = teFmt a
      && (if v.op = 0xA3 then tePl b = 0 && mmClass (teFmt a) = mmClass (teFmt b) else tePl b != 0)
      && !prev.any (fun p => (p.1.op = 0xA3 || p.1.op = 0xA4) && p.2 = x.dune && p.1.bits 8 1 = v.bits 8 1)
    | _, _ => false
  | 0xAF =>
    if !v.tile then true
    else match tileEntry tiles x.dune (v.bits 7 4) with
      | none => false
      | some e => if v.flag 6 then teSc e else v.fmt = (if tePl e = 0 then teFmt e else 0x00)
  | 0xA6 => !v.flag 0 || !prev.any (fun p => p.1.op = 0xA6 && p.1.flag 0 && p.2 = x.dune && p.1.bits 1 1 = v.bits 1 1)
  | 0xB5 => !prev.any (fun p => p.1.op = 0xB5)
  | 0xAD =>
    -- at most 16 distinct BIDs (R399)
    let bids := (prev.filter (fun p => p.1.op = 0xAD)).map (fun p => p.1.bits 0 8)
    bids.contains (v.bits 0 8) || bids.eraseDups.length < 16
  | _ => true

/-- Ports a node names (R194, R241): ingress or egress. -/
def inPortOf (v : NodeV) : Option Nat := if v.op = 0x80 then some (v.bits 0 6) else none
def outPortOf (v : NodeV) : Option Nat :=
  if v.op = 0x81 then some (v.bits 0 6) else if v.op = 0xB4 then some (v.bits 21 6) else none
def portClash (a b : NodeV) : Bool :=
  ((inPortOf a).isSome && inPortOf a = inPortOf b) || ((outPortOf a).isSome && outPortOf a = outPortOf b)

/-- A pool record of `n` words at POFF (R208, R257). -/
def poolRecOk (m : Img) (v : NodeV) (n : Nat) : Bool := m.hasPool && v.bits 0 12 + n ≤ m.pool.length

/-- A node word whose opcode has an entry among the nodes. -/
def ImgNode.known (x : ImgNode) : Bool := opClass x.raw.op == .node || opClass x.raw.op == .fibre

/-- Every consumer of `v` is a node whose entry satisfies `ok` at the slot named.
A consumer of a reserved opcode has no entry to judge by: it is refused at its own node.
Mark: DEDUCED, log 146. -/
def Img.consumersMeet (m : Img) (v : NodeV) (ok : NodeV → Nat → Bool) : Bool :=
  v.cons.all (fun c => (m.nodes[c.1]?).elim false (fun y => !y.known || ok y.v c.2))

/-- The code that refuses node `x` for its words, or 0. Of a node that breaks both, the fields of its form come first (3), then
its consumers (4), then its format, literal and context (3): R111 does not order the codes of one node (DESIGN CHOICE,
notes/assumptions/135.md). -/
def nodeCode (tiles : List W64) (prev : List (NodeV × Nat)) (m : Img) (here : List NodeV) (x : ImgNode) : Nat :=
  let v := x.v
  let n := x.raw
  if !x.known then 2
  else if n.len = 3 then 3
  else if !n.fields1.all (·.2) || (n.len != 0 && !n.fields2.all (·.2)) then 3
  else if n.len != 0 && !n.consumersOk then 4
  else if !m.consumersMeet v NodeV.defines then 4
  else if v.op = 0x82 && v.den != 0 then 4
  else if v.op = 0xAC && v.flag 4 && 2 ≤ v.cons.length then 4
  else if !v.fmtOk || !v.litWord || !v.consOk then 3
  else if v.onlyO && !m.consumersMeet v NodeV.orders then 3
  else if v.op = 0xA8 && !poolRecOk m v 8 then 3
  else if isFibreOp v.op && !poolRecOk m v 2 then 3
  else if !nodeContextOk tiles (prev ++ (here.zip (m.nodes.map (·.dune)))) x then 3
  else if here.any (fun y => portClash y v) then 3
  else 0

/-- A node's format-section word is out of line with its row, or its literal with the format of slot a (R191, R192, R199). -/
def ImgNode.fmtsBad (x : ImgNode) : Bool := !x.v.slotsOk x.fmts || !x.v.litOk (slotByte x.fmts 0)

/-! ### Edges (R107, R111 codes 5, 7, 8, 9) -/

/-- An edge: producer, place among its consumers, consumer, slot, whether it is a delay line. -/
structure ImgEdge where
  p : Nat
  k : Nat
  c : Nat
  slot : Nat
  delay : Bool

def NodeV.delayed (v : NodeV) (k : Nat) : Bool := v.den / 2 ^ k % 2 = 1
def Img.edges (m : Img) : List ImgEdge :=
  ((List.range m.nodes.length).zip m.nodes).flatMap (fun e =>
    ((List.range e.2.v.cons.length).zip e.2.v.cons).map (fun c =>
      { p := e.1, k := c.1, c := c.2.1, slot := c.2.2, delay := e.2.v.delayed c.1 }))

/-- Whether a node holds state for R71 (R213, R246, R273). -/
def Img.holdsState (m : Img) (i : Nat) : Bool :=
  match m.nodes[i]? with
  | none => false
  | some x =>
    let v := x.v
    let ordered := m.edges.any (fun e => e.c = i && e.slot = 3)
      || v.cons.any (fun c => slotByte ((m.nodes[c.1]?).elim 0 (·.fmts)) c.2 = 0xFE)
    m.edges.any (fun e => e.delay && (e.p = i || e.c = i))
    || (match v.op with
        | 0x80 | 0x81 | 0x9F | 0xA0 | 0xA1 | 0xA2 | 0xB7 | 0xA7 | 0xA8 | 0xAA | 0xAB | 0xAD => true
        | 0xAE => ordered || v.flag 2
        | 0xB3 => ordered || !v.flag 20
        | op => (0xA3 ≤ op && op ≤ 0xA6) || (0xAF ≤ op && op ≤ 0xB6) || isFibreOp op)

/-- Preload values of delay edge number `j` among the delay edges (R105, R106): the values, or none where
the delay table is missing, too short or points outside the pool. Bits [31:16] of a word that are not zero fail the table as
well: code 8 with the edge, not code 3 (DESIGN CHOICE, notes/assumptions/135.md). -/
def Img.preload (m : Img) (j f : Nat) : Option (List (Option W64)) :=
  match m.pool[j]? with
  | none => none
  | some w =>
    let st := w % 16 + 1
    let off := w / 16 % 4096
    if w / 65536 != 0 || 4 * off + packLen f st > 4 * m.pool.length then none
    else
      let bs := (m.pool.drop off).flatMap (fun x => leBytes 4 x)
      some ((List.range st).map (fun i => (unpackAt f bs i).map w64))

/-- The delay edges with their preloads, or the number of the first edge that fails (code 8). -/
def delayEdges (m : Img) : List (Nat × ImgEdge) → Nat → Except Nat (List (ImgEdge × List (Option W64)))
  | [], _ => .ok []
  | (n, e) :: t, j =>
    if !e.delay then delayEdges m t j
    else match m.preload j ((m.nodes[e.p]?).elim 0 (fun x => x.v.outFmt e.k)) with
      | none => .error n
      | some l =>
        match delayEdges m t (j + 1) with
        | .error n => .error n
        | .ok r => .ok ((e, l) :: r)

/-- The first edge that breaks code 5 or 7, edges before it in `seen`. -/
def edgeCode (m : Img) : List (Nat × ImgEdge) → List (Nat × Nat) → Option (Nat × Nat)
  | [], _ => none
  | (n, e) :: t, seen =>
    match m.nodes[e.p]?, m.nodes[e.c]? with
    | some p, some c =>
      let b := slotByte c.fmts e.slot
      if seen.contains (e.c, e.slot) then some (5, e.c)
      else if !(if b = 0xFE then p.v.sendsO else b = p.v.outFmt e.k) then some (7, n)
      else edgeCode m t ((e.c, e.slot) :: seen)
    | _, _ => some (7, n)

/-- Code 5 of a node: a required slot without a producer, all required slots fed by CONST, or a RELN with no
fed slot (R111, R195, R221). -/
def unfed (m : Img) (i : Nat) (x : ImgNode) : Bool :=
  let es := m.edges.filter (fun e => e.c = i)
  let req := x.v.required x.fmts
  req.any (fun k => !es.any (fun e => e.slot = k))
  || (!req.isEmpty && req.all (fun k => es.any (fun e => e.slot = k && (m.nodes[e.p]?).elim 0 (·.v.op) = 0x82)))
  || (x.v.op = 0xB2 && es.isEmpty)

def firstIdx {α : Type} (p : Nat → α → Bool) : Nat → List α → Option Nat
  | _, [] => none
  | n, x :: t => if p n x then some n else firstIdx p (n + 1) t

/-- The first failing node and its code. -/
def firstNode (tiles : List W64) (prev : List (NodeV × Nat)) (m : Img) :
    List NodeV → List ImgNode → Option (Nat × Nat)
  | _, [] => none
  | here, x :: t =>
    match nodeCode tiles prev m here x with
    | 0 => firstNode tiles prev m (here ++ [x.v]) t
    | c => some (c, here.length)

/-- The checks of an image in image order (R111): code and index, or the block. Clone-mask bits above NM1 are ignored, an MR
whose delay edges have more than one stage is refused with the delay table, and among the edges two producers of a slot
and formats come before required slots (DESIGN CHOICE, notes/assumptions/135.md). -/
def checkImage (tiles : List W64) (prev : List (NodeV × Nat)) (m : Img) : Except (Nat × Nat) Block :=
  match firstIdx (fun i _ => m.clone.getLsbD i && m.holdsState i) 0 m.nodes with
  | some i => .error (9, i)
  | none =>
    match firstNode tiles prev m [] m.nodes with
    | some e => .error e
    | none =>
      match firstIdx (fun _ x => 8 * (m.pm1 + 1) ≤ x.dune) 0 m.nodes with
      | some i => .error (6, i)
      | none =>
       match firstIdx (fun _ x => x.fmtsBad) 0 m.nodes with
       | some i => .error (3, i)
       | none =>
        let es := (List.range m.edges.length).zip m.edges
        match delayEdges m es 0 with
        | .error n => .error (8, n)
        | .ok ds =>
          match ds.find? (fun d => d.2.length > 1 && (m.nodes[d.1.p]?).elim false
              (fun x => 0x83 ≤ x.v.op && x.v.op ≤ 0x9C && x.v.op != 0x9D && x.v.bits 12 4 != 0)) with
          | some d => .error (3, d.1.p)
          | none =>
            match edgeCode m es [] with
            | some e => .error e
            | none =>
              match firstIdx (unfed m) 0 m.nodes with
              | some i => .error (5, i)
              | none =>
                .ok { amf := .ofNat 8 m.amf, lmtrap := m.lmtrap, bid := .ofNat 32 m.bid, clone := m.clone
                      pool := m.pool.map (BitVec.ofNat 32)
                      nodes := ((List.range m.nodes.length).zip m.nodes).map (fun e =>
                        { words := e.2.words.map (BitVec.ofNat 32), dune := e.2.dune, fmts := e.2.fmts
                          preload := (ds.filter (fun d => d.1.p = e.1)).map (fun d => (d.1.k, d.2)) }) }

/-- One block at an address (R372 step 2): the block and its nodes with their dunes. -/
def loadBlock {ε : Type} (rd : Rd ε) (pm1 b : Nat) (tiles : List W64) (prev : List (NodeV × Nat)) (va : W64) :
    Ld ε (Block × List (NodeV × Nat)) :=
  match ldReads rd 4 va 4 with
  | .error e => .error e
  | .ok h =>
    let h0 := h.getD 0 0
    let blklen := h.getD 1 0 % 4096
    let litoff := h.getD 2 0 % 65536
    if h0 % 64 != 3 || h0 / 2 ^ 27 != 0 || h.getD 1 0 / 4096 != 0 || h.getD 2 0 / 65536 != 0
        || 4 < h0 / 2 ^ 17 % 8 || 11 < h0 / 2 ^ 13 % 16 || pm1 < h0 / 2 ^ 13 % 16 || blklen < 4 then
      .error (.refuse 1 (8192 * b))
    else match ldReads rd 4 va blklen with
      | .error e => .error e
      | .ok w =>
        match imageOf w blklen litoff with
        | none => .error (.refuse 1 (8192 * b))
        | some m =>
          match checkImage tiles prev m with
          | .error (c, i) => .error (.refuse c (8192 * b + i))
          | .ok bl => .ok (bl, m.nodes.map (fun x => (x.v, x.dune)))

/-- The blocks of a table, in order. -/
def loadBlocks {ε : Type} (rd : Rd ε) (pm1 : Nat) (tiles : List W64) :
    List Nat → Nat → List (NodeV × Nat) → Ld ε (List (Block × List NodeV))
  | [], _, _ => .ok []
  | a :: t, b, prev =>
    match loadBlock rd pm1 b tiles prev (w64 a) with
    | .error e => .error e
    | .ok (bl, ns) =>
      match loadBlocks rd pm1 tiles t (b + 1) (prev ++ ns) with
      | .error e => .error e
      | .ok r => .ok ((bl, ns.map (·.1)) :: r)

/-- R372 step 3: the first node that names a port an earlier block's node names. -/
def crossClash : List (List NodeV) → Nat → List NodeV → Option Nat
  | [], _, _ => none
  | ns :: t, b, seen =>
    match firstIdx (fun _ v => seen.any (fun y => portClash y v)) 0 ns with
    | some i => some (8192 * b + i)
    | none => crossClash t (b + 1) (seen ++ ns)

/-! ### The tile-slot table (R215, R216) -/

/-- Bytes a row occupies in element layout, and the areas of a slot (R215). -/
def teRowBytes (e : W64) : Nat := 64 * ((packLen (teFmt e) (teCols e) + 63) / 64)
def teDataBytes (e : W64) : Nat :=
  if tePl e = 0 then teRows e * teRowBytes e
  else tePl e * teRows e * ((teCols e + 511) / 512 * 64)
def hasBlockScales (f : Nat) : Bool :=
  f = 0x01 || f = 0x02 || f = 0x03 || f = 0x04 || f = 0x08 || f = 0x09 || f = 0x0A || f = 0x0B
def up64 (n : Nat) : Nat := (n + 63) / 64 * 64
def teBlockBytes (e : W64) : Nat :=
  if teSc e && tePl e = 0 && hasBlockScales (teFmt e) then up64 (teRows e * ((teCols e + 63) / 64)) else 0
def teTileBytes (e : W64) : Nat :=
  if teSc e then up64 (4 * (teRows e * ((teCols e + 127) / 128))) else 0
def teBytes (e : W64) : Nat := teDataBytes e + teBlockBytes e + teTileBytes e

/-- A plane pairing R172 allows. -/
def planeOk (f p : Nat) : Bool :=
  (f = 0x01 && 1 ≤ p && p ≤ 8) || (f = 0x0B && 1 ≤ p && p ≤ 4) || (f = 0x07 && p = 2)

/-- Whether an entry fails R216, those before it being `prev`. -/
def tileBad (pm1 : Nat) (prev : List W64) (e : W64) : Bool :=
  teDune e ≥ 8 * (pm1 + 1) || fld e 16 4 != 0 || teBase e % 64 != 0
  || !fmtKnown (teFmt e) || teFmt e = 0x05 || teFmt e = 0x06 || teFmt e = 0x30
  || (tePl e != 0 && !planeOk (teFmt e) (tePl e))
  || (teSc e && teFmt e = 0x00)
  || teBase e + teBytes e > 65536
  || prev.any (fun p => teDune p = teDune e
      && (teSlot p = teSlot e || (teBase p < teBase e + teBytes e && teBase e < teBase p + teBytes p)))

def tileCheck (pm1 : Nat) : List W64 → List W64 → Option Nat
  | [], _ => none
  | e :: t, prev =>
    if tileBad pm1 prev e then some (4096 + 16 * teDune e + teSlot e) else tileCheck pm1 t (prev ++ [e])

/-! ### A configuration descriptor (R371, R372) -/

/-- What a load installs: the blocks and the tile-slot table. -/
structure Kit where
  blocks : List Block
  tiles : List W64

def loadConfig {ε : Type} (rd : Rd ε) (pm1 : Nat) (va : W64) : Ld ε Kit :=
  if va.toNat % 8 != 0 then .error (.refuse 1 8191)
  else match ldReads rd 8 va 4 with
    | .error e => .error e
    | .ok d =>
      let d0 := d.getD 0 0
      let nts := d0 % 2048
      let nb := d0 / 65536 % 256 + 1
      if d0 / 2 ^ 24 != 0 || d0 / 2 ^ 11 % 32 != 0 || d.getD 3 0 != 0 || nb > 16 || nts > 128 * (pm1 + 1)
          || d.getD 1 0 % 8 != 0 || d.getD 2 0 % 8 != 0 then .error (.refuse 1 8191)
      else match ldReads rd 8 (w64 (d.getD 1 0)) nts with
        | .error e => .error e
        | .ok tl =>
          match ldReads rd 8 (w64 (d.getD 2 0)) nb with
          | .error e => .error e
          | .ok bt =>
            let tiles := tl.map w64
            if bt.any (fun a => a % 8 != 0) then .error (.refuse 1 8191)
            else match loadBlocks rd pm1 tiles bt 0 [] with
              | .error e => .error e
              | .ok bs =>
                match crossClash (bs.map (·.2)) 0 [] with
                | some i => .error (.refuse 3 i)
                | none =>
                  match tileCheck pm1 tiles [] with
                  | some i => .error (.refuse 1 i)
                  | none => .ok { blocks := bs.map (·.1), tiles := tiles }

/-- Tile slots after an install (R217): a slot whose entry is unchanged keeps its tag and cursors. -/
def tilesAfter (old : Assoc TileSlot) : List W64 → Assoc TileSlot
  | [] => []
  | e :: t =>
    let k := 16 * teDune e + teSlot e
    Assoc.put (tilesAfter old t) k (match Assoc.find old k with
      | some x => if x.entry = e then x else { entry := e }
      | none => { entry := e })

end Sys2Proof.Machine
end

