-- ==== Sys2Proof/Machine/Ports.lean ====
section
/-! DEFINITION. Shared operations on a region's configuration and ports: installing a configuration (07
R184, R195; 08 R217; 15 R371, R376; 17 R399), starting it (05 R139, R140), ports and their ends (05 R143,
R144; 06 R163, R164, R166; 07 R194). -/
namespace Sys2Proof.Machine

/-! ### The installed configuration -/

def NodeCfg.view (x : NodeCfg) : NodeV :=
  nodeView (.ofWords (x.words.getD 0 0).toNat (x.words.getD 1 0).toNat (x.words.getD 2 0).toNat)

/-- The encoded node `n` of block `b` of a region's installed configuration. -/
def Region.nodeCfg (rg : Region) (b n : Nat) : Option (Block × NodeCfg) :=
  match rg.cfg with
  | none => none
  | some c =>
    match c.blocks[b]? with
    | none => none
    | some bl => (bl.nodes[n]?).map (fun x => (bl, x))

/-- Every installed node with its key 128 × block + index, its block and its view. -/
def Region.allNodes (rg : Region) : List (Nat × Block × NodeCfg × NodeV) :=
  match rg.cfg with
  | none => []
  | some c => ((List.range c.blocks.length).zip c.blocks).flatMap (fun b =>
      ((List.range b.2.nodes.length).zip b.2.nodes).map (fun n => (128 * b.1 + n.1, b.2, n.2, n.2.view)))

/-- The node that reads ingress port `p` of the armed configuration (R143, R166). -/
def Region.inNode (rg : Region) (p : Nat) : Option NodeV :=
  if rg.armedCfg then ((rg.allNodes.find? (fun e => inPortOf e.2.2.2 = some p)).map (·.2.2.2)) else none
/-- The node that feeds egress port `p` (R144, R194, R241). -/
def Region.outNode (rg : Region) (p : Nat) : Option NodeV :=
  if rg.armedCfg then ((rg.allNodes.find? (fun e => outPortOf e.2.2.2 = some p)).map (·.2.2.2)) else none
/-- PAIR of a port's node (R194). -/
def portPair (v : NodeV) : Bool := (v.op = 0x80 || v.op = 0x81) && v.flag 6

/-- The result CODE + 256 × INDEX of a refusal or 0 (R137), and the region afterwards (R376): a refused
load leaves it unarmed. -/
def Region.install (rg : Region) (k : Kit) : Region :=
  let rg' : Region := { rg with cfg := some ⟨k.blocks⟩ }
  { rg' with
    armedCfg := true
    st := .armed
    tslots := tilesAfter rg.tslots k.tiles
    nodes := rg'.allNodes.map (fun e => (e.1, {}))
    granted := []
    bars := ((List.range 256).filter (fun b => rg'.allNodes.any (fun e => e.2.2.2.op = 0xAD && e.2.2.2.bits 0 8 = b))).map
      (fun b => { bid := b }) }
def Region.unarm (rg : Region) : Region := { rg with armedCfg := false, st := .unarmed }

/-! ### RUN -/

/-- Standing token of a CONST node (R195). -/
def constToken (v : NodeV) : Token :=
  { val := if fmtWidth v.fmt = 64 then sext64 (.ofNat 32 v.lit) else w64 (v.lit % 2 ^ fmtWidth v.fmt) }

/-- A preloaded element as a token: an illegal T3 byte carries INV (R32). -/
def preToken : Option W64 → Token
  | some v => { val := v }
  | none => { inv := true }
/-- The slots of a node when RUN starts: delay lines hold their preloads, CONST's consumers a standing token
(R184, R195). -/
def slotAtRun (es : List (NodeV × NodeCfg × Nat)) : Slot :=
  es.foldl (fun s e =>
    if e.1.op = 0x82 then { s with standing := some (constToken e.1) }
    else if e.1.delayed e.2.2 then { s with q := ((e.2.1.preload.find e.2.2).getD []).map preToken }
    else s) {}

/-- The record of AGEN in the block's pool (R208). -/
def agenRec (b : Block) (v : NodeV) : List Nat :=
  ((b.pool.drop (v.bits 0 12)).take 8).map BitVec.toNat
def agenLim (b : Block) (v : NodeV) : W64 :=
  let l := agenRec b v
  w64 (l.getD 6 0 + 2 ^ 32 * l.getD 7 0)

/-- A node's own state at RUN (R202 to R210, R223, R229, R243, R245, R258, R400); a pending bound token
stays (R207). -/
def stateAtRun (b : Block) (v : NodeV) (old : NodeX) : NodeX :=
  match v.op with
  | 0xA7 => .cnt 0 (v.bits 0 16 + 1) (match old with | .cnt _ _ p _ => p | _ => none) 0
  | 0xA8 => .agen (agenLim b v) (match old with | .agen _ p _ => p | _ => none) 0
  | 0x9F => .pfx 0 false
  | 0xA0 | 0xA1 => .sx none none none none none none false
  | 0xA2 => .topk [] 0
  | 0xB7 => .shuf []
  | 0xAA | 0xAB => .group 0 0
  | 0xA3 | 0xA4 => .mm [] [] false [] 0
  | 0xA6 => .drain none 0
  | 0xB5 => .piv none 0
  | 0xB6 => .resid 0 false
  | 0xAD => .bartok false 0
  | op => if isFibreOp op then .fib 0 [] false false else .none

/-- The edges into slot `i` of node `n` of a block: producer's view, configuration and consumer place. -/
def Block.into (b : Block) (n i : Nat) : List (NodeV × NodeCfg × Nat) :=
  b.nodes.flatMap (fun x =>
    let v := x.view
    ((List.range v.cons.length).zip v.cons).filterMap (fun c =>
      if c.2 = (n, i) then some (v, x, c.1) else none))

def Region.nodeAtRun (rg : Region) (b : Block) (key : Nat) (v : NodeV) : NodeSt :=
  let n := key % 128
  { a := slotAtRun (b.into n 0), b := slotAtRun (b.into n 1)
    c := slotAtRun (b.into n 2), d := slotAtRun (b.into n 3)
    x := stateAtRun b v (rg.nodes.get key {}).x }

/-- RUN starts the counter (R139): every port's ended state is cleared (R166), barrier units are idle
(R400). -/
def Region.start (rg : Region) (trips : List Nat) : Region :=
  { rg with
    st := .running, live := true, trips := trips, quiet := 0
    nodes := rg.allNodes.map (fun e => (e.1, rg.nodeAtRun e.2.1 e.1 e.2.2.2))
    bars := rg.bars.map (fun u => { bid := u.bid })
    vin := rg.vin.map (fun e => (e.1, { e.2 with ended := false }))
    vout := rg.vout.map (fun e => (e.1, { e.2 with ended := false })) }

/-! ### Ports -/

/-- A port buffers 16 tokens (R143). -/
def portCap : Nat := 16
def Region.inPort (rg : Region) (p : Nat) : InPort := rg.vin.get p {}
def Region.outPort (rg : Region) (p : Nat) : OutPort := rg.vout.get p {}
/-- A port changes; a token that enters or leaves it ends the quiet the stall sweep counts (R407). -/
def Region.setIn (rg : Region) (p : Nat) (x : InPort) : Region :=
  { rg with vin := rg.vin.put p x, quiet := if (rg.inPort p).q = x.q then rg.quiet else 0 }
def Region.setOut (rg : Region) (p : Nat) (x : OutPort) : Region :=
  { rg with vout := rg.vout.put p x, quiet := if (rg.outPort p).q = x.q then rg.quiet else 0 }
def InPort.room (x : InPort) : Bool := x.q.length < portCap
def OutPort.room (x : OutPort) : Bool := x.q.length < portCap
def InPort.push (x : InPort) (t : Token) : InPort := { x with q := x.q ++ [t] }
def eosToken : Token := { eos := true }

/-- An end-of-stream queued behind commands is sent once they have all gone and the buffer has room
(R166). -/
def InPort.settle (x : InPort) : InPort :=
  match x.close with
  | some [] => if x.room then { x.push eosToken with close := none } else x
  | _ => x
/-- Command `n` of queue `q` of residency `r` has gone: the ends of stream queued behind it no longer wait for it. -/
def Region.gone (rg : Region) (r q n : Nat) : Region :=
  { rg with vin := rg.vin.map (fun e =>
      (e.1, ({ e.2 with close := e.2.close.map (fun l => l.filter (fun c => c != (r, q, n))) } : InPort).settle)) }

/-- A token (or end-of-stream) is sent to an ingress port that a command feeds. -/
def Region.feed (rg : Region) (p : Nat) (t : Token) : Region :=
  let x := rg.inPort p
  rg.setIn p { x.push t with ended := x.ended || t.eos, close := if t.eos then none else x.close }

/-- Whether PORTR finds the egress port bound to a command or held for a queue (R163, R194). -/
def OutPort.taken (x : OutPort) : Bool := x.bound.isSome || x.keep.isSome

/-! ### Commands of a region's queues -/

def Region.eq (rg : Region) (q : Nat) : EngQueue := rg.eqs.getD q {}
def Region.setEq (rg : Region) (q : Nat) (x : EngQueue) : Region :=
  { rg with eqs := listUpd rg.eqs q (fun _ => x) }
def EqEntry.cmd? : EqEntry → Option Cmd
  | .cmd c => some c
  | _ => none
def EngQueue.cmds (x : EngQueue) : List Cmd := x.entries.filterMap EqEntry.cmd?

/-- The ingress and egress ports a command names (R161, R174 to R176). -/
def Cmd.inP (c : Cmd) : Option Nat :=
  match c.op with
  | .sload => some (fld (dw c.desc 8) 0 6)
  | .gather => if fld (dw c.desc 6) 35 1 = 1 then some (fld (dw c.desc 7) 0 6) else none
  | _ => none
def Cmd.outP (c : Cmd) : Option Nat :=
  match c.op with
  | .sstore => some (fld (dw c.desc 8) 0 6)
  | .scatter => if fld (dw c.desc 6) 35 1 = 1 then some (fld (dw c.desc 7) 0 6) else none
  | .mcast => some (fld (dw c.desc 2) 0 6)
  | _ => none
/-- The ingress port of member `me` of the issuer's group that a multicast feeds (R176). -/
def Cmd.fansTo (c : Cmd) (me : Nat) : Option Nat :=
  if c.op = .mcast && fld (dw c.desc 2) (16 + me) 1 = 1 then some (fld (dw c.desc (3 + me / 8)) (8 * (me % 8)) 6 % 64) else none
/-- The ingress port of its issuer's own region that a command feeds, `me` being its member index. -/
def Cmd.ownIn (c : Cmd) (me : Nat) : Option Nat := if c.op = .mcast then c.fansTo me else c.inP
/-- Whether two residencies are members of one group. -/
def Region.mate (a b : Region) : Bool := a.gid.isSome && a.gid = b.gid

/-- The accepted commands that name an ingress port of residency `r`, its own and the multicasts of the other members of
its group (R166, R176). -/
def State.feeders (s : State) (r : Nat) (rg : Region) (p : Nat) : List (Nat × Nat × Nat) :=
  s.regions.flatMap (fun (x : Nat × Region) =>
    if x.1 != r && !x.2.mate rg then []
    else ((List.range 8).zip x.2.eqs).flatMap (fun e =>
      (e.2.cmds.filter (fun c => (if x.1 = r then c.ownIn rg.member else c.fansTo rg.member) = some p)).map (fun c => (x.1, e.1, c.seq))))

/-- A command is cancelled: it ends with CANCEL, elements already moved staying moved; what it has sent still performs, and
a completion word under way is not taken back (R156, R157, R166). -/
def Cmd.cancel (c : Cmd) : Cmd :=
  if c.cwa then c
  else { c with
           op := if c.link.isSome then .chainw else c.op
           status := if c.status = 0 then 4 else c.status, started := true, finished := true
           toks := [], part := [], buf := [], old := [], paused := none, hold := false, mbuf := [], due := none, filled := false }
def Region.cancelWhere (rg : Region) (f : Nat → Cmd → Bool) : Region :=
  { rg with eqs := ((List.range 8).zip rg.eqs).map (fun e =>
      { e.2 with entries := e.2.entries.map (fun x =>
          match x with
          | .cmd c => .cmd (if f e.1 c then c.cancel else c)
          | y => y) }) }

end Sys2Proof.Machine
end

