-- ==== Sys2Proof/Machine/NodeCore.lean ====
section
/-! DEFINITION. Shared operations of nodes: slots and edges (07 R183, R184), the firing rule and its width
(R186, R187), streams that end unevenly (R189), flags (R190), marker reset (R193) and traps precise at a node
(20 R430). -/
namespace Sys2Proof.Machine

/-- A node at work: its region, block and place, its configuration and view, and the state. The region is
kept apart from the state and written back at the end. -/
structure Nd where
  r : Nat
  b : Nat
  n : Nat
  blk : Block
  cfg : NodeCfg
  v : NodeV
  rg : Region
  s : State
  /-- tokens this firing has taken from each slot and sent on each consumer edge (R187) -/
  used : List Nat := [0, 0, 0, 0]
  put : List Nat := [0, 0, 0, 0]

def Nd.key (d : Nd) : Nat := 128 * d.b + d.n
def Nd.st (d : Nd) : NodeSt := d.rg.nodes.get d.key {}
def Nd.upd (d : Nd) (f : NodeSt → NodeSt) : Nd :=
  { d with rg := { d.rg with nodes := d.rg.nodes.put d.key (f d.st) } }
def Nd.setX (d : Nd) (x : NodeX) : Nd := d.upd (fun st => { st with x := x })
def Nd.raise (d : Nd) (f : Flags) : Nd := { d with rg := d.rg.raise f }
/-- The state with the region written back. -/
def Nd.done (d : Nd) : State := d.s.setRg d.r d.rg
/-- The node after a change of the whole state. -/
def Nd.reload (d : Nd) (s : State) : Nd := { d with s := s, rg := (s.rg? d.r).getD d.rg }

/-! ### Slots -/

def NodeSt.slot (x : NodeSt) (i : Nat) : Slot :=
  match i with
  | 0 => x.a
  | 1 => x.b
  | 2 => x.c
  | _ => x.d
def NodeSt.updSlot (x : NodeSt) (i : Nat) (f : Slot → Slot) : NodeSt :=
  match i with
  | 0 => { x with a := f x.a }
  | 1 => { x with b := f x.b }
  | 2 => { x with c := f x.c }
  | _ => { x with d := f x.d }

/-- What a slot offers. -/
inductive Head where
  | missing
  | ended
  | tok (t : Token)

/-- A standing token fills its slot at every firing (R195). -/
def Slot.head (x : Slot) : Head :=
  match x.standing with
  | some t => .tok t
  | none =>
    match x.q with
    | [] => .missing
    | t :: _ => if t.eos then .ended else .tok t
def Slot.pop (x : Slot) : Slot := if x.standing.isSome then x else { x with q := x.q.tail }
def Head.tok? : Head → Option Token
  | .tok t => some t
  | _ => none
def Head.isEnded : Head → Bool
  | .ended => true
  | _ => false
def Head.isMissing : Head → Bool
  | .missing => true
  | _ => false

def Nd.slot (d : Nd) (i : Nat) : Slot := d.st.slot i
def Nd.head (d : Nd) (i : Nat) : Head := (d.slot i).head
def Nd.pop (d : Nd) (i : Nat) : Nd :=
  { d.upd (fun st => st.updSlot i Slot.pop) with used := listUpd d.used i (· + 1) }
/-- Tokens are consumed and the position is counted (R428). -/
def Nd.consume (d : Nd) (l : List Nat) : Nd :=
  let d := l.foldl Nd.pop d
  d.upd (fun st => { st with pos := st.pos + 1 })
def Nd.fmtOf (d : Nd) (i : Nat) : Nat := slotByte d.cfg.fmts i
/-- The required slots of the node. -/
def Nd.req (d : Nd) : List Nat := d.v.required d.cfg.fmts
/-- Whether slot `i` has a producer. -/
def Nd.fed (d : Nd) (i : Nat) : Bool := !(d.blk.into d.n i).isEmpty
def Nd.delayIn (d : Nd) (i : Nat) : Bool := (d.blk.into d.n i).any (fun e => e.1.delayed e.2.2)
/-- The slots the pairing rule covers: standing tokens and delay edges take no part (R189). -/
def Nd.pairs (d : Nd) (l : List Nat) : List Nat :=
  l.filter (fun i => (d.slot i).standing.isNone && !d.delayIn i)

/-! ### Edges -/

/-- Consumer `k` is an order slot (R221). -/
def Nd.isOrder (d : Nd) (k : Nat) : Bool :=
  match d.v.cons[k]? with
  | none => false
  | some (m, i) => match d.blk.nodes[m]? with
    | none => false
    | some x => slotByte x.fmts i = 0xFE
def Nd.places (d : Nd) : List Nat := List.range d.v.cons.length
def Nd.dataPlaces (d : Nd) : List Nat := d.places.filter (fun k => !d.isOrder k)
def Nd.orderPlaces (d : Nd) : List Nat := d.places.filter d.isOrder
/-- The preload of a delay edge. -/
def Nd.preload (d : Nd) (k : Nat) : List (Option W64) := (d.cfg.preload.find k).getD []

/-- Tokens an edge has room for (R184, R187). -/
def Nd.spaceAt (d : Nd) (k : Nat) : Nat :=
  match d.v.cons[k]? with
  | none => 1
  | some (m, i) =>
    Config.edgeCap + (if d.v.delayed k then (d.preload k).length else 0)
      - ((d.rg.nodes.get (128 * d.b + m) {}).slot i).q.length
/-- An edge has room for one token (R184, R186). -/
def Nd.roomAt (d : Nd) (k : Nat) : Bool :=
  0 < d.spaceAt k
def Nd.room (d : Nd) : Bool := d.places.all d.roomAt

/-- A token is sent on consumer edge `k`: a delay edge discards end-of-stream (R184), and takes its first
preload value instead of a result whose markers meet MR (R193). -/
def Nd.sendOn (d : Nd) (mr : BitVec 4) (t : Token) (k : Nat) : Nd :=
  match d.v.cons[k]? with
  | none => d
  | some (m, i) =>
    let t := if d.v.delayed k && t.mks &&& mr != 0 then preToken ((d.preload k).headD (some 0)) else t
    if d.v.delayed k && t.eos then d
    else
      let key := 128 * d.b + m
      let x := d.rg.nodes.get key {}
      { d with
        rg := { d.rg with nodes := d.rg.nodes.put key (x.updSlot i (fun sl => { sl with q := sl.q ++ [t] })) }
        put := listUpd d.put k (· + 1) }
def Nd.sendTo (d : Nd) (l : List Nat) (t : Token) : Nd := l.foldl (fun d k => d.sendOn 0 t k) d
def Nd.emitMr (d : Nd) (mr : BitVec 4) (t : Token) : Nd := d.places.foldl (fun d k => d.sendOn mr t k) d
def Nd.emit (d : Nd) (t : Token) : Nd := d.emitMr 0 t
/-- The node ends: end-of-stream goes to every consumer. -/
def Nd.finish (d : Nd) : Nd := (d.emit eosToken).upd (fun st => { st with ended := true })

/-! ### Traps at a node (R428, R430) -/

/-- The node stops at the position; the trap is raised on the lead. -/
def Nd.trap (d : Nd) (cause : Nat) (eaddr einfo : W64) : Nd :=
  let t : TrapRec := { cause := cause, eaddr := eaddr, einfo := einfo, node := true, blk := d.b, nidx := d.n
                       dune := d.cfg.dune, iter := d.st.pos }
  let d := d.upd (fun st => { st with stopped := some t })
  d.reload (d.done.raise d.r t (.node (d.cfg.dune / 8)))

/-! ### Pairing (R189) -/

/-- One surplus token is discarded and counted; under LMTRAP the node stops at it instead, until a return
with SKIP makes the node follow the non-trapping rule (R189, R432). -/
def Nd.surplus (d : Nd) (i : Nat) : Nd :=
  if d.blk.lmtrap && !d.st.lmOff then d.trap 7 0 (w64 d.rg.lmc.toNat)
  else
    let d := d.pop i
    { d with rg := { d.rg with lmc := if d.rg.lmc = BitVec.allOnes 32 then d.rg.lmc else d.rg.lmc + 1, lms := true } }
/-- The node's operations in progress (R258). -/
def Nd.fops (d : Nd) : Assoc FOp := d.s.fops.filter (fun e => e.2.rid = d.r && e.2.blk = d.b && e.2.nidx = d.n)
/-- The first of these slots with a token to discard loses it. The trap of LMTRAP waits until what the node has begun before it
has completed (R430). -/
def Nd.surplusOf (d : Nd) (l : List Nat) : Option Nd :=
  match l.find? (fun i => (d.head i).tok?.isSome) with
  | none => none
  | some i => if d.blk.lmtrap && !d.st.lmOff && !(d.st.pend.isEmpty && d.fops.isEmpty) then none else some (d.surplus i)

/-- One position of a node that consumes one token from each slot of `req`: ends when every paired slot has
ended, discards surplus tokens, or does `work` on the tokens. -/
def Nd.pairStep (d : Nd) (req : List Nat) (work : Nd → List Token → Option Nd) : Option Nd :=
  let ps := d.pairs req
  if d.st.ended then none
  else if ps.any (fun i => (d.head i).isEnded) then
    if ps.all (fun i => (d.head i).isEnded) then
      (if d.room && d.st.pend.isEmpty then some d.finish else none)
    else d.surplusOf ps
  else
    let ts := req.filterMap (fun i => (d.head i).tok?)
    if ts.length = req.length && d.room then work d ts else none

/-! ### Flags (R190) -/

def orMks (ts : List Token) : BitVec 4 := ts.foldl (fun m t => m ||| t.mks) 0
/-- IX of slot a if present there, else of b, then c. -/
def firstIx (ts : List Token) : Option W32 := ((ts.take 3).filterMap (·.ix)).head?
/-- A result under R190: `f` computes a value and status from the tokens, an INV operand reading as 0. -/
def propagate (fmt : Nat) (ts : List Token) (f : List Token → Nat × Flags) : Token × Flags :=
  let base : Token := { mks := orMks ts, ix := firstIx ts }
  if ts.any (·.bub) then ({ base with bub := true }, 0)
  else if ts.any (·.psn) then ({ base with val := w64 (nanOr0 fmt), psn := true }, 0)
  else
    let inv := ts.any (·.inv)
    let (x, fl) := f (ts.map (fun t => if t.inv then { t with val := 0 } else t))
    ({ base with val := w64 x, inv := inv }, if inv then fl ||| fInvalid else fl)

/-! ### Firing (R187) -/

/-- Lanes of a width class. -/
def laneWidth (mul : Bool) (w : Nat) : Nat :=
  if w ≤ 8 then 256
  else if w = 16 then (if mul then 64 else 128)
  else if w = 32 then (if mul then 16 else 64)
  else if mul then 4 else 32
/-- Per-firing width of a node (R187, R246, R273). -/
def Nd.width (d : Nd) : Nat :=
  let w := fmtWidth d.v.fmt
  match d.v.op with
  | 0x85 | 0x86 | 0x94 | 0x95 => laneWidth true w
  | 0x83 | 0x84 | 0x87 | 0x88 | 0x89 | 0x8A | 0x8B | 0x8C | 0x8D | 0x8E | 0x8F | 0x91 | 0x93 | 0x96 | 0x97 =>
    laneWidth false w
  | 0x90 | 0x92 | 0x98 => laneWidth false (max w (fmtWidth (d.fmtOf 0)))
  | 0x99 | 0x9A | 0x9B | 0x9C | 0xB5 => 4
  | 0x9D => 32
  | 0x9F => 8
  | 0xA0 | 0xA1 | 0xA2 | 0xA6 => 16
  | 0xA3 => 128
  | 0xA4 => 512
  | 0xAE | 0xAF | 0xB0 | 0xB1 | 0xB2 | 0xB3 | 0xB4 => 8
  | op => if isFibreOp op then 8 else 64

/-- Positions a firing may take: SIX and SUN take their width from each input. -/
def Nd.turns (d : Nd) : Nat := if d.v.op = 0xA0 || d.v.op = 0xA1 then 2 * d.width else d.width
/-- The firing granted to `d0` has taken no more from a slot, and sent no more on an edge, than the width, the tokens
and the room there were at the grant (R187); its first position needs no more than being ready. -/
def Nd.within (d0 d : Nd) : Bool :=
  (List.range 4).all (fun i =>
    d.used.getD i 0 ≤ (if (d0.slot i).standing.isSome then d0.width else min d0.width (d0.slot i).q.length))
  && d0.places.all (fun k => d.put.getD k 0 ≤ d0.spaceAt k)

/-- Positions of the firing granted to `d0`: the node goes on while it is ready and not stopped. -/
def Nd.loop (d0 : Nd) : Nat → (Nd → Option Nd) → Nd → Nd
  | 0, _, d => d
  | n + 1, f, d =>
    if d.st.stopped.isSome then d
    else match f d with
      | none => d
      | some d' => if d.used = d0.used && d.put = d0.put || d0.within d' then Nd.loop d0 n f d' else d

/-- A firing ends the quiet that the stall sweep counts (R407), and the dune's grant goes round from it (R187). -/
def Nd.fired (d0 d : Nd) : Nd :=
  if d.rg = d0.rg then d
  else { d with rg := { d.rg with quiet := 0, swept := false, granted := d.rg.granted.put d0.cfg.dune d0.key } }

/-- Runs a node's instruction, seen as `v`, on behalf of the node whose turn it is: one firing of the
positions `f` gives. -/
def runNode (v : NodeV) (s : State) (f : Nd → Option Nd) : Out :=
  match s.agent with
  | .node r b n =>
    match s.rg? r with
    | none => .fault .noSuchAgent
    | some rg =>
      match rg.nodeCfg b n with
      | none => .fault .noSuchAgent
      | some (blk, cfg) =>
        let d : Nd := { r := r, b := b, n := n, blk := blk, cfg := cfg, v := v, rg := rg, s := s }
        .next (d.fired (Nd.loop d d.turns f d)).done
  | _ => .fault .noSuchAgent

/-! ### Drained (R376) -/

/-- The slots of a node that are fed, but not by a delay edge or by CONST (R376, R386). -/
def Block.markerSlots (b : Block) (n : Nat) : List Nat :=
  (List.range 4).filter (fun i => (b.into n i).any (fun (e : NodeV × NodeCfg × Nat) => !e.1.delayed e.2.2 && e.1.op != 0x82))
/-- A configuration has drained (R376): a node without consumers has ended, with end-of-stream on each slot but those
of delay edges and CONST, which never deliver one. -/
def State.drained (s : State) (r : Nat) (rg : Region) : Bool :=
  (rg.allNodes.all (fun (e : Nat × Block × NodeCfg × NodeV) =>
    let st := rg.nodes.get e.1 {}
    !e.2.2.2.cons.isEmpty || e.2.2.2.op = 0x82
      || (st.ended && (e.2.1.markerSlots (e.1 % 128)).all (fun i => (st.slot i).q.head?.elim false (·.eos)))))
  && rg.nodes.all (fun (e : Nat × NodeSt) => e.2.pend.isEmpty)
  && !s.fops.any (fun (e : Nat × FOp) => e.2.rid = r)

end Sys2Proof.Machine
end

