-- ==== Sys2Proof/Machine/NodeElem.lean ====
section
/-! DEFINITION. What one position of a port, constant, element or packed-stream node does (07 R194 to R202). -/
namespace Sys2Proof.Machine

/-! ### Ports and constants (R194, R195) -/

/-- INGR emits the next token of its port; an end-of-stream queued there may then enter the buffer. -/
def Nd.ingr (d : Nd) : Option Nd :=
  let p := d.v.bits 0 6
  let x := d.rg.inPort p
  if d.st.ended || !d.room then none
  else match x.q with
    | [] => none
    | t :: r =>
      let d := { d with rg := d.rg.setIn p ({ x with q := r } : InPort).settle }
      some (if t.eos then d.finish else (d.emit t).consume [])

/-- EGR sends what it consumes to its port, but for bubbles; end-of-stream goes to the port. -/
def Nd.egr (d : Nd) : Option Nd :=
  let p := d.v.bits 0 6
  let x := d.rg.outPort p
  let send := fun (d : Nd) (t : Token) => { d with rg := d.rg.setOut p { x with q := x.q ++ [t] } }
  if d.st.ended || !x.room then none
  else match d.head 0 with
    | .missing => none
    | .ended => some ((send d eosToken).upd (fun st => { st with ended := true }))
    | .tok t => some (if t.bub then d.consume [0] else (send d t).consume [0])

/-- CONST's standing token stands in each consumer slot (R195). -/
def Nd.const (d : Nd) : Option Nd :=
  let t := constToken d.v
  let d' := d.v.cons.foldl (fun (d : Nd) (c : Nat × Nat) =>
    let key := 128 * d.b + c.1
    let x := d.rg.nodes.get key {}
    { d with rg := { d.rg with nodes := d.rg.nodes.put key (x.updSlot c.2 (fun sl => { sl with standing := some t })) } }) d
  if d'.rg.nodes = d.rg.nodes then none else some d'

/-! ### Element nodes (R190, R193, R196 to R199) -/

/-- A value read by the signedness of its format (R196). -/
def elemVal (f x : Nat) : Int :=
  if f = 0x21 then sval 64 x
  else match fmtInt f with
    | some true => sval (fmtWidth f) x
    | _ => ((x % 2 ^ fmtWidth f : Nat) : Int)

/-- The exact result of an integer node, before it is fitted to the format (R196). -/
def intExact (op f a b c : Nat) : Int :=
  let w := fmtWidth f
  let x := elemVal f a
  let y := elemVal f b
  let ua := a % 2 ^ w
  let ub := b % 2 ^ w
  match op with
  | 0x83 => x + y
  | 0x84 => x - y
  | 0x85 => x * y
  | 0x86 => x * y + elemVal f c
  | 0x87 => if y < x then y else x
  | 0x88 => if x < y then y else x
  | 0x89 => x.natAbs
  | 0x8A => ((ua &&& ub : Nat) : Int)
  | 0x8B => ((ua ||| ub : Nat) : Int)
  | 0x8C => ((ua ^^^ ub : Nat) : Int)
  | 0x8D => x * ((2 ^ (ub % w) : Nat) : Int)
  | 0x8E => ((ua / 2 ^ (ub % w) : Nat) : Int)
  | _ => x / ((2 ^ (ub % w) : Nat) : Int)

/-- R196: clamped for FX64 and under SAT, else wrapped. -/
def intFit (f : Nat) (sat : Bool) (x : Int) : Nat × Flags :=
  let (lo, hi) := intRange f
  let c := if x < lo then lo else if x > hi then hi else x
  let w := fmtWidth f
  if f = 0x21 then (ubits w c, if c = x then 0 else fOverflow)
  else if sat then (ubits w c, if c = x then 0 else fSaturated)
  else (ubits w x, 0)

/-- The value bits of token `i`. -/
def tval (ts : List Token) (i : Nat) : Nat := (ts.getD i {}).val.toNat

/-- Element nodes share this position: the tokens are consumed and the result sent, with OPT's marker
reset. -/
def Nd.elem (d : Nd) (f : Nd → List Token → Nat × Flags) : Option Nd :=
  d.pairStep d.req (fun d ts =>
    let (t, fl) := propagate d.v.fmt ts (f d)
    some (((d.consume d.req).raise fl).emitMr (.ofNat 4 (d.v.bits 12 4)) t))

def Nd.intNode (d : Nd) : Option Nd :=
  d.elem (fun d ts => intFit d.v.fmt (d.v.flag 11) (intExact d.v.op d.v.fmt (tval ts 0) (tval ts 1) (tval ts 2)))

/-- CMP (R197). -/
def intCond (c f a b : Nat) : Bool :=
  let x := elemVal f a
  let y := elemVal f b
  let ua := a % 2 ^ fmtWidth f
  let ub := b % 2 ^ fmtWidth f
  match c with
  | 0 => ua = ub
  | 1 => ua != ub
  | 2 => x < y
  | 3 => x ≤ y
  | 4 => y < x
  | 5 => y ≤ x
  | 6 => ua < ub
  | 7 => ua ≤ ub
  | 8 => ub < ua
  | _ => ub ≤ ua
def Nd.cmpNode (d : Nd) : Option Nd :=
  d.elem (fun d ts => (if intCond (d.v.bits 0 5) (d.fmtOf 0) (tval ts 0) (tval ts 1) then 1 else 0, 0))
/-- SEL (R197). -/
def Nd.selNode (d : Nd) : Option Nd :=
  d.elem (fun d ts => ((if tval ts 0 % 256 != 0 then tval ts 1 else tval ts 2) % 2 ^ fmtWidth d.v.fmt, 0))

/-- The block's arithmetic mode, with RMF in place of RM where RMO is 1 (R193, R198). -/
def Nd.mode (d : Nd) : Mode :=
  let m := Mode.ofAmf d.blk.amf.toNat
  if d.v.flag 10 then { m with rm := d.v.bits 7 3 } else m

/-- FADD, FMUL, FMA, FMIN, FMAX (R45, R198); the INEXACT of a flush by FTZ (R44) is no status of FMIN or FMAX
themselves (notes/assumptions/121.md). -/
def fltOp (op f : Nat) (m : Mode) (a b c : Nat) : Nat × Flags :=
  let x := dazVal f m.daz a
  let y := dazVal f m.daz b
  match op with
  | 0x93 => flush f m.ftz (fAdd f m.rm x y)
  | 0x94 => flush f m.ftz (fMul f m.rm x y)
  | 0x95 => flush f m.ftz (fFma f m.rm x y (dazVal f m.daz c))
  | 0x96 => flush f m.ftz ((convert (fMin x y) f 0 {} 0).1, 0)
  | _ => flush f m.ftz ((convert (fMax x y) f 0 {} 0).1, 0)
def Nd.fltNode (d : Nd) : Option Nd :=
  d.elem (fun d ts => fltOp d.v.op d.v.fmt d.mode (tval ts 0) (tval ts 1) (tval ts 2))
/-- FCMP (R198). -/
def fltCond (c f : Nat) (daz : Bool) (a b : Nat) : Bool :=
  let x := dazVal f daz a
  let y := dazVal f daz b
  match c with
  | 0 => x.eq y
  | 1 => !x.eq y
  | 2 => x.lt y
  | 3 => x.lt y || x.eq y
  | 4 => y.lt x
  | _ => y.lt x || x.eq y
def Nd.fcmpNode (d : Nd) : Option Nd :=
  d.elem (fun d ts => (if fltCond (d.v.bits 0 5) (d.fmtOf 0) d.mode.daz (tval ts 0) (tval ts 1) then 1 else 0, 0))
/-- FRCP, FRSQ, FEXP2, FLOG2 (R45). -/
def specialOp (op : Nat) (m : Mode) (a : Nat) : Nat × Flags :=
  let x := dazVal 0x18 m.daz a
  flush 0x18 m.ftz (match op with
    | 0x99 => fRcp m.rm x
    | 0x9A => fRsq m.rm x
    | 0x9B => fExp2 m.rm x
    | _ => fLog2 m.rm x)
def Nd.specialNode (d : Nd) : Option Nd :=
  d.elem (fun d ts => specialOp d.v.op d.mode (tval ts 0))

/-- The magnitude of a value. -/
def Val.abs : Val → Val
  | .nan => .nan
  | .inf _ => .inf false
  | .fin _ m e => .fin false m e
/-- A value times 2^k. -/
def Val.scale (x : Val) (k : Int) : Val :=
  match x with
  | .fin n m e => .fin n m (e + k)
  | y => y
/-- CVT (R199): from `sf` to `df`. -/
def cvtOp (sf df : Nat) (m : Mode) (bsc : Bool) (anchor : Int) (a : Nat) (s : Byte) : Nat × Flags :=
  let x := if sf = 0x21 then fmtVal sf anchor a else dazVal sf m.daz a
  let (x, fl) : Val × Flags :=
    if bsc then (if s = 255 then (.nan, fInvalid) else (x.scale ((s.toNat : Int) - 127), 0)) else (x, 0)
  let r := flush df m.ftz (convert x df m.rm m anchor)
  (r.1, r.2 ||| fl)
def Nd.cvtNode (d : Nd) : Option Nd :=
  d.elem (fun d ts =>
    cvtOp (d.fmtOf 0) d.v.fmt d.mode (d.v.flag 5) d.v.anchor (tval ts 0) (ts.getD 0 {}).s)

/-! ### Packed streams (R200 to R202) -/

/-- A list of tokens is sent, the last with these markers. -/
def Nd.emitRun (d : Nd) (l : List Token) (mk : BitVec 4) : Nd :=
  ((List.range l.length).zip l).foldl (fun d e =>
    d.emit { e.2 with mks := if e.1 + 1 = l.length then mk else 0 }) d

/-- Digit `i` of a T3 byte as an I8 value (R32, R200). -/
def t3Digit (x i : Nat) : Nat :=
  let q := x * (([65536, 21846, 7282, 2428, 810] : List Nat).getD i 0) / 65536
  match q - 3 * (q * 21846 / 65536) with
  | 0 => 0
  | 1 => 1
  | _ => 255
def Nd.unpk3 (d : Nd) : Option Nd :=
  d.pairStep d.req (fun d ts =>
    let t := ts.getD 0 {}
    let d := d.consume d.req
    if t.bub then some (d.emit { mks := t.mks, bub := true })
    else
      let x := t.val.toNat % 256
      let last := d.v.bits 0 3
      let n := if t.mks.getLsbD 0 && 1 ≤ last then last else 5
      if t.psn then some (d.emitRun (List.replicate n { psn := true }) t.mks)
      else if 243 ≤ x then some ((d.raise fInvalid).emitRun (List.replicate n { inv := true }) t.mks)
      else some (d.emitRun ((List.range n).map (fun i => { val := w64 (t3Digit x i) })) t.mks))

/-- BMAND (R201). -/
def bitmapOp (mode a b : Nat) : Nat :=
  match mode with
  | 0 => a % 2 ^ 32 &&& b % 2 ^ 32
  | 1 => a % 2 ^ 32 &&& (2 ^ 32 - 1 - b % 2 ^ 32)
  | _ => a % 2 ^ 32 ||| b % 2 ^ 32
def Nd.bmand (d : Nd) : Option Nd :=
  d.pairStep d.req (fun d ts =>
    let (t, fl) := propagate d.v.fmt ts (fun ts => (bitmapOp (d.v.bits 0 2) (tval ts 0) (tval ts 1), 0))
    let t := if t.bub then t else { t with ix := some (.ofNat 32 (popCount 32 t.val.toNat)) }
    some (((d.consume d.req).raise fl).emit t))

/-- The offsets of a select word's bits into a mask's packed values (R202). -/
def prefixOffsets (base m sel : Nat) : List Nat :=
  ((List.range 32).filter (fun p => sel / 2 ^ p % 2 = 1)).map (fun p => (base + popCount p m) % 2 ^ 32)
def Nd.pfxpop (d : Nd) : Option Nd :=
  d.pairStep d.req (fun d ts =>
    let a := ts.getD 0 {}
    let b := ts.getD 1 {}
    let (base, bad) := match d.st.x with
      | .pfx x p => (x.toNat, p)
      | _ => (0, false)
    let word := fun (t : Token) => if t.bub || t.inv then 0 else t.val.toNat % 2 ^ 32
    let mk := a.mks ||| b.mks
    let inv := a.inv || b.inv
    let psn := a.psn || b.psn || bad
    let l := prefixOffsets base (word a) (word b)
    let d := (d.consume d.req).raise (if inv then fInvalid else 0)
    let d := if !l.isEmpty then d.emitRun (l.map (fun x => { val := w64 x, psn := psn, inv := inv })) mk
      else if mk != 0 then d.emit { mks := mk, bub := true, psn := psn, inv := inv }
      else d
    some (d.setX (if mk &&& .ofNat 4 (d.v.bits 0 4) != 0 then .pfx 0 false
      else .pfx (.ofNat 32 (base + popCount 32 (word a))) (bad || a.psn))))

end Sys2Proof.Machine
end

