-- ==== Sys2Proof/Machine/NodeFlow.lean ====
section
/-! DEFINITION. What one position of a sorted-stream, ranking, permuting, counting or routing node does (07
R203 to R212; 17 R399, R400). -/
namespace Sys2Proof.Machine

/-! ### SIX and SUN (R203, R204) -/

/-- The state of a sorted-stream node: of each input, its last key and its segment's end; tokens held back;
whether the segment has taken a token. -/
structure Sx where
  ka : Option Int := none
  kb : Option Int := none
  ea : Option (BitVec 4) := none
  eb : Option (BitVec 4) := none
  hx : Option Token := none
  hy : Option Token := none
  opened : Bool := false

def Nd.sx (d : Nd) : Sx :=
  match d.st.x with
  | .sx ka kb ea eb hx hy o => ⟨ka, kb, ea, eb, hx, hy, o⟩
  | _ => {}
def Nd.setSx (d : Nd) (x : Sx) : Nd := d.setX (.sx x.ka x.kb x.ea x.eb x.hx x.hy x.opened)
def Nd.segm (d : Nd) (lo : Nat) : BitVec 4 := .ofNat 4 (d.v.bits lo 4)

def Sx.last (x : Sx) (i : Nat) : Option Int := if i = 0 then x.ka else x.kb
def Sx.endOf (x : Sx) (i : Nat) : Option (BitVec 4) := if i = 0 then x.ea else x.eb
def Sx.setEnd (x : Sx) (i : Nat) (m : BitVec 4) : Sx := if i = 0 then { x with ea := some m } else { x with eb := some m }
def Sx.setKey (x : Sx) (i : Nat) (k : Int) : Sx := if i = 0 then { x with ka := some k } else { x with kb := some k }
/-- A token of input `i` has been taken: its markers may end the input's segment. -/
def Sx.took (x : Sx) (i : Nat) (segm mk : BitVec 4) : Sx :=
  let x := { x with opened := true }
  if mk &&& segm != 0 then x.setEnd i mk else x
/-- An input at end-of-stream has finished its segment. -/
def Nd.sxEnds (d : Nd) (x : Sx) : Sx :=
  let f := fun (x : Sx) (i : Nat) => if (x.endOf i).isNone && (d.head i).isEnded then x.setEnd i 0 else x
  f (f x 0) 1
/-- The key of a token: its value, or its coordinate (R203). -/
def Nd.sxKey (d : Nd) (t : Token) : Option Int :=
  if d.v.flag 4 then t.ix.map (fun x => (x.toNat : Int)) else some (elemVal d.v.fmt t.val.toNat)
/-- Why a head is not compared: a bubble, or a missing or non-rising key. -/
inductive SxHead where
  | bubble
  | bad
  | key (k : Int)
def Nd.sxHead (d : Nd) (x : Sx) (i : Nat) (t : Token) : SxHead :=
  if t.bub then .bubble
  else match d.sxKey t with
    | none => .bad
    | some k => match x.last i with
      | some l => if k ≤ l then .bad else .key k
      | none => .key k
/-- Takes the head of input `i`, uncounted. -/
def Nd.sxTake (d : Nd) (x : Sx) (i : Nat) (t : Token) : Nd :=
  (d.consume [i]).setSx (x.took i (d.segm 0) t.mks)
/-- Discards the head of input `i`, counted; its markers still count (R203). -/
def Nd.sxDrop (d : Nd) (x : Sx) (i : Nat) (t : Token) : Nd :=
  let d' := d.surplus i
  if d'.st.stopped.isSome then d' else d'.setSx (x.took i (d.segm 0) t.mks)
/-- The held pair goes out: x to C1 and C3, y to C2 and C4. -/
def Nd.sxPair (d : Nd) (x : Sx) (m : BitVec 4) : Nd :=
  match x.hx, x.hy with
  | some a, some b => (d.sendTo [0, 2] { a with mks := a.mks ||| m }).sendTo [1, 3] { b with mks := b.mks ||| m }
  | _, _ => d

def Nd.six (d : Nd) : Option Nd :=
  let x := d.sx
  if d.st.ended || !d.room then none
  else if !x.opened && ((d.head 0).isEnded || (d.head 1).isEnded) then
    if (d.head 0).isEnded && (d.head 1).isEnded then some d.finish
    else
      let j := if (d.head 0).isEnded then 1 else 0
      match d.head j with
      | .tok _ => some (if d.segm 0 != 0 then d.surplus j else d.pop j)
      | _ => none
  else
    let x := if x.opened then d.sxEnds x else x
    match x.ea, x.eb with
    | some a, some b =>
      some ((if x.hx.isSome then d.sxPair x (a ||| b) else d.emit { mks := a ||| b, bub := true }).setSx {})
    | some _, none => match d.head 1 with | .tok t => some (d.sxTake x 1 t) | _ => none
    | none, some _ => match d.head 0 with | .tok t => some (d.sxTake x 0 t) | _ => none
    | none, none =>
      match d.head 0, d.head 1 with
      | .tok s, .tok t =>
        match d.sxHead x 0 s, d.sxHead x 1 t with
        | .bubble, _ => some (d.sxTake x 0 s)
        | .bad, _ => some (d.sxDrop x 0 s)
        | _, .bubble => some (d.sxTake x 1 t)
        | _, .bad => some (d.sxDrop x 1 t)
        | .key k, .key l =>
          if k < l then some (d.sxTake (x.setKey 0 k) 0 s)
          else if l < k then some (d.sxTake (x.setKey 1 l) 1 t)
          else
            let m := d.segm 0
            let d := (d.sxPair x 0).consume [0, 1]
            some (d.setSx ({ ((((x.setKey 0 k).setKey 1 l).took 0 m s.mks).took 1 m t.mks) with hx := some s, hy := some t }))
      | _, _ => none

/-- The token SUN emits for a key on both inputs (R204). -/
def sunMerge (cmb f : Nat) (m : Mode) (a b : Token) : Token × Flags :=
  if cmb = 0 then (a, 0)
  else if cmb = 1 then (b, 0)
  else
    let op := if cmb = 2 then (if fmtIsFLT f then 0x93 else 0x83) else if cmb = 3 then (if fmtIsFLT f then 0x96 else 0x87)
      else if fmtIsFLT f then 0x97 else 0x88
    let (t, fl) := propagate f [a, b] (fun ts =>
      if fmtIsFLT f then fltOp op f m (tval ts 0) (tval ts 1) 0 else intFit f false (intExact op f (tval ts 0) (tval ts 1) 0))
    ({ a with val := t.val, psn := t.psn, inv := t.inv }, fl)

/-- The held token goes out before another one; a segment's end markers wait for its last token. -/
def Nd.sunPut (d : Nd) (x : Sx) (t : Token) : Nd × Sx :=
  (match x.hx with
   | some h => d.emit { h with mks := h.mks &&& ~~~ d.segm 0 }
   | none => d, { x with hx := some t, opened := true })
/-- Takes the head of input `i` into the union. -/
def Nd.sunTake (d : Nd) (x : Sx) (i : Nat) (t : Token) (k : Int) : Nd :=
  let (d, y) := d.sunPut (x.setKey i k) t
  (d.consume [i]).setSx (y.took i (d.segm 0) t.mks)

def Nd.sun (d : Nd) : Option Nd :=
  let x := d.sx
  if d.st.ended || !d.room then none
  else if (d.head 0).isMissing && x.ea.isNone || (d.head 1).isMissing && x.eb.isNone then none
  else if !x.opened && (d.head 0).isEnded && (d.head 1).isEnded then some d.finish
  else
    let x := d.sxEnds x
    let one := fun (i : Nat) (t : Token) => match d.sxHead x i t with
      | .bubble => d.sxTake x i t
      | .bad => d.sxDrop x i t
      | .key k => d.sunTake x i t k
    match x.ea, x.eb with
    | some a, some b =>
      some ((match x.hx with
        | some h => d.emit { h with mks := h.mks &&& ~~~ d.segm 0 ||| (a ||| b) }
        | none => d.emit { mks := a ||| b, bub := true }).setSx {})
    | some _, none => match d.head 1 with | .tok t => some (one 1 t) | _ => none
    | none, some _ => match d.head 0 with | .tok t => some (one 0 t) | _ => none
    | none, none =>
      match d.head 0, d.head 1 with
      | .tok s, .tok t =>
        match d.sxHead x 0 s, d.sxHead x 1 t with
        | .bubble, _ | .bad, _ => some (one 0 s)
        | _, .bubble | _, .bad => some (one 1 t)
        | .key k, .key l =>
          if k < l then some (one 0 s)
          else if l < k then some (one 1 t)
          else
            let (u, fl) := sunMerge (d.v.bits 5 3) d.v.fmt (Mode.ofAmf d.blk.amf.toNat) s t
            let m := d.segm 0
            let (d, y) := d.sunPut ((x.setKey 0 k).setKey 1 l) u
            some (((d.raise fl).consume [0, 1]).setSx ((y.took 0 m s.mks).took 1 m t.mks))
      | _, _ => none

/-! ### TOPK (R205) -/

/-- Whether a token ranks above +Inf. -/
def topNaN (f : Nat) (t : Token) : Bool := t.psn || fmtVal f 0 t.val.toNat == .nan
/-- Strictly higher rank. -/
def rankAbove (f : Nat) (sgn : Bool) (a b : Token) : Bool :=
  let v := fun (t : Token) => let x := fmtVal f 0 t.val.toNat; if sgn then x else x.abs
  if topNaN f a then !topNaN f b
  else if topNaN f b then false
  else (v b).lt (v a)
/-- Insertion by descending rank, then rising coordinate, then arrival. -/
def topInsert (f : Nat) (sgn : Bool) (e : Token × W32) : List (Token × W32) → List (Token × W32)
  | [] => [e]
  | x :: l =>
    if rankAbove f sgn e.1 x.1 || (!rankAbove f sgn x.1 e.1 && e.2 < x.2) then e :: x :: l
    else x :: topInsert f sgn e l
def Nd.topSet (d : Nd) : List (Token × W32) × Nat :=
  match d.st.x with
  | .topk s p => (s, p)
  | _ => ([], 0)
/-- The segment's tokens go out with its markers. -/
def Nd.topOut (d : Nd) (l : List (Token × W32)) (mk : BitVec 4) : Nd :=
  (d.emitRun (l.map (fun e => { e.1 with ix := some e.2 })) mk).setX (.topk [] 0)
def Nd.topk (d : Nd) : Option Nd :=
  let (l, p) := d.topSet
  if d.st.ended || !d.room then none
  else match d.head 0 with
    | .missing => none
    | .ended => some (d.topOut l 0).finish
    | .tok t =>
      let d := d.consume [0]
      let (l, p) :=
        if t.bub then (l, p)
        else if d.v.flag 12 && topNaN d.v.fmt t then (l, p + 1)
        else ((topInsert d.v.fmt (d.v.flag 13) (t, t.ix.getD (.ofNat 32 p)) l).take (d.v.bits 0 8 + 1), p + 1)
      if t.mks &&& d.segm 8 != 0 then
        some (if l.isEmpty then (d.emit { mks := t.mks, bub := true }).setX (.topk [] 0) else d.topOut l t.mks)
      else some (d.setX (.topk l p))

/-! ### SHUF (R206) -/

def shufPi (mode g rot i : Nat) : Nat :=
  match mode with
  | 0 => g - 1 - i
  | 1 => (i + rot) % g
  | 2 => i ^^^ rot
  | 3 => i / 2 + i % 2 * (g / 2)
  | _ => if i < g / 2 then 2 * i else 2 * (i - g / 2) + 1
/-- A group permuted, padded with bubbles. -/
def Nd.shufOut (d : Nd) (l : List Token) : Nd :=
  let g := 2 ^ d.v.bits 3 3
  ((List.range g).map (fun i => l.getD (shufPi (d.v.bits 0 3) g (d.v.bits 6 6) i) { bub := true }) |> d.emitRun) (orMks l)
    |>.setX (.shuf [])
def Nd.shuf (d : Nd) : Option Nd :=
  let l := match d.st.x with | .shuf l => l | _ => []
  if d.st.ended || !d.room then none
  else match d.head 0 with
    | .missing => none
    | .ended => some (if l.isEmpty then d.finish else (d.shufOut l).finish)
    | .tok t =>
      let d := d.consume [0]
      let l := l ++ [t]
      some (if l.length = 2 ^ d.v.bits 3 3 || t.mks != 0 then d.shufOut l else d.setX (.shuf l))

/-! ### CNT and AGEN (R185, R207, R208) -/

/-- Index `k` of region iteration `i`. -/
def iterIdx (trips : List Nat) (i k : Nat) : Nat :=
  let t := fun j => trips.getD j 1
  match k with
  | 0 => i % t 0
  | 1 => i / t 0 % t 1
  | 2 => i / (t 0 * t 1) % t 2
  | _ => i / (t 0 * t 1 * t 2)
def iterCount (trips : List Nat) : Nat := trips.getD 0 1 * trips.getD 1 1 * trips.getD 2 1 * trips.getD 3 1
/-- Markers of a region iteration (R185). -/
def iterMks (trips : List Nat) (i : Nat) : BitVec 4 :=
  (List.range 4).foldl (fun m k => if iterIdx trips i k + 1 = trips.getD k 1 then m ||| (1#4 <<< k) else m) 0

/-- MODE 0 of CNT: one step with the step's markers. -/
def Nd.cntStep (d : Nd) (mk : BitVec 4) (bub : Bool) (c t : Nat) (bound : Option Nat) (it : Nat) : Nd :=
  let (t, bound) : Nat × Option Nat := match c, bound with
    | 0, some v => (v, none)
    | _, b => (t, b)
  let last := c + 1 = t
  let mk := if last then mk ||| (1#4 <<< d.v.bits 16 2) else mk
  (d.emit (if bub then { mks := mk, bub := true } else { val := w64 (c % 2 ^ fmtWidth d.v.fmt), mks := mk })).setX
    (.cnt (if last then 0 else c + 1) t bound it)
def Nd.cnt (d : Nd) : Option Nd :=
  let (c, t, bound, it) : Nat × Nat × Option Nat × Nat := match d.st.x with
    | .cnt c t b i => (c, t, b, i)
    | _ => (0, d.v.bits 0 16 + 1, none, 0)
  if d.st.ended || !d.room then none
  else if d.v.flag 18 then
    match d.head 0 with
    | .missing => none
    | .ended => some d.finish
    | .tok k => some ((d.consume [0]).cntStep k.mks k.bub c t bound it)
  else if iterCount d.rg.trips ≤ it then some d.finish
  else
    let mk := iterMks d.rg.trips it
    let d := d.consume []
    if d.v.flag 19 then
      some ((d.emit { val := w64 (iterIdx d.rg.trips it (d.v.bits 16 2) % 2 ^ fmtWidth d.v.fmt), mks := mk }).setX
        (.cnt c t bound (it + 1)))
    else some (d.cntStep mk false c t bound (it + 1))

/-- The value of AGEN at a region iteration. -/
def agenVal (l : List Nat) (trips : List Nat) (it w : Nat) : Nat :=
  let base : Int := ((l.getD 0 0 + 2 ^ 32 * l.getD 1 0 : Nat) : Int)
  ubits w ((List.range 4).foldl (fun s k => s + sval 32 (l.getD (2 + k) 0) * (iterIdx trips it k : Int)) base)
def Nd.agen (d : Nd) : Option Nd :=
  let (lim, bound, it) : W64 × Option Nat × Nat := match d.st.x with
    | .agen l b i => (l, b, i)
    | _ => (agenLim d.blk d.v, none, 0)
  if d.st.ended || !d.room then none
  else if iterCount d.rg.trips ≤ it then some d.finish
  else
    let (lim, bound) : W64 × Option Nat := match bound with
      | some v => if iterIdx d.rg.trips it 0 = 0 then (w64 v, none) else (lim, bound)
      | none => (lim, none)
    let x := agenVal (agenRec d.blk d.v) d.rg.trips it (fmtWidth d.v.fmt)
    let mk := iterMks d.rg.trips it
    some (((d.consume []).emit (if lim != 0 && lim.toNat ≤ x then { mks := mk, bub := true } else { val := w64 x, mks := mk })).setX
      (.agen lim bound (it + 1)))

/-! ### JOIN, SPLIT, MERGE, STEER (R209 to R211) -/

def Nd.join (d : Nd) : Option Nd :=
  d.pairStep d.req (fun d ts =>
    let (t, fl) := propagate d.v.fmt ts (fun ts => (tval ts (d.v.bits 0 2) % 2 ^ fmtWidth d.v.fmt, 0))
    some (((d.consume d.req).raise fl).emit t))

def Nd.group (d : Nd) : Nat × Nat :=
  match d.st.x with
  | .group t c => (t, c)
  | _ => (0, 0)
/-- The group position after a token, over `n` consumers or slots. -/
def groupNext (g n : Nat) (x : Nat × Nat) : NodeX :=
  if x.2 + 1 < g then .group x.1 (x.2 + 1) else .group ((x.1 + 1) % n) 0
def Nd.split (d : Nd) : Option Nd :=
  d.pairStep d.req (fun d ts =>
    let x := d.group
    some (((d.consume d.req).sendTo [x.1] (ts.getD 0 {})).setX (groupNext (d.v.bits 0 6 + 1) d.v.cons.length x)))

/-- Whether slot `i` holds a whole group, or the last tokens of its stream. -/
def Nd.holdsGroup (d : Nd) (g i : Nat) : Bool :=
  let q := (d.slot i).q
  !(d.head i).isEnded && (g ≤ q.length || q.any (·.eos))
/-- A free choice of one of these. -/
def pickFree (ix : Nat) : List Nat → Option Nat
  | [] => none
  | [i] => some i
  | i :: l => if Config.choice (ix * 65536 + i) then some i else pickFree ix l
def Nd.merge (d : Nd) : Option Nd :=
  let req := d.req
  let g := d.v.bits 0 6 + 1
  let (turn, c) := d.group
  let take := fun (i : Nat) => match d.head i with
    | .tok t => some (((d.consume [i]).emit t).setX
        (if d.v.flag 6 then (if c + 1 < g then .group i (c + 1) else .group i 0) else groupNext g req.length (turn, c)))
    | _ => none
  if d.st.ended then (if d.v.flag 6 then none else d.surplusOf (d.pairs req))
  else if !d.room then none
  else if !d.v.flag 6 then
    if (d.head turn).isEnded then some d.finish else take turn
  else if c != 0 then
    if (d.head turn).isEnded then some (d.setX (.group turn 0)) else take turn
  else if req.all (fun i => (d.head i).isEnded) then some d.finish
  else match pickFree (d.s.freeIx + d.st.pos) (req.filter (d.holdsGroup g)) with
    | none => none
    | some i => take i

def Nd.steer (d : Nd) : Option Nd :=
  d.pairStep d.req (fun d ts =>
    let t := ts.getD 0 {}
    let m : BitVec 4 := .ofNat 4 (d.v.bits 0 4)
    let yes := if m = 0 then !(ts.getD 1 {}).bub && tval ts 1 % 256 != 0 else t.mks &&& m != 0
    let d := d.consume d.req
    some (if yes then d.sendTo [0, 2] t else if d.v.flag 4 then d else d.sendTo [1, 3] t))

/-! ### BARTOK (R212, R399, R400) -/

/-- The participants of a barrier: the BARTOK nodes with its BID, as (block, node). -/
def Region.participants (rg : Region) (bid : Nat) : List (Nat × Nat) :=
  (rg.allNodes.filter (fun e => e.2.2.2.op = 0xAD && e.2.2.2.bits 0 8 = bid)).map (fun e => (e.1 / 128, e.1 % 128))
/-- The unit releases an episode when every participant that has not left has offered. -/
def BarUnit.test (u : BarUnit) (ps : List (Nat × Nat)) : BarUnit :=
  let rest := ps.filter (fun p => !u.left.contains p)
  if !rest.isEmpty && rest.all (fun p => u.offers.contains p) then
    { u with episode := u.episode + 1, go := u.go ++ u.offers, offers := [] }
  else u
def Nd.updBar (d : Nd) (bid : Nat) (f : BarUnit → BarUnit) : Nd :=
  { d with rg := { d.rg with bars := d.rg.bars.map (fun u => if u.bid = bid then f u else u) } }
def Nd.bartok (d : Nd) : Option Nd :=
  let bid := d.v.bits 0 8
  let me := (d.b, d.n)
  let ps := d.rg.participants bid
  let (off, k) : Bool × Nat := match d.st.x with
    | .bartok o k => (o, k)
    | _ => (false, 0)
  if d.st.ended then none
  else match d.head 0 with
    | .missing => none
    | .ended =>
      -- it leaves at once; its own end-of-stream waits for room
      if !d.rg.bars.any (fun u => u.bid = bid && u.left.contains me) then
        some (d.updBar bid (fun u => ({ u with left := u.left ++ [me] } : BarUnit).test ps))
      else if d.room then some d.finish else none
    | .tok t =>
      if !off then
        some ((d.updBar bid (fun u => ({ u with offers := u.offers ++ [me] } : BarUnit).test ps)).setX (.bartok true k))
      else if d.room && d.rg.bars.any (fun u => u.bid = bid && u.go.contains me) then
        some ((((d.updBar bid (fun u => { u with go := u.go.filter (· != me) })).consume [0]).emit t).setX
          (.bartok false (k + 1)))
      else none

end Sys2Proof.Machine
end

