-- ==== Sys2Proof/Machine/Operands.lean ====
section
/-! DEFINITION. Operand forms of the sequencer: effective addresses (04 R88) and the sizes and extensions
of memory types (04 R95; 05 R125, R126). -/
namespace Sys2Proof.Machine

/-- The effective address of a memory reference, `pc` being the address of the first word (R88). -/
def Seq.ea (q : Seq) (pc : W64) : MemRef → W64
  | .base b d => q.getG b + d.signExtend 64
  | .index b x sc => q.getG b + q.getG x <<< sc.toNat
  | .pcRel d => pc + d.signExtend 64
/-- The registers a memory reference reads. -/
def memRegs : MemRef → List Reg
  | .base b _ => [b]
  | .index b x _ => [b, x]
  | .pcRel _ => []

/-- Bytes of a type (R95, R125). -/
def tySize : MTy → Nat
  | .i8 | .ui8 => 1 | .i16 => 2 | .i32 | .ui32 => 4 | .i64 => 8
/-- A loaded value extended to 64 bits by its type (R126). -/
def tyExtend (ty : MTy) (x : Nat) : W64 :=
  match ty with
  | .ui8 | .ui32 => w64 (x % 2 ^ (8 * tySize ty))
  | .i8 | .i16 | .i32 | .i64 => i64 (sval (8 * tySize ty) x)

end Sys2Proof.Machine
end

