-- ==== Sys2Proof/Machine/SeqMem.lean ====
section
/-! DEFINITION. A sequencer's accesses to flat memory: effective addresses (04 R88), the checks and traps
(05 R125), the store buffer and forwarding (12 R316, R319), race checks and tags (R324 to R328), remote
accesses (19 R419, R420; 16 R390). -/
namespace Sys2Proof.Machine

def alignTrap (va : W64) : TrapRec := { cause := 2, eaddr := va }
def xlateTrap (va : W64) (f : XFault) (k : AccK) : TrapRec := { cause := 3, eaddr := va, einfo := f.detail k }
def raceTrap (va einfo : W64) : TrapRec := { cause := 5, eaddr := va, einfo := einfo }
def poisonTrap (va : W64) : TrapRec := { cause := 12, eaddr := va }

/-- Alignment, then translation (R125); an access to a quiesced stack or row waits (R457). -/
def Run.target (v : Run) (va : W64) (n : Nat) (k : AccK) : Except TrapRec Target :=
  if va.toNat % n != 0 then .error (alignTrap va)
  else match xlate v.s v.rg.core v.rg.ctx va k with
    | .error f => .error (xlateTrap va f k)
    | .ok t => if t.local?.any v.s.quiesced then .error notYet else .ok t

/-- The translation used is cached (R440). -/
def Run.cached (v : Run) (va : W64) : State := v.s.cache v.rg.core v.rg.ctx va

/-! ### Stores -/

/-- A buffered store performs (R316): bytes, then the tag an ordinary checked write or a release leaves
(R324). -/
def State.perform (s : State) (r : Nat) (st : PendStore) : State :=
  match s.rg? r with
  | none => s
  | some rg =>
    let s := if st.release then s.bump r else s
    let s := s.write (s.keyOf rg.ctx) st.pa st.bytes
    let s := if st.raw then s.setFmt (sectorOf st.pa) 0 0 0 else s
    if st.chk then s.setTag (sectorOf st.pa) (s.tagOf r) else s

/-- Every buffered store of a sequencer performs, oldest first. -/
def State.performAll (s : State) (r : Nat) : List PendStore → State
  | [] => s
  | st :: t => (s.perform r st).performAll r t
def State.drain (s : State) (r pg : Nat) : State :=
  match s.seq? r pg with
  | none => s
  | some q => (s.setSeq r pg { q with stores := [] }).performAll r q.stores

/-- The management core has executed: its stores have performed, and its sequencer is State's again (R21). -/
def State.mgmtOut (s : State) : State :=
  let t := s.drain 0 0
  { t with regions := t.regions.del 0, agent := .none, sec := { t.sec with mgmt := (t.seq? 0 0).getD t.sec.mgmt } }

/-- Before a residency's write leaves its tag in a checked sector, the stores of other residencies that wait to leave theirs
there perform. The check of R325 is made when a store performs and its trap is precise at the ST (R328); so that it can be
made at the issue, no other tag may come in between (notes/assumptions/138.md). -/
def State.settleSec (s : State) (r sec : Nat) : State :=
  (s.regions.filter (fun (e : Nat × Region) => e.1 != r)).foldl (fun (s : State) (e : Nat × Region) =>
    (List.range e.2.seqs.length).foldl (fun (s : State) pg =>
      match s.seq? e.1 pg with
      | none => s
      | some q => if q.stores.any (fun st => st.chk && sectorOf st.pa = sec) then s.drain e.1 pg else s) s) s
/-- The same for a write to a page that may be unchecked. -/
def State.settle1 (s : State) (r pa : Nat) (uchk : Bool) : State := if uchk then s else s.settleSec r (sectorOf pa)

/-- The run with its sequencer's earlier stores performed. -/
def Run.drained (v : Run) : Run :=
  let s := v.s.drain v.r v.pg
  { v with s := s, q := { v.q with stores := [] } }

/-! ### Loads -/

/-- The byte a sequencer's load returns: the newest buffered store to it, else memory (R319). -/
def forward (l : List PendStore) (a : Nat) (b : Byte) : Byte :=
  l.foldl (fun b st => if st.pa ≤ a ∧ a < st.pa + st.bytes.length then st.bytes.getD (a - st.pa) 0 else b) b
def covered (l : List PendStore) (a : Nat) : Bool :=
  l.any (fun st => st.pa ≤ a && a < st.pa + st.bytes.length)

/-- The bytes a sequencer reads at a physical address, or the poison trap (R429 cause 12). -/
def Run.bytes (v : Run) (va : W64) (pa n : Nat) : Except TrapRec (List Byte) :=
  let l := v.s.peekN (v.s.keyOf v.rg.ctx) pa n
  if v.s.poisonedAt pa n && !(List.range n).all (fun i => covered v.q.stores (pa + i)) then
    .error (poisonTrap va)
  else .ok (((List.range n).zip l).map (fun e => forward v.q.stores (pa + e.1) e.2))

/-- What a local load finds: its value and the tag of its sector. -/
structure Loaded where
  val : Nat
  tag : RaceTag

/-- A checked local load (R125, R325, R327): race check unless the page is unchecked or the access is a
synchronisation access. -/
def Run.load (v : Run) (va : W64) (pa n : Nat) (chk : Bool) : Except TrapRec Loaded :=
  match (if chk then v.s.race v.rg (sectorOf pa) else none) with
  | some e => .error (raceTrap va e)
  | none =>
    match v.bytes va pa n with
    | .error t => .error t
    | .ok l => .ok ⟨leNat l, (v.s.sideAt (sectorOf pa)).tag⟩

/-- A descriptor or record read by a sequencer, dword by dword, without race checks (R154, R429): each
dword translated on its own. -/
def Run.readDws (v : Run) (va : W64) : Nat → Except TrapRec (List W64)
  | 0 => .ok []
  | n + 1 =>
    match v.target va 8 .read with
    | .error t => .error t
    | .ok (.rem _ _ _ _ _) =>
      -- a remote node answers with a dword the model does not know, or the access fails (R420)
      if Config.choice (v.s.freeIx * 65536 + n) then .error (xlateTrap va ⟨8, 0, 0⟩ .read)
      else match v.readDws (va + 8) n with
        | .error t => .error t
        | .ok r => .ok (Config.remoteWord (v.s.freeIx * 65536 + n) :: r)
    | .ok (.loc pa _) =>
      match v.bytes va pa 8 with
      | .error t => .error t
      | .ok l =>
        match v.readDws (va + 8) n with
        | .error t => .error t
        | .ok r => .ok (w64 (leNat l) :: r)

/-! ### Remote accesses -/

/-- An access is sent to a remote node (R419); answers its number. -/
def State.sendRemote (s : State) (x : Remote) : State × Nat :=
  ({ s.wakePort with
    remotes := s.remotes.put s.nextId { x with core := ((s.rg? x.rid).map Region.core).getD 0 }
    nextId := s.nextId + 1 }, s.nextId)

/-- The remote access a sequencer sends. -/
def Run.remote (v : Run) (k : RemKind) (rnode : BitVec 16) (chan : Nat) (rod : Bool) (addr va : W64)
    (l : List Byte) : Remote :=
  { kind := k, ctx := v.rg.ctx, rid := v.r, pg := v.pg, rnode := rnode, chan := chan, rod := rod
    addr := addr, va := va, bytes := l }

/-- A sequencer waits for a remote reply: it stands at the instruction until the reply comes (R390). -/
def Run.await (v : Run) (x : Remote) (w : Nat → SeqWait) : State :=
  let (s, id) := (v.cached x.va).sendRemote x
  s.setSeq v.r v.pg { v.q with pc := v.pc, wait := some (w id) }

/-! ### Stores issued -/

/-- Whether an access is the release that follows a FENCE of this scope (R317). -/
def Seq.releases (q : Seq) : Bool := q.armed.isSome

/-- The run in which the stores of others that a store to `va` must come behind have performed. -/
def Run.settled (v : Run) (va : W64) (n : Nat) : Run :=
  match v.target va n .write with
  | .ok (.loc pa uchk) => { v with s := v.s.settle1 v.r pa uchk }
  | _ => v
/-- A store enters the buffer (R319), checked for races (R325), or is sent to a remote node; a release is a synchronisation
access, which is not checked (R327), and one toward a remote location advances C (R317, R324). -/
def Run.putStore (v : Run) (va : W64) (l : List Byte) (rel sys raw : Bool) : Except TrapRec Run :=
  match v.target va l.length .write with
  | .error t => .error t
  | .ok (.loc pa uchk) =>
    match (if uchk || rel then none else v.s.race v.rg (sectorOf pa)) with
    | some e => .error (raceTrap va e)
    | none =>
      let st : PendStore := { pa := pa, va := va, bytes := l, release := rel, sys := sys, chk := !uchk, raw := raw }
      .ok { v with s := v.cached va, q := { v.q with stores := v.q.stores ++ [st] } }
  | .ok (.rem rn ch rod a _) =>
    let s := if rel then v.s.bump v.r else v.s
    let (s, id) := (s.cache v.rg.core v.rg.ctx va).sendRemote (v.remote .st rn ch rod a va l)
    .ok { v with s := s, q := { v.q with remotes := v.q.remotes ++ [id] } }
/-- A store of a sequencer (R126), or its trap. -/
def Run.store (v0 : Run) (va : W64) (l : List Byte) : State :=
  let v := v0.settled va l.length
  match v.putStore va l v.q.releases (v.q.armed = some .sys) false with
  | .error t => if t.waits then v.set { v.q with pc := v.pc } else v.s.trap v.r v.pg v.pc t
  | .ok w => w.set { w.q with armed := none, lastTag := none }

/-! ### Atomics (R127; 08 R238) -/

/-- The new value of an atomic on `n` bytes; CAS with another value leaves the old one. -/
def amoNew (op : Aop) (n old v c : Nat) : Nat :=
  let w := 8 * n
  match op with
  | .add => (old + v) % 2 ^ w
  | .and => old &&& v
  | .or => old ||| v
  | .xor => old ^^^ v
  | .min => if sval w v < sval w old then v else old
  | .max => if sval w v > sval w old then v else old
  | .minu => if v < old then v else old
  | .maxu => if v > old then v else old
  | .swap => v
  | .cas => if old = c then v else old
/-- Whether the atomic writes: a failing CAS is a read (R127). -/
def amoWrites (op : Aop) (old c : Nat) : Bool := !(op == .cas && old != c)

end Sys2Proof.Machine
end

