-- ==== Sys2Proof/Machine/Engine.lean ====
section
/-! DEFINITION. Shared operations of the engines: descriptor checks (06 R153 to R155, R161, R169 to R178),
accesses to flat and bank space with translation faults, tags and formats (02 R39 to R41; 06 R157, R159, R162,
R165; 12 R327, R335; 20 R441, R445, R446), and the bookkeeping of a running command. -/
namespace Sys2Proof.Machine

/-! ### Descriptors -/

def dlenOf : EngOp → Nat
  | .sload | .sstore | .gather | .scatter => 9
  | .cpy | .xpose => 6
  | .etbl => 4
  | .mcast => 5
  | .chainw => 3
  | .pref | .flush => 0
def dFmt (d : List W64) : Nat := fld (dw d 0) 16 8
def dAmf (d : List W64) : Nat := fld (dw d 0) 24 8
def dSca (d : List W64) : Byte := .ofNat 8 (fld (dw d 0) 32 8)
def dScb (d : List W64) : Byte := .ofNat 8 (fld (dw d 0) 40 8)
def dCmpl (d : List W64) : Bool := bit (dw d 0) 11
def dEq (d : List W64) : Nat := fld (dw d 0) 8 3

/-- SB8 and SBF8, and the element format of their positions (R36, R164). -/
def isSB (f : Nat) : Bool := f = 0x05 || f = 0x06
def denseOf (f : Nat) : Nat := if f = 0x05 then 0x01 else if f = 0x06 then 0x03 else f
/-- Formats narrower than 8 bits an element (R161). -/
def narrow (f : Nat) : Bool := fmtWidth f = 4 || fmtWidth f = 6 || f = 0x07
/-- Bytes of an element; 1 for narrow and line formats. -/
def elemBytes (f : Nat) : Nat := if narrow f || isSB f then 1 else fmtWidth f / 8
/-- Bytes of a unit of a gathered or scattered row, and elements in it: a unit of packing, or one element (R33, R173). -/
def gUnit (f : Nat) : Nat × Nat := if narrow f then ((packUnit f).2, (packUnit f).1) else (elemBytes f, 1)
/-- Trip of dimension `k` (R161). -/
def dTrip (d : List W64) (k : Nat) : Nat := fld (dw d 3) (16 * k) 16 + 1

/-- Dword 0 beyond DLEN: a reserved bit (R154, R155). -/
def headBad (h : W64) : Bool := fld h 48 16 != 0 || fld h 12 4 != 0

/-- Refusal code of a descriptor's fields, or 0 (R153, R155, R161, R169, R170, R172, R173, R175, R176, R178);
`nmem` is the number of members of the issuer's group. -/
def descCode (op : EngOp) (nmem : Nat) (d : List W64) : Nat :=
  let f := dFmt d
  let w := fmtWidth f
  if !fmtKnown f || f = 0x30 || 4 < dAmf d % 8 || (dCmpl d && fld (dw d 1) 0 3 != 0) then 2
  else match op with
  | .sload | .sstore =>
    let ss := [dw d 4, dw d 5, dw d 6, dw d 7]
    if fld (dw d 8) 9 55 != 0 then 2
    else if isSB f then
      if dw d 4 != 0 || fld (dw d 2) 0 7 != 0 then 2 else if dTrip d 0 % 128 != 0 then 3 else 0
    else if narrow f then
      if dw d 4 != 0 then 2 else if dTrip d 0 % (packUnit f).1 != 0 then 3 else 0
    else if (dw d 2 :: ss).any (fun x => x.toNat % (w / 8) != 0) then 2 else 0
  | .cpy =>
    let mode := fld (dw d 4) 42 2
    let len := fld (dw d 4) 0 40
    if fld (dw d 4) 46 18 != 0 || mode = 3 || (mode != 2 && dw d 5 != 0)
        || (mode = 1 && ((dw d 3).toNat % 64 != 0 || len % 64 != 0 || bit (dw d 4) 41)) then 2
    else if len = 0 || (mode = 2 && (dw d 5 = 0 || 2 ^ 40 ≤ (dw d 5).toNat)) then 3 else 0
  | .etbl => if fld (dw d 2) 0 6 != 0 || fld (dw d 3) 2 62 != 0 then 2 else 0
  | .xpose =>
    if fld (dw d 4) 38 26 != 0 || dw d 5 != 0 || fld (dw d 3) 0 6 != 0 || !planeOk f (fld (dw d 4) 32 4) then 2
    else 0
  | .gather | .scatter =>
    let rop := fld (dw d 8) 0 3
    let rowb := fld (dw d 3) 32 32
    let nidx := fld (dw d 6) 0 32
    let ropOk := rop = 0 || (rop != 7 && (fmtKey f || (rop ≤ 3 && f = 0x18) || (rop = 1 && f = 0x21)))
    if fld (dw d 6) 36 28 != 0 || fld (dw d 8) 3 61 != 0 || !ropOk || (op = .gather && rop != 0)
        || rowb % (gUnit f).1 != 0 || fld (dw d 3) 0 32 % elemBytes f != 0 then 2
    else if rowb = 0 || 65536 < rowb || dw d 4 = 0 || 2 ^ 40 < (dw d 4).toNat || nidx = 0 || 2 ^ 24 < nidx then 3
    else 0
  | .mcast =>
    let mem := (List.range 16).filter (fun j => bit (dw d 2) (16 + j))
    if fld (dw d 2) 6 10 != 0 then 2
    else if mem.any (fun j => 64 ≤ fld (dw d (3 + j / 8)) (8 * (j % 8)) 8) then 3
    else if mem.any (fun j => nmem ≤ j) then 5 else 0
  | .chainw => if fld (dw d 2) 0 3 != 0 then 2 else 0
  | .pref | .flush => 0

/-! ### A running command -/

/-- An engine at work: region, queue, the command at its turn, and the state. -/
structure Eng where
  r : Nat
  q : Nat
  rg : Region
  c : Cmd
  s : State
  /-- the state before the step -/
  base : State := s

def Cmd.note (c : Cmd) (st : Nat) : Cmd := { c with status := if c.status = 0 then st else c.status }
def Cmd.finish (c : Cmd) (st : Nat) : Cmd := { c.note st with finished := true }

/-- The command is written back into its queue. -/
def EngQueue.putCmd (x : EngQueue) (c : Cmd) : EngQueue :=
  { x with entries := x.entries.map (fun e =>
      match e with
      | .cmd o => if o.seq = c.seq then .cmd c else e
      | y => y) }
def Eng.done (e : Eng) : State :=
  e.s.updRg e.r (fun rg => rg.setEq e.q ((rg.eq e.q).putCmd e.c))
/-- A change of the region. -/
def Eng.upd (e : Eng) (f : Region → Region) : Eng :=
  { e with s := e.s.updRg e.r f, rg := f e.rg }
def Eng.finish (e : Eng) (st : Nat) : Eng := { e with c := e.c.finish st }
def Eng.note (e : Eng) (st : Nat) : Eng := { e with c := e.c.note st }

/-- The engine's turn ends: what is left to do is in the state. -/
abbrev EngM (α : Type) := Except State α

/-- TRANS and XCROSS (R165). -/
def Cmd.count (c : Cmd) (va : W64) : Cmd :=
  let b := va.toNat / 65536
  match c.lastBlk with
  | some x => if x = b then c else { c with lastBlk := some b, trans := c.trans + 1, xcross := c.xcross + 1 }
  | none => { c with lastBlk := some b, trans := c.trans + 1 }

/-- A fault at which an engine command pauses (R159): a recoverable one, and an unbound channel, at which R419 pauses it
(notes/assumptions/27.md). -/
def XFault.pauses (f : XFault) : Bool := f.recoverable || f.reason = 7
/-- Translation of an engine's access: the command pauses at the element, or ends (R159, R419, R441); an access to a quiesced
stack or row waits (R457). -/
def Eng.target (e : Eng) (va : W64) (k : AccK) : EngM (Target × Eng) :=
  let c := e.c.count va
  match xlate e.s e.rg.core e.rg.ctx va k with
  | .ok t =>
    if t.local?.any e.s.quiesced then .error e.base
    else .ok (t, { e with c := c, s := e.s.cache e.rg.core e.rg.ctx va })
  | .error f =>
    if f.pauses then
      let (s, id) := e.s.pause e.r e.rg va f k (.engine c.page e.q) { cause := 3 }
      .error ({ e with s := s, c := { c with paused := some id, lastBlk := none } } : Eng).done
    else .error (({ e with c := c } : Eng).finish (if f.reason = 8 then 9 else 2)).done

/-! ### Bank space -/

/-- A bank address lies in the region (R162). -/
def Region.bankOk (rg : Region) (a : W64) : Bool := a.toNat / 65536 < 8 * (rg.pm1 + 1)
def bankPeek (l : Assoc Byte) (a : Nat) : Nat → List Byte
  | 0 => []
  | n + 1 => l.get a 0 :: bankPeek l (a + 1) n
def bankPoke : Assoc Byte → Nat → List Byte → Assoc Byte
  | l, _, [] => l
  | l, a, b :: t => bankPoke (l.store a b 0) (a + 1) t
def Region.bankBad (rg : Region) (a n : Nat) : Bool :=
  rg.bankPoison.any (fun w => a < 8 * (w + 1) && 8 * w < a + n)
/-- `n` bank bytes at `a` are about to be written, by an Erg command or not: while one is under way, what stood there is kept
for accesses that no order stands between (R281). -/
def Region.bankNote (rg : Region) (erg : Bool) (a n : Nat) : Region :=
  if !rg.ergq.entries.any (·.started) then rg
  else { rg with
    bankStamp := rg.bankStamp + 1
    bankOld := (List.range n).map (fun i => { at_ := rg.bankStamp, addr := a + i, val := rg.bank.get (a + i) 0, erg := erg })
      ++ rg.bankOld.filter (fun o => o.erg = erg || o.addr < a || a + n ≤ o.addr) }
/-- The bank as an access sees it that is unordered with the writes of Erg commands, or of others, since a stamp: each byte
they wrote has its old or its new value (R8, R281). -/
def Region.bankSeen (rg : Region) (erg : Bool) (t ix : Nat) : Region :=
  { rg with bank := rg.bankOld.foldl (fun b o =>
      if o.erg = erg && t ≤ o.at_ && Config.choice (ix * 65536 + (o.addr + o.at_) % 65536) then b.store o.addr o.val 0 else b) rg.bank }
/-- The stamp from which the head of the Erg queue has written and its record is not out: those bytes are old or new to all. -/
def Region.ergOpen (rg : Region) : Option Nat :=
  match rg.ergq.entries with
  | c :: _ => if c.word.isSome then some c.since else none
  | [] => none
/-- The bank as an engine command that was accepted at stamp `t`, or a node, sees it: what an Erg command wrote before its
record was out, or after the engine command was accepted, has no order with it (R281). -/
def Region.bankFor (rg : Region) (t : Option Nat) (ix : Nat) : Region :=
  match t, rg.ergOpen with
  | none, none => rg
  | some t, none | none, some t => rg.bankSeen true t ix
  | some t, some u => rg.bankSeen true (min t u) ix
/-- Bytes are written to a bank, by an Erg command or not; words covered whole lose the poison marker (R446). -/
def Region.bankPut (rg : Region) (erg : Bool) (a : Nat) (l : List Byte) : Region :=
  { rg.bankNote erg a l.length with
    bank := bankPoke rg.bank a l
    bankPoison := rg.bankPoison.filter (fun w => !(a ≤ 8 * w && 8 * (w + 1) ≤ a + l.length)) }
def Region.bankWrite (rg : Region) (a : Nat) (l : List Byte) : Region := rg.bankPut false a l
/-- The poison marker is written into the words that `n` bytes touch (R446). -/
def Region.bankMark (rg : Region) (a n : Nat) : Region :=
  let ws := (List.range ((a + n + 7) / 8 - a / 8)).map (fun i => a / 8 + i)
  { rg with bankPoison := ws ++ rg.bankPoison.filter (fun w => !ws.contains w) }

/-! ### Reads and writes -/

/-- What an engine's read gives: bytes, which of them lie in a word with an uncorrectable error, a remote
device's failure, and the sideband of the first sector when it is flat and local. -/
structure EngGot where
  bytes : List Byte
  bads : List Bool := []
  failed : Bool := false
  side : Option Side := none
  /-- a remote node's reply, which carries no sideband -/
  far : Bool := false

def EngGot.bad (x : EngGot) : Bool := x.bads.any id

/-- Bytes of a reply: the reply's dword, and free dwords beyond it (R419). -/
def replyBytes (ix : Nat) (v : W64) (n : Nat) : List Byte :=
  (leBytes 8 v.toNat ++ dwBytes ((List.range (n / 8)).map (fun j => Config.remoteWord (ix * 65536 + j)))).take n

/-- A remote access of an engine. -/
def Eng.remote (e : Eng) (rn : BitVec 16) (ch : Nat) (rod : Bool) (addr va : W64) (l : List Byte) : Remote :=
  { kind := .engine, ctx := e.rg.ctx, rid := e.r, pg := e.q, rnode := rn, chan := ch, rod := rod
    addr := addr, va := va, bytes := l }

/-- A flat read of `n` bytes. A remote read is sent once, and read again when its reply, of the bytes asked for then, has
come (R158, R390). -/
def Eng.readFlat (e : Eng) (va : W64) (n : Nat) : EngM (EngGot × Eng) :=
  match e.target va .read with
  | .error s => .error s
  | .ok (.loc pa _, e) =>
    .ok ({ bytes := e.s.peekN (e.s.keyOf e.rg.ctx) pa n, bads := (List.range n).map (fun i => e.s.poisonedAt (pa + i) 1)
           side := some (e.s.sideAt (sectorOf pa)) }, e)
  | .ok (.rem rn ch rod a _, e) =>
    match e.c.remote with
    | some id =>
      match e.s.remotes.find id with
      | none => .ok ({ bytes := List.replicate n 0, failed := true }, { e with c := { e.c with remote := none } })
      | some x =>
        .ok ({ bytes := if x.failed then List.replicate x.len 0 else replyBytes e.s.freeIx (x.result.getD 0) x.len
               failed := x.failed, far := true },
          { e with c := { e.c with remote := none }, s := { e.s with remotes := e.s.remotes.del id } })
    | none =>
      let (s, id) := e.s.sendRemote { e.remote rn ch rod a va [] with len := n }
      .error ({ e with s := s, c := { e.c with remote := some id } } : Eng).done

/-- A read from flat or bank space; a bank address outside the region ends the command with OOB (R157,
R162). -/
def Eng.read (e : Eng) (bank : Bool) (va : W64) (n : Nat) : EngM (EngGot × Eng) :=
  if bank then
    if e.rg.bankOk va then
      .ok ({ bytes := bankPeek (e.rg.bankFor (some e.c.since) e.s.freeIx).bank va.toNat n, bads := (List.range n).map (fun i => e.rg.bankBad (va.toNat + i) 1) }, e)
    else .error ({ e with c := { e.c with oob := e.c.oob + 1 } }.finish 6).done
  else e.readFlat va n

/-- The tag a write gives its sector: none for a partial sector (R40). -/
abbrev TagW := Option (Byte × Byte × Byte)

/-- A flat write inside one sector. An ordinary write leaves the race tag (id, C) in a checked page (R327). -/
def Eng.writeFlat (e : Eng) (va : W64) (l : List Byte) (bad : Bool) (tag : TagW) : EngM Eng :=
  match e.target va .write with
  | .error s => .error s
  | .ok (.loc pa uchk, e) =>
    let key := e.s.keyOf e.rg.ctx
    let s := e.s.settle1 e.r pa uchk
    let s := if bad then s.writeBad key pa l.length else s.write key pa l
    let s := match tag with
      | some (f, a, b) => s.setFmt (sectorOf pa) f a b
      | none => s
    .ok { e with s := if uchk then s else s.setTag (sectorOf pa) (s.tagOf e.r) }
  | .ok (.rem rn ch rod a _, e) =>
    let (s, id) := e.s.sendRemote { e.remote rn ch rod a va l with bad := bad }
    .ok { e with s := s, c := { e.c with sent := e.c.sent ++ [id] } }

def Eng.write (e : Eng) (bank : Bool) (va : W64) (l : List Byte) (bad : Bool) (tag : TagW) : EngM Eng :=
  if bank then
    if e.rg.bankOk va then
      .ok (e.upd (fun rg => if bad then rg.bankMark va.toNat l.length else rg.bankWrite va.toNat l))
    else .error ({ e with c := { e.c with oob := e.c.oob + 1 } }.finish 6).done
  else e.writeFlat va l bad tag

/-! ### Formats (R41, R159) -/

/-- Whether a sector's tag agrees with a declared format (R41). -/
def tagOk (sd : Side) (decl : Nat) : Bool :=
  let f := sd.fmt.toNat
  decl = 0x00
  || (fmtKnown f && (f = decl || (isSB decl && f = denseOf decl))
      && !((f = 0x01 || f = 0x02 || f = 0x03 || f = 0x04 || f = 0x08 || f = 0x09 || isSB f) && sd.scb != 0))

/-- A stream format fault at an address (R159): the command stops with FORMAT and the trap is raised. -/
def Eng.formatFault (e : Eng) (va : W64) : State :=
  let e := e.finish 1
  e.done.raiseOn e.r e.c.page { cause := 8, eaddr := va, einfo := w64 (e.c.seq * 8 + e.q) } (.engine e.c.page e.q)

/-- The check of the sector at a flat address before its bytes are used (R41). -/
def Eng.checkFmt (e : Eng) (va : W64) (k : AccK) (decl : Nat) : EngM Eng :=
  match e.target va k with
  | .error s => .error s
  | .ok (.loc pa _, e) =>
    if tagOk (e.s.sideAt (sectorOf pa)) decl then .ok e
    else .error (e.formatFault (w64 (va.toNat / 64 * 64)))
  | .ok (.rem _ _ _ _ _, e) => .ok e

/-- The block scale of an element read typed from flat memory (R34, R162): `o` is its byte in the sector and
`sub` its place in that byte. -/
def scaleOf (f : Nat) (sd : Side) (o sub : Nat) : Byte :=
  if f = 0x01 || f = 0x02 || f = 0x03 || f = 0x04 || f = 0x08 || f = 0x09 then sd.sca
  else if f = 0x0A || f = 0x0B then (if 2 * o + sub < 64 then sd.sca else sd.scb)
  else 127

/-! ### Patterns (R161) -/

/-- Indices of a linear index (R161). -/
def dIdx (d : List W64) (n k : Nat) : Nat :=
  match k with
  | 0 => n % dTrip d 0
  | 1 => n / dTrip d 0 % dTrip d 1
  | 2 => n / (dTrip d 0 * dTrip d 1) % dTrip d 2
  | _ => n / (dTrip d 0 * dTrip d 1 * dTrip d 2)
def dTotal (d : List W64) : Nat := dTrip d 0 * dTrip d 1 * dTrip d 2 * dTrip d 3
/-- End-of-dimension markers (R162). -/
def dMks (d : List W64) (n : Nat) : BitVec 4 :=
  (List.range 4).foldl (fun m k => if dIdx d n k + 1 = dTrip d k then m ||| (1#4 <<< k) else m) 0
/-- Address of a row: dimensions 1 to 3. -/
def dRow (d : List W64) (n : Nat) : W64 :=
  dw d 2 + w64 (dIdx d n 1) * dw d 5 + w64 (dIdx d n 2) * dw d 6 + w64 (dIdx d n 3) * dw d 7

/-- Address and bytes of the unit that holds element `i` of a packed row at `row`; a flat sector of a 6-bit
format holds 64 elements in its first 48 bytes (R34). -/
def unitAt (f : Nat) (bank : Bool) (row : W64) (i : Nat) : W64 × Nat :=
  let (o, n) := elemSpan f i
  if fmtWidth f = 6 && !bank then
    let x := row.toNat % 64 + o
    (w64 (row.toNat / 64 * 64 + x / 48 * 64 + x % 48), n)
  else (row + w64 o, n)

/-- The next few bytes of a transfer that has `n` bytes before it, of whole elements: at least one element, and how many
more is the device's choice, since each element is an event of its own (R8, R337). -/
def Eng.some_ (e : Eng) (f n : Nat) : Nat :=
  let u := (packUnit f).2
  let u := if u = 0 then 1 else u
  min n ((1 + Config.pick (e.s.freeIx * 65536 + 128) % (n / u + 1)) * u)

/-- Address and bytes of element `n` of a pattern. -/
def dElem (d : List W64) (bank : Bool) (n : Nat) : W64 × Nat :=
  let f := dFmt d
  if narrow f then unitAt f bank (dRow d n) (dIdx d n 0)
  else (dRow d n + w64 (dIdx d n 0) * dw d 4, fmtWidth f / 8)

end Sys2Proof.Machine
end

