-- ==== Sys2Proof/Machine/NodeMem.lean ====
section
/-! DEFINITION. Memory nodes (08 R214 to R218, R230 to R242; 12 R316, R317, R324 to R328): a firing begins
positions, each access performs on its own, results and order tokens follow in position order. -/
namespace Sys2Proof.Machine

/-! ### Tile slots (R214, R215, R217, R218) -/

def Region.tslot (rg : Region) (dune slot : Nat) : Option TileSlot := rg.tslots.find (16 * dune + slot)
def Region.putTslot (rg : Region) (dune slot : Nat) (x : TileSlot) : Region :=
  { rg with tslots := rg.tslots.put (16 * dune + slot) x }
/-- Bank address of a byte of a slot on a dune. -/
def teAddr (e : W64) (off : Nat) : Nat := teDune e * 65536 + teBase e + off
/-- Units at which the cursors are complete (R217). -/
def dcFull (e : W64) : Nat := if tePl e != 0 || teFmt e = 0 then teDataBytes e else teRows e * teCols e
def scFull (e : W64) : Nat := if teSc e then teRows e * ((teCols e + 127) / 128) else 0
/-- The slot whose areas hold one of `n` bytes at an offset of a dune's bank. -/
def Region.slotAt (rg : Region) (dune a n : Nat) : Option TileSlot :=
  (rg.tslots.find? (fun x => x.1 / 16 = dune && teBase x.2.entry < a + n && a < teBase x.2.entry + teBytes x.2.entry)).map (·.2)

/-- A bit field of a bank byte is written. -/
def Region.bankPutBits (rg : Region) (a lo w x : Nat) : Region :=
  let old := (rg.bank.get a 0).toNat
  rg.bankWrite a [.ofNat 8 (old % 2 ^ lo + 2 ^ lo * (x % 2 ^ w) + 2 ^ (lo + w) * (old / 2 ^ (lo + w)))]
/-- Element `i` of a packed row of a bank is written (R33). The other digits of a T3 byte that is illegal count as 0
(notes/assumptions/123.md). -/
def Region.bankElem (rg : Region) (f row i x : Nat) : Region :=
  let (o, n) := elemSpan f i
  if f = 0x07 then
    let old := (rg.bank.get (row + o) 0).toNat
    let b := if old < 243 then old else 0
    let p := 3 ^ (i % 5)
    rg.bankWrite (row + o) [.ofNat 8 (b % p + p * trit x + p * 3 * (b / (p * 3)))]
  else if fmtWidth f = 6 then
    let w := leNat (bankPeek rg.bank (row + o) 3)
    let lo := 6 * (i % 4)
    rg.bankWrite (row + o) (leBytes 3 (w % 2 ^ lo + 2 ^ lo * (x % 64) + 2 ^ (lo + 6) * (w / 2 ^ (lo + 6))))
  else if fmtWidth f = 4 then rg.bankPutBits (row + o) (4 * (i % 2)) 4 x
  else rg.bankWrite (row + o) (leBytes n x)

/-- Data unit `k` of a slot is written from a token, and its S to the block's scale byte (R217, R237). -/
def Region.tileData (rg : Region) (e : W64) (k : Nat) (t : Token) : Region :=
  let x := if t.inv then 0 else t.val.toNat
  if tePl e != 0 || teFmt e = 0 then
    (if t.psn then rg.bankMark (teAddr e k) 1 else rg.bankWrite (teAddr e k) [.ofNat 8 x])
  else
    let r := k / teCols e
    let c := k % teCols e
    let row := teAddr e (r * teRowBytes e)
    let (o, n) := elemSpan (teFmt e) c
    let rg := if t.psn then rg.bankMark (row + o) n else rg.bankElem (teFmt e) row c x
    if teBlockBytes e = 0 then rg
    else rg.bankWrite (teAddr e (teDataBytes e + r * ((teCols e + 63) / 64) + c / 64)) [t.s]
/-- Tile scale `k` of a slot is written. -/
def Region.tileScale (rg : Region) (e : W64) (k : Nat) (t : Token) : Region :=
  let a := teAddr e (teDataBytes e + teBlockBytes e + 4 * k)
  if t.psn then rg.bankMark a 4 else rg.bankWrite a (leBytes 4 (if t.inv then 0 else t.val.toNat))
def TileSlot.settle (x : TileSlot) : TileSlot :=
  { x with full := dcFull x.entry ≤ x.dc && scFull x.entry ≤ x.scur }

/-! ### Positions -/

/-- What a memory node does with memory. -/
inductive MemKind where
  | load | store | atom | drain
  deriving DecidableEq, Repr
def NodeV.memKind (v : NodeV) : MemKind :=
  match v.op with
  | 0xB0 => .atom
  | 0xA6 => .drain
  | 0xAE | 0xB1 => .load
  | 0xB3 => if v.flag 20 then .load else .store
  | _ => .store
/-- The node emits a result beside its order tokens. -/
def NodeV.memEmits (v : NodeV) : Bool := v.memKind = .load || v.memKind = .atom
def NodeV.flat (v : NodeV) : Bool := if v.op = 0xA6 then v.flag 9 else v.flag 0
/-- Bytes of one access (R231), of one piece of WCVT (R240), of one dword of a record (R230). -/
def NodeV.unit (v : NodeV) : Nat :=
  if v.op = 0xB3 then 2 ^ v.bits 18 2 else if v.op = 0xA6 then 8 else fmtWidth v.fmt / 8
/-- Bytes of the whole position. -/
def NodeV.span (v : NodeV) (p : MemPos) : Nat := if v.op = 0xA6 then p.bytes.length else fmtWidth v.fmt / 8
/-- The alignment a position needs (R229, R231). -/
def NodeV.memAlign (v : NodeV) : Nat := if v.op = 0xA6 then 64 else v.unit

/-- The scope of the RELN whose order token a store node waits for (R239). -/
def Nd.relScope (d : Nd) : Option Scope :=
  ((d.blk.into d.n 3).find? (fun e => e.1.op = 0xB2)).map (fun e => scopeOf (e.1.bits 15 3))
/-- The slots a position consumes: the data slots, and slot o when it is fed (R234). -/
def Nd.memReq (d : Nd) : List Nat := if d.fed 3 then d.req ++ [3] else d.req

/-- The result of a position that makes no access: a load emits the token's flag, or a bubble (R232). -/
def noAccess (f : Nat) (mks : BitVec 4) (ix : Option W32) (ts : List Token) : Token :=
  if ts.any (·.bub) then { mks := mks, ix := ix, bub := true }
  else if ts.any (·.psn) then { val := w64 (nanOr0 f), mks := mks, ix := ix, psn := true }
  else { mks := mks, ix := ix, inv := true }

/-- A position as its tokens give it (R232). -/
def Nd.memPos (d : Nd) (ts : List Token) : MemPos :=
  let a := ts.getD 0 {}
  let vs := (ts.take d.req.length).drop 1
  let mks := orMks ts
  let ix := firstIx (ts.take d.req.length)
  let stop := a.bub || a.psn || a.inv || vs.any (fun t => t.bub || t.inv)
    || (d.v.memKind = .atom && vs.any (·.psn))
  let w := fmtWidth (d.fmtOf 0)
  { num := d.st.pos, addr := if w = 0 then a.val else w64 (a.val.toNat % 2 ^ w)
    value := (vs.getD 0 {}).val, cmp := (vs.getD 1 {}).val, mks := mks, ix := ix
    psn := (vs.getD 0 {}).psn, rel := if d.v.memKind = .load || d.v.memKind = .drain then none else d.relScope
    done := if stop then some (noAccess d.v.fmt mks ix (a :: vs)) else none }

def Nd.updPos (d : Nd) (i : Nat) (f : MemPos → MemPos) : Nd :=
  d.upd (fun st => { st with pend := listUpd st.pend i f })

/-- Positions that have performed, from the oldest on, send their results and order tokens (R234, R235); a
load with ENDZ ends at a zero (R236). -/
def Nd.flushPos : Nat → Nd → Nd
  | 0, d => d
  | n + 1, d =>
    match d.st.pend with
    | [] => d
    | p :: rest =>
      match p.done with
      | none => d
      | some t =>
        let d := d.upd (fun st => { st with pend := rest })
        if d.v.op = 0xAE && d.v.flag 2 && !t.bub && !t.psn && !t.inv && t.val = 0 then
          d.finish.upd (fun st => { st with pend := [] })
        else
          let d := if d.v.memEmits then d.sendTo d.dataPlaces t else d
          flushPos n (d.sendTo d.orderPlaces { mks := p.mks })
def Nd.flushed (d : Nd) : Nd := Nd.flushPos d.st.pend.length d

/-- A return with SKIP turns the stopped position into a bubble (R432). -/
def Nd.skipped (d : Nd) : Nd :=
  if !d.st.skip then d
  else
    let i := (d.st.pend.findIdx? (fun p => p.done.isNone)).getD 0
    ((d.upd (fun st => { st with skip := false })).updPos i (fun p =>
      { p with done := some { mks := p.mks, ix := p.ix, bub := true }, remote := none, paused := none })).flushed

/-- Positions a node may have begun. -/
def memDepth : Nat := 64
/-- A memory node begins a position (R231, R234); an MSTORE sends its value to its port (R241). -/
def Nd.begin (d : Nd) : Option Nd :=
  if d.st.skip then some d.skipped
  else if d.st.ended then
    -- tokens that arrive after an ENDZ end are discarded, uncounted (R236)
    (if d.v.op = 0xAE then (d.memReq.find? (fun i => (d.head i).tok?.isSome && (d.slot i).standing.isNone)).map d.pop else none)
  else
    let port := d.rg.outPort (d.v.bits 21 6)
    let ms := d.v.op = 0xB4
    let ends := (d.pairs d.memReq).any (fun i => (d.head i).isEnded)
    if (ms && !port.room && !ends) || memDepth ≤ d.st.pend.length then none
    else
      match d.pairStep d.memReq (fun d ts =>
        let p := d.memPos ts
        let t := ts.getD 1 {}
        let d := (d.consume d.memReq).upd (fun st => { st with pend := st.pend ++ [p] })
        let d := if ms && !t.bub then
            { d with rg := d.rg.setOut (d.v.bits 21 6) { port with q := port.q ++ [t] } }
          else d
        some d.flushed) with
      | none => none
      | some d' =>
        some (if ms && d'.st.ended then
            { d' with rg := d'.rg.setOut (d.v.bits 21 6) { port with q := port.q ++ [eosToken] } }
          else d')

/-- STN.TILE (R217, R237): a token is written at its cursor, or waits. -/
def Nd.stnTile (d : Nd) : Option Nd :=
  let slot := d.v.bits 7 4
  match d.rg.tslot d.cfg.dune slot with
  | none => d.pairStep d.memReq (fun _ _ => none)
  | some x =>
    let req := d.memReq
    d.pairStep req (fun d ts =>
      let t := ts.getD 0 {}
      let mark := d.v.flag 5
      let tsc := d.v.flag 6
      let out := fun (d : Nd) => some ((d.consume req).sendTo d.orderPlaces { mks := orMks ts })
      if x.full then none
      else if t.bub || t.inv then out d
      else if mark then
        out { d with rg := d.rg.putTslot d.cfg.dune slot { x with full := true, dc := dcFull x.entry, scur := scFull x.entry } }
      else if tsc then
        (if scFull x.entry ≤ x.scur then none
         else out { d with rg := (d.rg.tileScale x.entry x.scur t).putTslot d.cfg.dune slot ({ x with scur := x.scur + 1 } : TileSlot).settle })
      else if dcFull x.entry ≤ x.dc then none
      else out { d with rg := (d.rg.tileData x.entry x.dc t).putTslot d.cfg.dune slot ({ x with dc := x.dc + 1 } : TileSlot).settle })

/-- STN (R237): to memory, or into a tile slot. -/
def Nd.stn (d : Nd) : Option Nd := if d.v.flag 4 then d.stnTile else d.begin

/-- RELN (R239): one order token from each used slot, one order token out. -/
def Nd.reln (d : Nd) : Option Nd :=
  let req := (List.range 4).filter d.fed
  d.pairStep req (fun d ts => some ((d.consume req).sendTo d.orderPlaces { mks := orMks ts }))

/-! ### Performing (R231, R232, R235, R316) -/

/-- Earlier positions of the node have all performed. -/
def Nd.firstOpen (d : Nd) (i : Nat) : Bool := (d.st.pend.take i).all (fun p => p.done.isSome)
/-- A trap precise at position `i`; it waits until the earlier positions have completed (R430). -/
def Nd.trapPos (d : Nd) (i : Nat) (cause : Nat) (eaddr einfo : W64) : Option Nd :=
  if !d.firstOpen i then none
  else
    let num := ((d.st.pend[i]?).map (·.num)).getD 0
    let t : TrapRec := { cause := cause, eaddr := eaddr, einfo := einfo, node := true, blk := d.b, nidx := d.n
                         dune := d.cfg.dune, iter := num }
    let d := d.upd (fun st => { st with stopped := some t })
    some (d.reload (d.done.raise d.r t (.node (d.cfg.dune / 8))))

def MemKind.acc : MemKind → AccK
  | .load => .read
  | .store | .drain => .write
  | .atom => .atomic

/-- Whether two positions may touch overlapping bytes (R235). -/
def Nd.overlap (d : Nd) (p q : MemPos) : Bool :=
  let hit := fun (a b : Nat) => a < b + d.v.span q && b < a + d.v.span p
  hit p.addr.toNat q.addr.toNat
  || (d.v.flat &&
      match xlate d.s d.rg.core d.rg.ctx p.addr .read, xlate d.s d.rg.core d.rg.ctx q.addr .read with
      | .ok (.loc a _), .ok (.loc b _) => hit a b
      | .ok (.rem m _ _ a _), .ok (.rem n _ _ b _) => m = n && hit a.toNat b.toNat
      | _, _ => false)

/-- Range and translation of the unit at `va` of position `i` (R231): a recoverable fault pauses the position. The error
is what becomes of the position, `none` when it cannot go on now. EADDR of a unit past the bank's end is the position's address,
not the unit's (MODEL'S CHOICE, notes/assumptions/148.md). -/
def Nd.placeAt (d : Nd) (i : Nat) (p : MemPos) (va : W64) : Except (Option Nd) (MemPlace × Nd) :=
  if !d.v.flat then
    if 65536 < va.toNat + d.v.unit then .error (d.trapPos i 3 p.addr (XFault.detail ⟨6, 0, 0⟩ d.v.memKind.acc))
    else .ok (.bank (d.cfg.dune * 65536 + va.toNat), d)
  else match xlate d.s d.rg.core d.rg.ctx va d.v.memKind.acc with
    | .error f =>
      if !f.recoverable then .error (d.trapPos i 3 va (f.detail d.v.memKind.acc))
      else
        let t : TrapRec := { cause := 3, node := true, blk := d.b, nidx := d.n, dune := d.cfg.dune, iter := p.num }
        let (s, id) := d.done.pause d.r d.rg va f d.v.memKind.acc (.node (d.cfg.dune / 8)) t
        .error (some ((d.reload s).updPos i (fun p => { p with paused := some id })))
    | .ok (.loc pa u) =>
      let s := d.s.cache d.rg.core d.rg.ctx va
      .ok (.loc pa u, { d with s := if d.v.memKind = .load then s else s.settle1 d.r pa u })
    | .ok (.rem rn ch rod a _) => .ok (.rem rn ch rod a, { d with s := d.s.cache d.rg.core d.rg.ctx va })

/-- The checks of a unit at its place: the tag of a tile slot, for which a typed load waits (R218), the sector's tag
(R232) and the race check (R325, R327). While the stack or row is quiesced, it waits (R457). -/
def Nd.checkAt (d : Nd) (i : Nat) (p : MemPos) (va : W64) (x : MemPlace) : Except (Option Nd) Unit :=
  let f := d.v.fmt
  match x with
  | .bank a =>
    let typed := f != 0 && (d.v.memKind = .load || d.v.memKind = .atom)
    match (if typed then d.rg.slotAt d.cfg.dune (a % 65536) d.v.unit else none) with
    | none => .ok ()
    | some x =>
      if !x.full then .error none
      else if teFmt x.entry != f then
        .error (d.trapPos i 8 (w64 (a % 65536 / 64 * 64)) (w64 (teFmt x.entry * 256 + f)))
      else .ok ()
  | .loc pa uchk =>
    if d.s.quiesced pa then .error none else
    let sd := d.s.sideAt (sectorOf pa)
    let sync := d.v.memKind = .atom || d.v.op = 0xB1 || p.rel.isSome
    if d.v.op != 0xA6 && f != 0 && !tagOk sd f then
      .error (d.trapPos i 8 (w64 (va.toNat / 64 * 64)) (w64 (sd.fmt.toNat * 256 + f)))
    else match (if uchk || sync then none else d.s.race d.rg (sectorOf pa)) with
      | some e => .error (d.trapPos i 5 va e)
      | none => .ok ()
  | .rem _ _ _ _ => .ok ()

/-- The places of a position's units from the `k`-th of `n` on, each with its checks passed. -/
def Nd.placesOf (i : Nat) (p : MemPos) : Nat → Nat → Nd → Except (Option Nd) (List MemPlace × Nd)
  | 0, _, d => .ok ([], d)
  | n + 1, k, d =>
    let va := p.addr + w64 (k * d.v.unit)
    match d.placeAt i p va with
    | .error e => .error e
    | .ok (x, d) =>
      match d.checkAt i p va x with
      | .error e => .error e
      | .ok _ =>
        match Nd.placesOf i p n (k + 1) d with
        | .error e => .error e
        | .ok (l, d) => .ok (x :: l, d)
/-- Units of a position. -/
def NodeV.units (v : NodeV) (p : MemPos) : Nat := (v.span p + v.unit - 1) / v.unit
/-- Alignment, range, translation and the checks of a whole position, before it makes any access: one that faults makes
none (R231, R430). -/
def Nd.reach (d : Nd) (i : Nat) (p : MemPos) : Except (Option Nd) (List MemPlace × Nd) :=
  if p.addr.toNat % d.v.memAlign != 0 then .error (d.trapPos i 2 p.addr 0)
  else Nd.placesOf i p (d.v.units p) 0 d

/-- The result token of a load or atomic. -/
def MemPos.result (p : MemPos) (x : Nat) (s : Byte) : Token := { val := w64 x, mks := p.mks, ix := p.ix, s := s }
def MemPos.poisoned (p : MemPos) (ix f : Nat) : Token :=
  { val := w64 ((Config.poisonWord (ix * 65536 + p.num)).toNat % 2 ^ fmtWidth f), mks := p.mks, ix := p.ix, psn := true }

/-- ATOM's new value and status (R238). -/
def atomNew (f aop old x c : Nat) : Nat × Flags :=
  if f = 0x21 then intFit f false (sval 64 old + sval 64 x)
  else (amoNew (aopOf aop) (fmtWidth f / 8) old (x % 2 ^ fmtWidth f) (c % 2 ^ fmtWidth f), 0)

/-- Value bytes of the unit at hand of a store position. -/
def NodeV.unitBytes (v : NodeV) (p : MemPos) : List Byte :=
  if v.op = 0xA6 then (p.bytes.drop (8 * p.pieces)).take 8
  else (leBytes (fmtWidth v.fmt / 8) p.value.toNat).drop (p.pieces * v.unit) |>.take v.unit

/-- The unit at hand is written with the poison marker (R232, R446). -/
def MemPos.marked (p : MemPos) : Bool := p.psn || p.bads.contains p.pieces

/-- The position at hand after a unit: a part that has been read goes to `value`; the last unit completes
it. -/
def Nd.unitDone (d : Nd) (i : Nat) (p : MemPos) (part : Nat) (bad : Bool) : Nd :=
  let n := d.v.units p
  let p := { p with pieces := p.pieces + 1, psn := p.psn || bad
                    value := if d.v.memKind = .load then w64 (p.value.toNat + part) else p.value }
  let p := if p.pieces < n then p
    else { p with done := some (if d.v.memKind = .load then
        (if p.psn then p.poisoned d.s.freeIx d.v.fmt else p.result p.value.toNat 127) else { mks := p.mks }) }
  d.updPos i (fun _ => p)

/-- After a dword of a record: the first, which holds the drain status, ORs its bits [4:0] into ACS (R51);
a group that the record has drained becomes EMPTY when the last is written (R229). -/
def Nd.drainDone (d : Nd) (i : Nat) : Nd :=
  match (if d.v.op = 0xA6 then d.st.pend[i]? else none) with
  | none => d
  | some p =>
    let d := if p.pieces = 1 then d.raise (.ofNat 5 (p.bytes.headD 0).toNat) else d
    if d.v.flag 0 && p.done.isSome then
      let k := 2 * d.cfg.dune + d.v.bits 1 1
      { d with rg := { d.rg with ags := d.rg.ags.put k { d.rg.ags.get k {} with tag := .empty } } }
    else d

/-- A unit of position `i` performs in the dune's bank. -/
def Nd.atBank (d : Nd) (i : Nat) (p : MemPos) (a : Nat) : Nd :=
  let f := d.v.fmt
  let n := d.v.unit
  let l := bankPeek d.rg.bank a n
  let bad := d.rg.bankBad a n
  match d.v.memKind with
  | .load => d.unitDone i p (leNat (bankPeek (d.rg.bankFor none d.s.freeIx).bank a n) * 2 ^ (8 * n * p.pieces)) bad
  | .atom =>
    if bad then d.updPos i (fun p => { p with done := some (p.poisoned d.s.freeIx f) })
    else
      let old := leNat l
      let (x, fl) := atomNew f (d.v.bits 11 4) old p.value.toNat p.cmp.toNat
      let d := d.raise fl
      let d := if amoWrites (aopOf (d.v.bits 11 4)) old (p.cmp.toNat % 2 ^ fmtWidth f)
        then { d with rg := d.rg.bankWrite a (leBytes n x) } else d
      d.updPos i (fun p => { p with done := some (p.result old 127) })
  | .store | .drain =>
    let d := { d with rg := if p.marked then d.rg.bankMark a n else d.rg.bankWrite a (d.v.unitBytes p) }
    (d.unitDone i p 0 false).drainDone i

/-- The sideband a record's write leaves with a whole sector: RAW for the header, the value format for the
rest (R230). -/
def Nd.recTag (d : Nd) (p : MemPos) (pa : Nat) (s : State) : State :=
  if d.v.op = 0xA6 && pa % 64 = 56 then s.setFmt (sectorOf pa) (if p.pieces < 8 then 0 else .ofNat 8 d.v.fmt) 0 0 else s

/-- A unit of position `i` performs at its local home memory node: the effect and the tags (R324). -/
def Nd.atHome (d : Nd) (i : Nat) (p : MemPos) (pa : Nat) (uchk : Bool) : Nd :=
    let f := d.v.fmt
    let n := d.v.unit
    let sd := d.s.sideAt (sectorOf pa)
    let key := d.s.keyOf d.rg.ctx
    let bad := d.s.poisonedAt pa n
    let old := leNat (d.s.peekN key pa n)
    let back := fun (s : State) => d.reload s
    let mark := fun (s : State) => if uchk then s else s.setTag (sectorOf pa) (s.tagOf d.r)
    match d.v.memKind with
    | .load =>
      let d := if d.v.op = 0xB1 then back (d.done.acquire d.r (if uchk then {} else sd.tag)) else d
      let s8 : Byte := if fmtWidth f = 8 && f != 0 && d.v.op != 0xB3 then sd.sca else 127
      let d := d.unitDone i p (old * 2 ^ (8 * n * p.pieces)) bad
      d.updPos i (fun q => { q with done := q.done.map (fun t => { t with s := s8 }) })
    | .atom =>
      if bad then d.updPos i (fun p => { p with done := some (p.poisoned d.s.freeIx f) })
      else
        let (x, fl) := atomNew f (d.v.bits 11 4) old p.value.toNat p.cmp.toNat
        let w := amoWrites (aopOf (d.v.bits 11 4)) old (p.cmp.toNat % 2 ^ fmtWidth f)
        let s := d.done
        let s := if p.rel.isSome then s.bump d.r else s
        let s := if w && p.rel.isSome then s.settle1 d.r pa uchk else s
        let s := if w then s.write key pa (leBytes n x) else s
        let s := if w && p.rel.isSome then mark s else s
        ((back s).raise fl).updPos i (fun p => { p with done := some (p.result old 127) })
    | .store | .drain =>
      let s := d.done
      let s := if p.rel.isSome then s.bump d.r else s
      let s := s.settle1 d.r pa uchk
      let s := if p.marked then s.writeBad key pa n else s.write key pa (d.v.unitBytes p)
      ((back (mark (d.recTag p pa s))).unitDone i p 0 false).drainDone i

/-- A unit of position `i` is sent to a remote node (R419). -/
def Nd.toRemote (d : Nd) (i : Nat) (p : MemPos) (rn : BitVec 16) (ch : Nat) (rod : Bool) (a : W64) : Nd :=
  let k := d.v.memKind
  let s := if p.rel.isSome then d.done.bump d.r else d.done
  let x : Remote := { kind := if k = .load then .nodeLd else if k = .atom then .nodeAtom else .nodeSt
                      ctx := d.rg.ctx, rid := d.r, blk := d.b, nidx := d.n, i := p.num, rnode := rn, chan := ch
                      rod := rod, addr := a, va := p.addr + w64 (p.pieces * d.v.unit)
                      op := if k = .atom then some { code := d.v.bits 11 4, fmt := d.v.fmt, cmp := p.cmp } else none
                      bad := (k = .store || k = .drain) && p.marked, len := d.v.unit
                      bytes := if k = .load then [] else if k = .atom then leBytes 8 p.value.toNat else d.v.unitBytes p }
  let (s, id) := s.sendRemote x
  (d.reload s).updPos i (fun q => { p with remote := some id, paused := q.paused })

/-- Position `i` of a node performs its access, or its next piece (ACCESS_PERFORMED): not while the node is
stopped, the position or an earlier one waits on a fault, or an earlier one that overlaps it has still to
perform (R231, R235). Every unit is an access with checks of its own (R325). -/
def Nd.performPos (d : Nd) (i : Nat) : Option Nd :=
  match d.st.pend[i]? with
  | none => none
  | some p =>
    if p.done.isSome || p.remote.isSome || d.st.stopped.isSome || d.st.skip
        || (d.st.pend.take (i + 1)).any (fun q => q.paused.isSome)
        || (d.st.pend.take i).any (fun q => q.done.isNone && d.overlap q p) then none
    else
      let at_ : Except (Option Nd) (List MemPlace × Nd) :=
        if p.pieces = 0 then d.reach i p
        else match p.places[p.pieces]? with
          | none => .error none
          | some x => (d.checkAt i p (p.addr + w64 (p.pieces * d.v.unit)) x).map (fun _ => (p.places, d))
      match at_ with
      | .error x => x
      | .ok (l, d) =>
        let p : MemPos := { p with places := l }
        match l[p.pieces]? with
        | none => none
        | some (.bank a) => some (d.atBank i p a).flushed
        | some (.loc pa u) => some (d.atHome i p pa u).flushed
        | some (.rem rn ch rod a) => some (d.toRemote i p rn ch rod a)

/-- The answer to a remote access of a node (R390, R419): the value of a load or atomic arrives, a store is
acknowledged. -/
def Nd.answerPos (d : Nd) (num : Nat) (x : W64) : Nd :=
  match d.st.pend.findIdx? (fun p => p.num = num && p.remote.isSome) with
  | none => d
  | some i =>
    match d.st.pend[i]? with
    | none => d
    | some p =>
      let w := 8 * d.v.unit
      let p := { p with remote := none }
      (match d.v.memKind with
       | .load =>
         let d := if d.v.op = 0xB1 then d.reload (d.done.acquireAll d.r) else d
         let d := d.unitDone i p (x.toNat % 2 ^ w * 2 ^ (w * p.pieces)) false
         -- the block scale of the remote sector is no part of the answer: the model does not know it (R232)
         if fmtWidth d.v.fmt = 8 && d.v.fmt != 0 && d.v.op != 0xB3 then
           d.updPos i (fun q => { q with done := q.done.map (fun (t : Token) => { t with s := .ofNat 8 (Config.pick (d.s.freeIx * 65536 + num)) }) })
         else d
       | .atom =>
         -- the home node computes the new value; its clamp is seen here (R238)
         let old := x.toNat % 2 ^ w
         (d.raise (atomNew d.v.fmt (d.v.bits 11 4) old p.value.toNat p.cmp.toNat).2).updPos i (fun _ =>
           { p with done := some (p.result old 127) })
       | .store | .drain => (d.unitDone i p 0 false).drainDone i).flushed

/-- The node at a place of a region. -/
def State.nodeAt (s : State) (r b n : Nat) : Option Nd :=
  match s.rg? r with
  | none => none
  | some rg =>
    match rg.nodeCfg b n with
    | none => none
    | some (blk, cfg) => some { r := r, b := b, n := n, blk := blk, cfg := cfg, v := cfg.view, rg := rg, s := s }

end Sys2Proof.Machine
end

