-- ==== Sys2Proof/Machine/Time.lean ====
section
/-! DEFINITION. The passing of core cycles (01 R24, R25): the cycle counter, budgets (05 R149; 16 R396),
sleep limits (R134), contract activations (14 R364), the quiet count of the stall sweep (17 R407), back-pressure windows
(15 R380) and residency (15 R379). -/
namespace Sys2Proof.Machine

/-- A residency is resident: placed, loaded, and no pre-emption request has reached it (R396). -/
def Region.resident (rg : Region) : Bool :=
  !rg.snap && match rg.st with
  | .unarmed | .armed | .running | .draining => true
  | _ => false

/-- BUDGET after `n` resident cycles (R149). -/
def chargeBudget (b : W64) (n : Nat) : W64 :=
  let rem := fld b 0 48
  if rem = 0 then b
  else if rem ≤ n then putFld (putFld b 0 48 0) 63 1 1
  else putFld b 0 48 (rem - n)

/-- A SLEEP after `n` cycles: past its expiry cycle it has ended false, in that cycle a wake still wins (R134, R406). -/
def Seq.passSleep (q : Seq) (n : Nat) : Seq :=
  match q.sleep with
  | some (l, p) => if l < n then { q.setP p false with sleep := none } else { q with sleep := some (l - n, p) }
  | none => q
/-- A sequencer after `n` cycles: budget and sleep limit. -/
def Seq.pass (q : Seq) (n : Nat) : Seq := { q.passSleep n with budget := chargeBudget q.budget n }

/-- The member of a region's group that a multicast feeds has room at its port. -/
def State.memberRoom (s : State) (rg : Region) (c : Cmd) (j : Nat) : Bool :=
  match ((rg.gid.bind s.groups.find).bind (fun (g : Group) => g.members[j]?)).bind s.regions.find with
  | some x => (x.inPort (fld (dw c.desc (3 + j / 8)) (8 * (j % 8)) 8)).room
  | none => true
/-- A started command can go on: it waits neither for tokens nor for room at its port (R407). -/
def State.canGoOn (s : State) (rg : Region) (c : Cmd) : Bool :=
  let has := fun (p : Nat) => !(rg.outPort p).q.isEmpty
  match c.op with
  | .sload | .gather => c.inP.all (fun p => (rg.inPort p).room)
  | .sstore =>
    c.due.isSome || c.hold || c.outP.all has || (isSB (dFmt c.desc) && c.toks.length = 128)
      || (dTotal c.desc ≤ c.pos && bit (dw c.desc 8) 8)
  | .scatter =>
    c.outP.all has || c.bit != 0 || fld (dw c.desc 6) 0 32 ≤ c.pos
      || fld (dw c.desc 3) 32 32 / (gUnit (dFmt c.desc)).1 * (gUnit (dFmt c.desc)).2 ≤ c.toks.length
  | .mcast =>
    c.mbuf.any (fun (b : Nat × List Token) => !b.2.isEmpty && s.memberRoom rg c b.1)
      || (if c.hold then c.mbuf.all (fun b => b.2.isEmpty) else c.outP.all has && c.mbuf.all (fun b => b.2.length < 64))
  | _ => !c.hold
/-- A command's completion is outstanding, and not only for want of tokens or of room at its port (R407). -/
def State.cmdAwaits (s : State) (rg : Region) (c : Cmd) : Bool :=
  c.remote.isSome || !c.sent.isEmpty || c.paused.isSome || c.finished || (c.started && s.canGoOn rg c)
/-- Whether a memory, fibre or engine completion of a region is outstanding, a view merge's among them (R16, R407;
notes/assumptions/8.md). -/
def State.outstanding (s : State) (r : Nat) (rg : Region) : Bool :=
  rg.nodes.any (fun e => !e.2.pend.isEmpty)
  || s.fops.any (fun e => e.2.rid = r && e.2.st != .done)
  || rg.ergq.entries.any (·.started)
  || rg.seqs.any (fun q => q.wait.isSome || !q.remotes.isEmpty || !q.stores.isEmpty)
  || rg.eqs.any (fun q => q.entries.any (fun x =>
    match x with
    | .cmd c => s.cmdAwaits rg c
    | _ => false))
  || rg.task.epoch.merge.any (fun m => !m.faulted)

/-- Cycles that multicast members with full buffers have stalled their producer (R176). -/
def Cmd.passStall (c : Cmd) (n : Nat) : Cmd :=
  { c with stall := c.mbuf.filterMap (fun (b : Nat × List Token) =>
      if 64 ≤ b.2.length then some (b.1, c.stall.get b.1 0 + n) else none) }
def EqEntry.passStall (n : Nat) : EqEntry → EqEntry
  | .cmd c => .cmd (c.passStall n)
  | x => x

/-- Cycles of a back-pressure window (R380). -/
def windowLen : Nat := 65536
/-- A clone-marked node is back-pressured: every required slot holds 64 tokens, a standing token standing for any
number of them, and every consumer edge has room (R380). -/
def Region.pressed (rg : Region) (key : Nat) (b : Block) (x : NodeCfg) (v : NodeV) : Bool :=
  let st := rg.nodes.get key {}
  let slot := fun (st : NodeSt) (i : Nat) =>
    match i with
    | 0 => st.a
    | 1 => st.b
    | 2 => st.c
    | _ => st.d
  b.clone.getLsbD (key % 128)
  && (v.required x.fmts).all (fun i => (slot st i).standing.isSome || Config.edgeCap ≤ (slot st i).q.length)
  && v.cons.all (fun (c : Nat × Nat) => (slot (rg.nodes.get (128 * (key / 128) + c.1) {}) c.2).q.length < Config.edgeCap)
/-- The windows of a running configuration's clone-marked nodes after `n` cycles. -/
def Region.passWindows (rg : Region) (n : Nat) : Assoc NodeSt :=
  if !rg.live then rg.nodes
  else rg.nodes.map (fun (e : Nat × NodeSt) =>
    match rg.allNodes.find? (fun x => x.1 = e.1) with
    | none => e
    | some (k, b, x, v) =>
      if !b.clone.getLsbD (k % 128) then e
      else
        let m := min n (windowLen - e.2.win)
        (k, { e.2 with win := e.2.win + m, press := if rg.pressed k b x v then e.2.press + m else e.2.press }))

/-- A residency after `n` cycles. -/
def State.passRegion (s : State) (core n : Nat) (r : Nat) (rg : Region) : Region :=
  if rg.place.isSome && rg.core = core && rg.resident then
    { rg with
      seqs := rg.seqs.map (fun q => q.pass n)
      rcyc := rg.rcyc + n
      nodes := rg.passWindows n
      eqs := rg.eqs.map (fun x => { x with entries := x.entries.map (EqEntry.passStall n) })
      quiet := if rg.live && !s.outstanding r rg then rg.quiet + n else 0 }
  else rg

/-- The record, as queue and sequence number, that launched a residency or the root of its task tree (R294, R357). -/
def State.launchOf (s : State) : Nat → Region → Option (Nat × Nat)
  | 0, _ => none
  | n + 1, rg =>
    match rg.task.parent with
    | some (p, _) => (s.rg? p).bind (s.launchOf n)
    | none => (rg.gid.bind s.groups.find).bind (·.from_)
/-- A sequence number lies among an activation's records, modulo 2^64 (R354, R364). -/
def Activation.holds (a : Activation) (n : Nat) : Bool := decide ((w64 n - a.first).toNat ≤ (a.last - a.first).toNat)
/-- Whether a region runs a record of an activation. -/
def State.ofActivation (s : State) (rg : Region) (a : Activation) : Bool :=
  match s.launchOf 64 rg with
  | some (q, n) => q = a.queue && a.holds n
  | none => false
/-- Whether a residency of an activation is resident on a core (R364). -/
def State.actOn (s : State) (core : Nat) (a : Activation) : Bool :=
  s.regions.any (fun e => e.2.place.isSome && e.2.core = core && e.2.resident && s.ofActivation e.2 a)

/-- The core set of a contract, its lead core, BUDGET and WINDOW (R364). -/
def contractHas (k : Contract) (core : Nat) : Bool := bit (dw k.desc (1 + core / 64)) (core % 64)
def Contract.cores (k : Contract) : List Nat := (List.range coreCount).filter (contractHas k)
def Contract.lead (k : Contract) : Nat := k.cores.headD 0
def Contract.budget (k : Contract) : Nat := fld (dw k.desc 4) 0 48
def Contract.window (k : Contract) : Nat := fld (dw k.desc 6) 0 48
/-- An activation after `n` cycles of a core, `cyc` being the core's count then: the core's count, exhaustion when that
reaches BUDGET, and MISS when WINDOW cycles of the lead core have passed (R364). -/
def Activation.pass (a : Activation) (k : Contract) (core n : Nat) (cyc : W64) (on : Bool) : Activation :=
  let c := a.cycles.get core 0 + n
  { a with
    cycles := if on then a.cycles.put core c else a.cycles
    exh := a.exh || (on && contractHas k core && k.budget ≤ c)
    miss := a.miss || (core = k.lead && k.window ≤ (cyc - w64 a.at_).toNat) }

/-- `n` cycles of a core pass. -/
def State.pass (s : State) (core n : Nat) : State :=
  let co := s.core core
  { s with
    cores := s.cores.put core { co with cyc := co.cyc + w64 n }
    regions := s.regions.map (fun e => (e.1, s.passRegion core n e.1 e.2))
    sec := if core = mgmtCore then { s.sec with mgmt := s.sec.mgmt.pass n } else s.sec
    contracts := s.contracts.map (fun e => (e.1, { e.2 with acts := e.2.acts.map (fun a =>
      a.pass e.2 core n (co.cyc + w64 n) (s.actOn core a)) })) }

/-- The region a machine event names, whose core the time passes on. -/
def eventRegion : Instr → Option Nat
  | .sleepExpiry r _ | .budgetExpire r _ | .mcastDetach r _ _ | .chainHoldReread r _
  | .engineCommandStart r _ | .engineElement r _ | .engineCommandComplete r _ | .ergCommandStart r _
  | .ergCommandComplete r | .viewMergeStart r | .viewMergeElement r | .viewMergeComplete r
  | .childPlaced r _ | .stallSweep r | .cloneWindow r _ _ | .cloneDissolve r | .configDrained r
  | .residencyRetire r | .nodeSnapshotSave r _ _ | .haboobQuiescence r => some r
  | .accessPerformed (.seqStore r _) | .accessPerformed (.node r _ _ _) => some r
  | _ => none

/-- The core a turn takes time on. -/
def State.turnCore (s : State) : Turn → Option Nat
  | .seq r _ | .node r _ _ => (s.rg? r).bind (fun rg => rg.place.map (·.1))
  | .event i => (eventRegion i).bind (fun r => (s.rg? r).bind (fun rg => rg.place.map (·.1)))
  | .mgmt _ => some mgmtCore
  | .upset _ | .packet _ _ => none
  | .idle c => if c < coreCount then some c else none

/-- A turn takes at least one cycle of its core, and any free number below 2^32 more (R24, R25): a core's counter goes
on in turns of its own where nothing stands on it (R455). The counter of free values moves on. -/
def State.tick (s : State) (t : Turn) : State :=
  let s' : State := { s with freeIx := s.freeIx + 1 }
  match s.turnCore t with
  | none => s'
  | some c => s'.pass c (1 + Config.cycles s.freeIx % 2 ^ 32)

end Sys2Proof.Machine
end

