-- ==== Sys2Proof/Machine/Fibre.lean ====
section
/-! DEFINITION. The Seif store: pools, fibres and what a home merge unit does (09 R247 to R255, R261 to R272). -/
namespace Sys2Proof.Machine

/-! ### Pools and homes (R247 to R252) -/

def fibrePoolNo (a : W64) : Nat := fld a 44 12
def fibreIndex (a : W64) : Nat := fld a 0 44
def poolKey (c : Nat) (a : W64) : Nat := 4096 * c + fibrePoolNo a
def fibreKey (c : Nat) (a : W64) : Nat := 2 ^ 44 * poolKey c a + fibreIndex a
/-- Whether an address names fibre space at all (R247). -/
def fibreSpace (a : W64) : Bool := a.toNat / 2 ^ 56 = 1

def Pool.fmt (p : Pool) : Nat := fld p.d0 0 8
def Pool.c64 (p : Pool) : Bool := bit p.d0 33
def Pool.segc (p : Pool) : Nat := fld p.d0 34 2
def Pool.op (p : Pool) : Nat := fld p.d0 36 4
/-- Bytes of a segment, of a pair slot, and pairs of a segment (R248, R252). -/
def Pool.segBytes (p : Pool) : Nat := match p.segc with | 0 => 64 | 1 => 256 | _ => 1024
def Pool.slotBytes (p : Pool) : Nat := if p.c64 || fmtWidth p.fmt = 64 then 16 else 8
def Pool.cap (p : Pool) : Nat := (p.segBytes - 16) / p.slotBytes

/-- Home stack and home merge unit (R250). -/
def homeStackOf (p i : Nat) : Nat := (p + i + i / 2 ^ 11 + i / 2 ^ 22 + i / 2 ^ 33) % 12
def homeUnitOf (i : Nat) : Nat := (i + i / 16) % 16

def State.poolAt (s : State) (c : Nat) (a : W64) : Option Pool :=
  match s.pools.find (poolKey c a) with
  | some p => if fibreIndex a < p.fibres then some p else none
  | none => none
def State.fibreAt (s : State) (c : Nat) (a : W64) : Fibre := s.fibres.get (fibreKey c a) {}
def Fibre.len (f : Fibre) : Nat := (f.segs.map (fun g => g.pairs.length)).sum
def FSeg.lo (g : FSeg) : W64 := (g.pairs.head?.map (·.1)).getD 0
def FSeg.hi (g : FSeg) : W64 := (g.pairs.getLast?.map (·.1)).getD 0

/-- The directory entry of a fibre (R254). -/
def Fibre.entry (f : Fibre) (key : Nat) : List W64 :=
  let none32 : Nat := 2 ^ 32 - 1
  [w64 (2 ^ 32 * f.segs.length + f.len), w64 (2 ^ 32 * f.version.toNat + (f.segs.head?.map FSeg.num).getD none32),
   w64 (if f.segs.isEmpty then none32 else (Config.indexPlace key f.version.toNat).toNat), 0]

/-- The sectors of a segment that has been written (R133, R405). -/
def State.notifySeg (s : State) (c : Nat) (a : W64) (p : Pool) (g : FSeg) : State :=
  let base := Config.segSector c (fibrePoolNo a) (homeStackOf (fibrePoolNo a) (fibreIndex a)) g.num
  (List.range (p.segBytes / 64)).foldl (fun s i => s.notify (base + i)) s

/-- A fibre's chain is written: VERSION rises when pairs or segments change (R254), the pool's segments in use at the home
stack follow (R249), each segment written, those of `wrote` with what they held as well, is a write that monitors see
(R133), and its index entry is written anew (R255). -/
def State.setChain (s : State) (c : Nat) (a : W64) (segs : List FSeg) (wrote : List Nat) : State :=
  let f := s.fibreAt c a
  let new := segs.filter (fun g => !f.segs.contains g || wrote.contains g.num)
  if f.segs = segs && new.isEmpty then s
  else
    let st := homeStackOf (fibrePoolNo a) (fibreIndex a)
    let free := fun (p : Pool) => { p with used := p.used.put st (p.used.get st 0 + segs.length - f.segs.length) }
    let kept := f.badIndex.filter (fun k => segs.any (fun g => g.num = k) && !new.any (fun g => g.num = k))
    let s1 : State :=
      { s with fibres := s.fibres.put (fibreKey c a)
                 { f with segs := segs, version := if f.segs = segs then f.version else f.version + 1, badIndex := kept }
               pools := s.pools.upd (poolKey c a) free }
    match s.pools.find (poolKey c a) with
    | some p => new.foldl (fun s g => s.notifySeg c a p g) s1
    | none => s1

/-! ### Combining and merging (R251, R266) -/

/-- op(e, v) of a combine operator. -/
def combine (f cop e v : Nat) : Nat × Flags :=
  let w := fmtWidth f
  let x := elemVal f e
  let y := elemVal f v
  match cop with
  | 1 => (v % 2 ^ w, 0)
  | 3 => if f = 0x18 then fAdd 0x18 0 (fmtVal 0x18 0 e) (fmtVal 0x18 0 v) else intFit f false (x + y)
  | 4 => intFit f true (x + y)
  | 5 => match fmtFloat f with
    | some _ => ((convert (fMin (fmtVal f 0 e) (fmtVal f 0 v)) f 0 {} 0).1, 0)
    | none => ((if y < x then v else e) % 2 ^ w, 0)
  | 6 => match fmtFloat f with
    | some _ => ((convert (fMax (fmtVal f 0 e) (fmtVal f 0 v)) f 0 {} 0).1, 0)
    | none => ((if x < y then v else e) % 2 ^ w, 0)
  | 7 => (e &&& v, 0)
  | 8 => (e ||| v, 0)
  | 9 => (e ^^^ v, 0)
  | _ => (e % 2 ^ w, 0)

abbrev Pairs := List (W64 × W64)

/-- First position whose coordinate is below the one before it. -/
def firstDrop : Nat → W64 → Pairs → Option Nat
  | _, _, [] => none
  | j, c, x :: l => if x.1 < c then some j else firstDrop (j + 1) x.1 l

/-- The running result of combining: pairs, pairs inserted, pairs combined, flags. -/
structure Comb where
  pairs : Pairs
  ins : Nat := 0
  comb : Nat := 0
  flags : Flags := 0

/-- Runs of equal coordinates are combined in stream order. -/
def combineRuns (f cop : Nat) (p : Pairs) : Comb :=
  let r := p.foldl (fun (a : Comb) (x : W64 × W64) =>
    match a.pairs with
    | (k, v) :: t =>
      if k = x.1 then
        let (n, fl) := combine f cop v.toNat x.2.toNat
        { a with pairs := (k, w64 n) :: t, comb := a.comb + 1, flags := a.flags ||| fl }
      else { a with pairs := x :: a.pairs }
    | [] => { a with pairs := [x] }) { pairs := [] }
  { r with pairs := r.pairs.reverse }

/-- One pair goes into a segment: op(stored, value) at an equal coordinate, else insertion in order. -/
def mergePair (f cop : Nat) (x : W64 × W64) : Pairs → Comb
  | [] => { pairs := [x], ins := 1 }
  | y :: t =>
    if y.1 = x.1 then
      let (n, fl) := combine f cop y.2.toNat x.2.toNat
      { pairs := (y.1, w64 n) :: t, comb := 1, flags := fl }
    else if x.1 < y.1 then { pairs := x :: y :: t, ins := 1 }
    else
      let r := mergePair f cop x t
      { r with pairs := y :: r.pairs }
def mergePairs (f cop : Nat) (t q : Pairs) : Comb :=
  q.foldl (fun (a : Comb) (x : W64 × W64) =>
    let r := mergePair f cop x a.pairs
    { pairs := r.pairs, ins := a.ins + r.ins, comb := a.comb + r.comb, flags := a.flags ||| r.flags }) { pairs := t }

/-- A part that holds more than `c` pairs keeps its lower half, rounded up (R266). -/
def splitParts (c : Nat) : Nat → Pairs → List Pairs
  | 0, l => [l]
  | n + 1, l =>
    if l.length ≤ c then [l]
    else splitParts c n (l.take ((l.length + 1) / 2)) ++ splitParts c n (l.drop ((l.length + 1) / 2))

/-- What R266's planning gives: status and counts, the chain afterwards, the targets' numbers, new segments. -/
structure FPlan where
  status : Nat := 0
  segrd : Nat := 0
  segwr : Nat := 0
  splits : Nat := 0
  ins : Nat := 0
  comb : Nat := 0
  flags : Flags := 0
  segs : List FSeg := []
  touched : List Nat := []
  fresh : Nat := 0

/-- Index of the target segment of a coordinate. -/
def targetOf (segs : List FSeg) (x : W64) : Nat := (segs.filter (fun g => g.lo ≤ x)).length - 1
/-- New segments for parts, numbered from `n`. -/
def newSegs (n : Nat) (l : List Pairs) : List FSeg :=
  ((List.range l.length).zip l).map (fun e => { num := n + e.1, pairs := e.2 })

/-- One target in chain order: read, merged, split. -/
def FPlan.segment (f cop c next : Nat) (q : Pairs) (p : FPlan) (g : FSeg) : FPlan :=
  if q.isEmpty then { p with segs := p.segs ++ [g] }
  else if p.status != 0 then p
  else if g.bad then { p with status := 6, segrd := p.segrd + 1, touched := p.touched ++ [g.num] }
  else
    let m := mergePairs f cop g.pairs q
    let parts := splitParts c m.pairs.length m.pairs
    let more := parts.length - 1
    { p with
      segrd := p.segrd + 1, segwr := p.segwr + parts.length, splits := p.splits + more, ins := p.ins + m.ins
      comb := p.comb + m.comb, flags := p.flags ||| m.flags, touched := p.touched ++ [g.num]
      segs := p.segs ++ { g with pairs := parts.headD [] } :: newSegs (next + p.fresh) parts.tail
      fresh := p.fresh + more }

/-- The plan of a merge of `p` into a chain (R266, R267); `bad` tells that a pair carries PSN or INV. -/
def fibrePlan (f cop c free next : Nat) (segs : List FSeg) (p : Pairs) (bad : Bool) : FPlan :=
  if 65535 < p.length then { status := 3 }
  else match firstDrop 0 0 p with
  | some j => { status := 1, ins := j }
  | none =>
    if bad then { status := 6 }
    else
      let q := combineRuns f cop p
      let r : FPlan :=
        if segs.isEmpty then
          let parts := if q.pairs.isEmpty then [] else splitParts c q.pairs.length q.pairs
          { segwr := parts.length, splits := parts.length - 1, ins := q.pairs.length
            segs := newSegs next parts, fresh := parts.length }
        else ((List.range segs.length).zip segs).foldl (fun (a : FPlan) (e : Nat × FSeg) =>
          a.segment f cop c next (q.pairs.filter (fun x => targetOf segs x.1 = e.1)) e.2) {}
      let len := (segs.map (fun g => g.pairs.length)).sum
      if r.status != 0 then { status := 6, segrd := r.segrd, touched := r.touched }
      else if 2 ^ 32 - 1 < len + r.ins then { status := 3, touched := r.touched }
      else if free < r.fresh then { status := 2, segrd := r.segrd, touched := r.touched }
      else { r with comb := r.comb + q.comb, flags := r.flags ||| q.flags }

/-! ### The order of a fibre's operations (R263 to R265) -/

def FKind.writer : FKind → Bool
  | .merge | .ins | .clear | .compact => true
  | _ => false
def FOp.key (o : FOp) : Nat := fibreKey o.ctx o.addr
/-- FOPT bits of an operation (R257). -/
def FOp.bits (o : FOp) (lo w : Nat) : Nat := o.opt.toNat / 2 ^ lo % 2 ^ w
def FOp.flag (o : FOp) (n : Nat) : Bool := o.bits n 1 = 1
/-- Operations that read a whole fibre (R264). -/
def FOp.scans (o : FOp) : Bool :=
  match o.kind with
  | .scan | .inter | .topk => true
  | .count => o.flag 22
  | _ => false
def State.putFop (s : State) (id : Nat) (o : FOp) : State := { s with fops := s.fops.put id o }

/-- The combine operator of a merge: COP, or the pool's. -/
def FOp.cop (o : FOp) (p : Pool) : Nat := if o.bits 18 4 = 0 then p.op else o.bits 18 4
/-- The checks at the home unit before anything else (R247, R259): 0, or the status that ends it. -/
def State.fopCheck (s : State) (o : FOp) : Nat :=
  match s.poolAt o.ctx o.addr with
  | none => 4
  | some p =>
    let named := match o.kind with
      | .merge | .ins | .scan | .probe | .inter | .topk => true
      | _ => false
    let wide := match o.kind with
      | .merge | .ins | .scan | .probe => o.flag 16
      | .inter | .topk => false
      | _ => p.c64
    if (named && o.fmt.toNat != p.fmt) || wide != p.c64 then 5
    else if (o.kind = .merge || o.kind = .ins) && !copOk (o.cop p) p.fmt then 5
    else 0

def FOp.plan (s : State) (o : FOp) (p : Pool) : FPlan :=
  let st := homeStackOf (fibrePoolNo o.addr) (fibreIndex o.addr)
  fibrePlan p.fmt (o.cop p) p.cap (p.perStack - p.used.get st 0) (p.nextSeg.get st 0) (s.fibreAt o.ctx o.addr).segs
    (o.pairs.map (fun x => (x.1, w64 (x.2.val.toNat % 2 ^ fmtWidth p.fmt)))) (o.pairs.any (fun x => x.2.psn || x.2.inv))

/-- Segments a writer would read or write: none if a check ends it. -/
def State.fopTouches (s : State) (o : FOp) : List Nat :=
  if s.fopCheck o != 0 then []
  else match o.kind, s.poolAt o.ctx o.addr with
    | .merge, some p | .ins, some p => (o.plan s p).touched
    | _, _ => (s.fibreAt o.ctx o.addr).segs.map (·.num)
/-- The hold condition of R264. -/
def State.fopHeld (s : State) (o : FOp) : Bool :=
  let t := s.fopTouches o
  s.fops.any (fun e => e.2.st = .scanning && e.2.key = o.key && e.2.todo.any t.contains)

/-! ### Results -/

/-- The token of a pair that has been read: with C64 the coordinate and the value apart (R268). -/
def pairToken (c64 : Bool) (ix : Nat) (f : Nat) (e : W64 × W64 × Bool) : Token × Token :=
  let v : Token :=
    if e.2.2 then { val := w64 ((Config.poisonWord (ix * 65536 + e.1.toNat)).toNat % 2 ^ fmtWidth f), psn := true }
    else { val := e.2.1 }
  if c64 then ({ val := e.1, psn := e.2.2 }, v)
  else
    let t := { v with ix := some (.ofNat 32 e.1.toNat) }
    (t, t)
def bubblePair (mk : BitVec 4) : Token × Token := ({ mks := mk, bub := true }, { mks := mk, bub := true })
/-- The tokens of an operation: the last carries its markers; none gives a bubble (R268). -/
def closeOut (mk : BitVec 4) (l : List (Token × Token)) : List (Token × Token) :=
  match l.getLast? with
  | none => [bubblePair mk]
  | some x => l.dropLast ++ [({ x.1 with mks := mk }, { x.2 with mks := mk })]

/-- SIX with KEY 1 over a fibre's pairs and a stream (R203, R270): matches, and stream tokens discarded for a
missing or non-rising coordinate. -/
def intersect (ix f : Nat) : Nat → Option W64 → List (W64 × W64 × Bool) → List (W64 × Token) → List (Token × Token) × Nat
  | 0, _, _, _ => ([], 0)
  | _, _, [], _ => ([], 0)
  | _, _, _, [] => ([], 0)
  | n + 1, last, x :: xs, y :: ys =>
    if y.2.ix.isNone || (match last with | some l => y.1 ≤ l | none => false) then
      let r := intersect ix f n last (x :: xs) ys
      (r.1, r.2 + 1)
    else if x.1 < y.1 then intersect ix f n last xs (y :: ys)
    else if y.1 < x.1 then intersect ix f n (some y.1) (x :: xs) ys
    else
      let r := intersect ix f n (some y.1) xs ys
      (((pairToken false ix f x).1, { y.2 with mks := 0 }) :: r.1, r.2)

/-- FTOPK's selection (R205, R270). -/
def topPairs (o : FOp) (ix : Nat) (got : List (W64 × W64 × Bool)) : List (Token × W32) :=
  got.foldl (fun (l : List (Token × W32)) (e : W64 × W64 × Bool) =>
    let t := (pairToken false ix o.fmt.toNat e).1
    if o.flag 31 && topNaN o.fmt.toNat t then l
    else (topInsert o.fmt.toNat (o.flag 30) (t, t.ix.getD 0) l).take (o.bits 22 8 + 1)) []

/-- The result of a scan whose last segment has been read. -/
def FOp.scanned (o : FOp) (ix : Nat) (other : Option FOp) : FOp :=
  let bad := o.got.any (fun e => e.2.2)
  match o.kind with
  | .scan =>
    { o with status := if bad then 6 else 0, ins := o.got.length
             out := closeOut (o.mks ||| 1) (o.got.map (pairToken (o.flag 16) ix o.fmt.toNat)) }
  | .topk =>
    let l := topPairs o ix o.got
    { o with status := if bad then 6 else 0, ins := l.length
             out := closeOut (o.mks ||| 1) (l.map (fun e => ({ e.1 with ix := some e.2 }, { e.1 with ix := some e.2 }))) }
  | .inter =>
    let ys : List (W64 × Token) := match other with
      | some h => h.got.map (fun e => (e.1, (pairToken false ix o.fmt.toNat e).1))
      | none => o.pairs
    let bad := bad || (match other with | some h => h.got.any (fun e => e.2.2) | none => false)
    let (l, n) := intersect ix o.fmt.toNat (o.got.length + ys.length + 1) none o.got ys
    { o with status := if bad then 6 else 0, ins := l.length, lost := n
             segrd := o.segrd + (match other with | some h => h.segrd | none => 0)
             hold := min (2 ^ 23 - 1) (o.hold + (match other with | some h => h.hold | none => 0))
             out := closeOut (o.mks ||| 1) l }
  | _ =>
    -- FCOUNT.NZ
    let n := (o.got.filter (fun e => !fmtZero o.fmt.toNat o.fbc e.2.1.toNat)).length
    let t : Token := if bad then { mks := o.mks, psn := true } else { val := w64 n, mks := o.mks }
    { o with status := if bad then 6 else 0, out := [(t, t)] }

/-- Stream tokens that an intersection discards are counted (R189). -/
def Region.lostTokens (rg : Region) (n : Nat) : Region :=
  if n = 0 then rg else { rg with lmc := .ofNat 32 (min (2 ^ 32 - 1) (rg.lmc.toNat + n)), lms := true }

/-- A scan that has read all its segments gives its result; one of two fibres waits for the other (R270). -/
def State.endScan (s : State) (id : Nat) (o : FOp) : State :=
  match o.half with
  | some m =>
    let s := s.putFop id { o with st := .done }
    match s.fops.find m with
    | none => { s with fops := s.fops.del id }
    | some x =>
      if x.st = .scanning && x.todo.isEmpty then
        let s := s.putFop m { x.scanned s.freeIx (some o) with st := .done }
        { s with fops := s.fops.del id }
      else s
  | none =>
    match o.other with
    | some h =>
      match s.fops.find h with
      | some x =>
        if x.st = .done then
          let s := s.putFop id { o.scanned s.freeIx (some x) with st := .done }
          { s with fops := s.fops.del h }
        else s.putFop id o
      | none => s.putFop id o
    | none =>
      s.putFop id { o.scanned s.freeIx none with st := .done }

/-- What an operation that found nothing emits: a bubble with the markers of its last token (R268 to R270). -/
def FOp.voidOut (o : FOp) : List (Token × Token) :=
  if o.kind.writer then []
  else [bubblePair (match o.kind with
    | .scan | .topk | .inter => o.mks ||| 1
    | .probe => o.mks ||| (o.pairs.headD (0, {})).2.mks
    | _ => o.mks)]
/-- An operation ends with a status and no effect (R247, R259, R261): every count is zero, and of two fibres the
other is no longer scanned. -/
def State.endFop (s : State) (id : Nat) (o : FOp) (status : Nat) : State :=
  match o.half with
  | some m => { s with fops := (s.fops.upd m (fun x => { x with st := .done, status := status, segrd := 0, todo := [], other := none, out := if status = 6 then x.voidOut else [] })).del id }
  | none =>
    let s := s.putFop id { o with st := .done, status := status, other := none, segrd := 0, todo := [] }
    match o.other with
    | some h => { s with fops := s.fops.del h }
    | none => s

/-- Whether the search for the segment `g` of an index meets an error: it reads that segment's entry, and others in an
order of its own (R255). -/
def Fibre.searchBad (f : Fibre) (ix : Nat) (g : Option FSeg) : Bool :=
  !f.badIndex.isEmpty && ((match g with | some g => f.badIndex.contains g.num | none => false) || Config.choice (ix * 65536 + 40))
/-- FPROBE (R269). -/
def FOp.probe (o : FOp) (f : Fibre) (ix : Nat) : FOp :=
  let (x, t) := o.pairs.headD (0, {})
  let mk := o.mks ||| t.mks
  let miss : FOp := { o with status := 7, out := [bubblePair mk] }
  let seg := (f.segs.filter (fun g => g.lo ≤ x)).getLast?
  if f.searchBad ix seg then { miss with status := 6 }
  else match seg with
  | none => miss
  | some g =>
    if g.hi < x then miss
    else match g.pairs.find? (fun p => p.1 = x) with
      | some p =>
        { o with status := if g.bad then 6 else 0, segrd := 1, ins := 1
                 out := closeOut mk [pairToken (o.flag 16) ix o.fmt.toNat (p.1, p.2, g.bad)] }
      | none => { miss with status := if g.bad then 6 else 7, segrd := 1 }

/-- FSTAT's fields (R271). -/
def fstatField (k : Nat) (f : Fibre) (a : W64) : W64 :=
  match k with
  | 0 => w64 f.len
  | 1 => w64 f.segs.length
  | 2 => zext64 f.version
  | 3 => (f.segs.head?.map FSeg.lo).getD 0
  | 4 => (f.segs.getLast?.map FSeg.hi).getD 0
  | _ => w64 (16 * homeStackOf (fibrePoolNo a) (fibreIndex a) + homeUnitOf (fibreIndex a))

/-- FCOMPACT's chain (R272). -/
def compacted (c : Nat) (segs : List FSeg) : List FSeg :=
  let all := segs.flatMap (·.pairs)
  let k := (all.length + c - 1) / c
  ((List.range k).zip segs).map (fun e => { e.2 with pairs := (all.drop (e.1 * c)).take c })

/-- An operation starts, or takes effect at once, at the head of its fibre's order (R264 to R272). -/
def State.startFop (s : State) (id : Nat) (o : FOp) : State :=
  let f := s.fibreAt o.ctx o.addr
  let o := { o with hold := if o.waited then min (2 ^ 23 - 1) (1 + Config.cycles (s.freeIx * 65536 + id)) else 0 }
  let done := fun (s : State) (o : FOp) => s.putFop id { o with st := .done }
  let code := s.fopCheck o
  match s.poolAt o.ctx o.addr with
  | none => s.endFop id o 4
  | some p =>
    if code != 0 then s.endFop id o code
    else if f.bad then s.endFop id { o with out := o.voidOut } 6
    else if o.scans then
      let o := { o with st := .scanning, todo := f.segs.map (·.num), segrd := f.segs.length
                        fmt := if o.kind = .count then .ofNat 8 p.fmt else o.fmt }
      if o.todo.isEmpty then s.endScan id o else s.putFop id o
    else match o.kind with
    | .probe => done s (o.probe f s.freeIx)
    | .clear => done (s.setChain o.ctx o.addr [] []) { o with comb := f.len }
    | .compact =>
      match f.segs.findIdx? (fun g => g.bad) with
      | some k => done s { o with status := 6, segrd := k + 1 }
      | none =>
        let l := compacted p.cap f.segs
        done (s.setChain o.ctx o.addr l (l.map FSeg.num))
          { o with segrd := f.segs.length, segwr := l.length, comb := f.segs.length - l.length }
    | .count =>
      let t : Token := { val := w64 f.len, mks := o.mks }
      done s { o with out := [(t, t)] }
    | .stat =>
      let t : Token := { val := fstatField (o.bits 22 3) f o.addr, mks := o.mks }
      done s { o with out := [(t, t)] }
    | _ =>
      let r := o.plan s p
      let st := homeStackOf (fibrePoolNo o.addr) (fibreIndex o.addr)
      let o := { o with status := r.status, segrd := r.segrd, segwr := r.segwr, splits := r.splits, ins := r.ins, comb := r.comb
                        flags := r.flags.setWidth 4 }
      if r.status != 0 then done s o
      else
        let s : State := { s with pools := s.pools.upd (poolKey o.ctx o.addr) (fun p =>
          { p with nextSeg := p.nextSeg.put st (p.nextSeg.get st 0 + r.fresh) }) }
        done (s.setChain o.ctx o.addr r.segs r.touched) o

/-- The operation at the head of a fibre's order. -/
def State.fopHead (s : State) (key : Nat) : Option (Nat × FOp) :=
  (s.fops.filter (fun e => (e.2.st = .waiting || e.2.st = .held) && e.2.key = key)).foldl
    (fun (b : Option (Nat × FOp)) (e : Nat × FOp) =>
      match b with
      | none => some e
      | some x => if e.2.order < x.2.order then some e else b) none

/-- A fibre's operations are taken in arrival order: a writer that must wait is held, and all behind it wait
(R264). -/
def State.serveFibre : Nat → Nat → State → State
  | 0, _, s => s
  | n + 1, key, s =>
    match s.fopHead key with
    | none => s
    | some (id, o) =>
      if o.kind.writer && s.fopHeld o then
        { s with fops := s.fops.map (fun e =>
            if (e.2.st = .waiting || e.2.st = .held) && e.2.key = key
            then (e.1, { e.2 with waited := true, st := if e.1 = id then .held else e.2.st }) else e) }
      else (s.startFop id o).serveFibre n key
def State.serve (s : State) (key : Nat) : State := s.serveFibre s.fops.length key
/-- Every fibre with operations is served, again where another's end has let it go on. -/
def State.serveAll (s : State) : State :=
  let keys := (s.fops.map (fun e => e.2.key)).eraseDups
  keys.foldl (fun s _ => keys.foldl State.serve s) s

/-- Operations of one node. -/
def FOp.sameNode (a b : FOp) : Bool := a.rid = b.rid && a.blk = b.blk && a.nidx = b.nidx
/-- Operations that stage a segment of slot b before they arrive (R263). -/
def FOp.stages (o : FOp) : Bool := o.kind = .merge || (o.kind = .inter && o.flag 17)

/-- FIBRE_OP_ARRIVE (R263): an operation arrives at its home merge unit, behind the earlier ones of its node. -/
def execFibreOpArrive (id : Nat) (s : State) : Out :=
  match s.fops.find id with
  | none => .next s
  | some o =>
    if o.noop || o.st != .staged
        || s.fops.any (fun e => e.1 < id && e.2.sameNode o && e.2.st = .staged && !e.2.noop)
        || (o.stages && !((s.rg? o.rid).map Region.resident).getD false) then .next s
    else
      let o := { o with order := s.nextId, st := .waiting }
      let s : State := { s with nextId := s.nextId + 1 }
      .next (s.putFop id o).serveAll

/-- SCAN_SEGMENT_DONE (R264): a scan of a resident region finishes reading its next segment (R273). -/
def execScanSegmentDone (id : Nat) (s : State) : Out :=
  match s.fops.find id with
  | none => .next s
  | some o =>
    match o.todo with
    | [] => .next s
    | k :: more =>
      if o.st != .scanning || !((s.rg? o.rid).map Region.resident).getD false then .next s
      else
        let l := match (s.fibreAt o.ctx o.addr).segs.find? (fun g => g.num = k) with
          | some g => g.pairs.map (fun p => (p.1, p.2, g.bad))
          | none => []
        let o := { o with todo := more, got := o.got ++ l }
        .next (if more.isEmpty then s.endScan id o else s.putFop id o).serveAll

/-! ### Records and completion (R258, R260, R262) -/

def sat16 (n : Nat) : Nat := min 65535 n
def FOp.dw0 (o : FOp) : W64 :=
  w64 (o.hold * 2 ^ 40 + sat16 o.splits * 2 ^ 24 + 2 ^ 8 + o.flags.toNat * 2 ^ 4 + o.status)
def FOp.dw1 (o : FOp) : W64 :=
  w64 (sat16 o.comb * 2 ^ 48 + sat16 o.ins * 2 ^ 32 + sat16 o.segwr * 2 ^ 16 + sat16 o.segrd)

/-- A trap at an operation's position, precise at the node once the operations before it have completed (R430, R441). -/
def State.trapFop (s : State) (id : Nat) (o : FOp) (cause : Nat) (va info : W64) : State :=
  match s.nodeAt o.rid o.blk o.nidx with
  | none => s
  | some d =>
    if s.fops.any (fun e => e.1 < id && e.2.sameNode o && e.2.half.isNone) then s
    else
      let t : TrapRec := { cause := cause, eaddr := va, einfo := info, node := true, blk := d.b, nidx := d.n
                           dune := d.cfg.dune, iter := o.num }
      let d := d.upd (fun st => { st with stopped := some t })
      (d.done.raise d.r t (.node (d.cfg.dune / 8))).putFop id { o with trapped := true }

/-- A dword of the record is written: dword 1 first, an ordinary write, then dword 0 as a release at PKG scope (R260,
R324). -/
def State.writeRec (s : State) (id : Nat) (o : FOp) (rg : Region) (base : W64) : State :=
  let va := if o.stage = 0 then base + 8 else base
  let x := if o.stage = 0 then o.dw1 else o.dw0
  match xlate s rg.core rg.ctx va .write with
  | .error f =>
    if !f.recoverable then s.trapFop id o 3 va (f.detail .write)
    else
      let dune := (rg.nodeCfg o.blk o.nidx).elim 0 (·.2.dune)
      let t : TrapRec := { cause := 3, node := true, blk := o.blk, nidx := o.nidx, dune := dune, iter := o.num }
      let (s, n) := s.pause o.rid rg va f .write (.mergeUnit (dune / 8)) t
      s.putFop id { o with paused := some n }
  | .ok t =>
    -- a quiesced stack's accesses wait (R457)
    if t.local?.any s.quiesced then s else
    let rel := o.stage != 0
    let s := if rg.place.isSome then s.cache rg.core rg.ctx va else s
    let s := if rel && rg.place.isSome then s.bump o.rid else s
    match t with
    | .loc pa uchk =>
      let s := s.settle1 o.rid pa uchk
      let s := s.write (s.keyOf rg.ctx) pa (leBytes 8 x.toNat)
      let s := if uchk then s else s.setTag (sectorOf pa) (if rg.place.isSome then s.tagOf o.rid else {})
      s.putFop id { o with stage := o.stage + 1 }
    | .rem rn ch rod a _ =>
      let (s, n) := s.sendRemote { kind := .fibreRec, ctx := rg.ctx, rid := o.rid, blk := o.blk, nidx := o.nidx, i := id
                                   rnode := rn, chan := ch, rod := rod, addr := a, va := va, bytes := leBytes 8 x.toNat }
      s.putFop id { o with remote := some n }

/-- The tokens of a completed operation go out: the first of each pair to C1 and C3, the other to C2 and C4, and an
order token to each order consumer (R260, R268). -/
def Nd.emitFop (d : Nd) (o : FOp) : Nd :=
  let d := o.out.foldl (fun (d : Nd) (t : Token × Token) =>
    (d.sendTo (d.dataPlaces.filter (fun k => k % 2 = 0)) t.1).sendTo (d.dataPlaces.filter (fun k => k % 2 = 1)) t.2) d
  d.sendTo d.orderPlaces { mks := o.mks }

/-- The stream tokens that an intersection discards are counted; with LMTRAP the first of them is the trap instead, and
they are counted once a return has skipped it (R189, R203, R270, R432). -/
def State.countLost (s : State) (id : Nat) (o : FOp) : State :=
  match s.nodeAt o.rid o.blk o.nidx with
  | none => s.putFop id { o with lost := 0 }
  | some d =>
    if d.blk.lmtrap && !d.st.lmOff then s.trapFop id o 7 0 (w64 d.rg.lmc.toNat)
    else (s.updRg o.rid (fun rg => rg.lostTokens o.lost)).putFop id { o with lost := 0, trapped := false }

/-- FIBRE_OP_COMPLETE (R260): a dword of an operation's record is written; when the record stands, and the
node's earlier operations have completed, the node sends the operation's tokens, unless it is saved (R273). -/
def execFibreOpComplete (id : Nat) (s : State) : Out :=
  match s.fops.find id with
  | none => .next s
  | some o =>
    match s.rg? o.rid with
    | none => .next s
    | some rg =>
      let st := rg.nodes.get (128 * o.blk + o.nidx) {}
      if o.half.isSome || o.st != .done || o.paused.isSome || o.remote.isSome || st.stopped.isSome then .next s
      else if o.trapped && st.skip then
        .next ((s.updRg o.rid (fun rg => { rg with nodes := rg.nodes.upd (128 * o.blk + o.nidx) (fun st => { st with skip := false }) })).putFop id
          { o with rec_ := none, trapped := false, out := o.voidOut })
      else if o.lost != 0 then .next (if rg.resident then s.countLost id o else s)
      else match o.stage, o.rec_ with
        | 0, some base | 1, some base => .next (s.writeRec id { o with trapped := false } rg base)
        | _, _ =>
          if !rg.resident || st.saved || s.fops.any (fun e => e.1 < id && e.2.sameNode o && e.2.half.isNone) then .next s
          else match s.nodeAt o.rid o.blk o.nidx with
            | none => .next s
            | some d =>
              if !d.room then .next s
              else
                let s := (d.emitFop o).done
                .next { s with fops := s.fops.del id }

end Sys2Proof.Machine
end

