-- ==== Sys2Proof/Machine/Device.lean ====
section
/-! DEFINITION. What the device itself stores for a context and a queue: completion words and records (13
R345; 14 R354, R361; 20 R434), and the taking of records. -/
namespace Sys2Proof.Machine

/-- The device stores bytes at a context's virtual address, sector by sector in rising order. It has no region, so a
release of it leaves the tag of no identifier, and none in an unchecked page (R327; notes/assumptions/20.md); an address
that does not translate stores nothing (notes/assumptions/21.md). -/
def State.devStore (s : State) (x : DevStore) : State :=
  (pieces x.va.toNat x.bytes.length).foldl (fun s p =>
    let bs := (x.bytes.drop (p.1 - x.va.toNat)).take p.2
    match (walk s x.ctx (w64 p.1)).bind (leafTarget s x.ctx (w64 p.1) .write) with
    | .error _ => s
    | .ok (.loc pa uchk) =>
      let s := s.write (s.keyOf x.ctx) pa bs
      let s := if x.raw then s.setFmt (sectorOf pa) 0 0 0 else s
      if uchk then s else s.setTag (sectorOf pa) {}
    | .ok (.rem rn ch rod a _) =>
      { s.wakePort with
        nextId := s.nextId + 1
        remotes := s.remotes.put s.nextId { kind := .dev, ctx := x.ctx, rid := 0, blk := x.who, rnode := rn, chan := ch, rod := rod, addr := a, va := w64 p.1, bytes := bs } }) s

/-- A remote store of the device for a queue or a residency has not performed (R333). -/
def State.devSent (s : State) (who : Nat) : Bool := s.remotes.any (fun (e : Nat × Remote) => e.2.kind = .dev && e.2.blk = who)
/-- The same, or one waits to be made. -/
def State.devBusy (s : State) (who : Nat) : Bool := s.devSent who || s.owed.any (fun x => x.who = who)
/-- A release at SYS scope: it waits for the earlier remote stores of its queue or residency (R333). -/
def State.devRelease (s : State) (x : DevStore) : State :=
  if s.devBusy x.who then { s with owed := s.owed ++ [x] } else s.devStore x
/-- Releases that wait are made, in order, as the stores before them have performed. -/
def State.payOwed (s : State) (who : Nat) : Nat → State
  | 0 => s
  | n + 1 =>
    if s.devSent who then s
    else match s.owed.find? (fun x => x.who = who) with
      | none => s
      | some x => (({ s with owed := s.owed.erase x } : State).devStore x).payOwed who n

/-- DONE of a queue has risen: it is stored at CWA, when CWA is nonzero (R354). -/
def State.storeDone (s : State) (qn : Nat) : State :=
  match s.queue? qn with
  | none => s
  | some q => if q.cwa = 0 then s else s.devRelease { who := qn, ctx := q.ctx, va := q.cwa, bytes := leBytes 8 q.done.toNat }

/-- Fault records that found the fault queue full are appended as slots come free, while the context is
Active (R434). -/
def State.refill (s : State) (c : Nat) : State :=
  match s.ctx? c with
  | none => s
  | some x =>
    if x.st != .active then s
    else match x.heldRecs with
      | [] => s
      | r :: rest =>
        match s.push x.faultq r.dw with
        | none => s
        | some (s, n) =>
          -- an outstanding fault whose record this is finds it in the queue from now on
          ({ s with faults := s.faults.map (fun (e : Nat × FaultRec) =>
              if e.2.ctx = c && e.2.queueSeq.isNone && !e.2.woken && e.2.of r && !rest.any e.2.of then (e.1, { e.2 with queueSeq := some n }) else e) } : State).setCtx
            c { x with heldRecs := rest }

/-- A dword the device reads for a context in a reading that began at `t` (R8): none where it does not translate, meets an
uncorrectable error, or a remote device fails to answer. -/
def State.devWord (s : State) (t c : Nat) (va : W64) : Option W64 :=
  match (walk s c va).bind (fun l => leafTarget s c va .read l) with
  | .error _ => none
  | .ok (.loc pa _) => if s.poisonedAt pa 8 then none else some (w64 (leNat (s.seenSince t 8 (s.keyOf c) pa (s.peekN (s.keyOf c) pa 8))))
  | .ok (.rem _ _ _ _ _) =>
    let j := s.freeIx * 65536 + va.toNat % 65536
    if Config.choice j then none else some (Config.remoteWord j)
/-- Dwords read by the device, or none where one cannot be read. -/
def devDws (s : State) (t c : Nat) (va : W64) (n : Nat) : Option (List W64) :=
  (List.range n).foldr (fun i l => match s.devWord t c (va + w64 (8 * i)), l with
    | some x, some t => some (x :: t)
    | _, _ => none) (some [])

/-- Whether a sequence number has reached another, modulo 2^64 as R135 compares. -/
def tailReached (done n : W64) : Bool := (done - n).toNat < 2 ^ 63
/-- When the record at the head was appended, or `now` (R355, R357). -/
def Queue.since (q : Queue) (now : Nat) : Nat := ((q.tails.find? (fun t => tailReached t.1 (q.taken + 1))).map (·.2)).getD now
/-- Where the head record of a host-mode queue lies: its predecessor's NEXT, as it was read with the predecessor where
the record had been appended by then (R355, R357); none where NEXT cannot be followed. -/
def Queue.headAt (q : Queue) (s : State) : Option W64 :=
  if q.taken = 0 then some (dw q.desc 1)
  else match q.lastNext.orElse (fun _ => s.devWord (q.since (s.freeIx + 1)) q.ctx q.lastVa) with
    | none => none
    | some x => if x = 0 || x.toNat % 64 != 0 then none else some x
/-- The head record of a host-mode queue as it is read, once (R357); none where it cannot be. -/
def Queue.readHost (q : Queue) (s : State) : Option Queue :=
  match q.headAt s with
  | none => none
  | some va => (devDws s (q.since (s.freeIx + 1)) q.ctx va 8).map (fun l =>
      { q with store := [⟨l⟩], headVa := va, headNext := if q.taken + 1 = q.issued then none else some (dw l 0) })
/-- The queue once its head record, which stands in `store`, has left the head. -/
def Queue.pass (q : Queue) : Queue :=
  { q with
    taken := q.taken + 1, store := q.store.tail, lastVa := q.headVa, lastNext := q.headNext, headNext := none
    tails := q.tails.filter (fun t => t.1 != q.taken + 1 && tailReached t.1 (q.taken + 1)) }

/-- The queue with the record at the head of a consuming queue read (R355, R357). -/
def Queue.withHead (q : Queue) (s : State) : Option Queue :=
  if q.taken = q.issued then none else if q.dev || !q.store.isEmpty then some q else q.readHost s

/-- The head record of a consuming queue is taken: DONE rises and the slot is free (R354, R356, R367). -/
def State.takeRec (s : State) (qn : Nat) : Option (List W64 × State) :=
  match s.queue? qn with
  | none => none
  | some q =>
    if !q.consuming || !(q.st = .disabled || q.st = .enabled) then none
    else match q.withHead s with
      | none => none
      | some q =>
        match q.store.head? with
        | none => none
        | some r => some (r.dw, ((s.setQueue qn { q.pass with done := q.done + 1 }).storeDone qn).refill q.ctx)

end Sys2Proof.Machine
end

