-- ==== Sys2Proof/Machine/Fetch.lean ====
section
/-! DEFINITION. Instruction fetch: entering a segment and the nine checks (04 R101, R102, R109, R110). -/
namespace Sys2Proof.Machine

/-- EINFO of an illegal-opcode trap (R110). -/
def illegal (reason opc fpos : Nat) : FetchErr :=
  { cause := 0, eaddr := 0, einfo := w64 (fpos % 256 * 2 ^ 16 + opc % 256 * 2 ^ 8 + reason) }

/-- One fetched word, or the translation or poison trap (R109 check 3, R429): what memory holds, or held since `t` (R112). -/
def fetchWord (s : State) (core c t : Nat) (va : W64) : Except FetchErr Nat :=
  match xlate s core c va .fetch with
  | .error f => .error { cause := 3, eaddr := va, einfo := f.detail .fetch }
  | .ok (.rem _ _ _ _ _) => .error { cause := 3, eaddr := va, einfo := 0 }
  | .ok (.loc pa _) =>
    if s.poisonedAt pa 4 then .error { cause := 12, eaddr := va, einfo := 0 }
    else .ok (leNat (s.seenSince t 4 (s.keyOf c) pa (s.peekN (s.keyOf c) pa 4)))

/-- The pool ranges of a segment header read through `rd`: `none` when R101 or R102 is broken. -/
def readRanges (rd : W64 → Except FetchErr Nat) (base : W64) (len np : Nat) :
    Nat → Except FetchErr (Option (List (Nat × Nat)))
  | 0 => .ok (some [])
  | n + 1 =>
    let i := np - (n + 1)
    match rd (base + w64 (4 * (1 + i))) with
    | .error e => .error e
    | .ok r =>
      let off := r % 65536
      let pl := r / 65536
      if pl = 0 || off < 1 + np || off + pl > len then .ok none
      else match rd (base + w64 (4 * off)) with
        | .error e => .error e
        | .ok m =>
          if m % 4 != 3 || !(m / 4 % 16 = 1 || m / 4 % 16 = 2) || m / 2 ^ 22 != 0 || m / 64 % 65536 != pl then
            .ok none
          else match readRanges rd base len np n with
            | .error e => .error e
            | .ok none => .ok none
            | .ok (some l) =>
              if l.any (fun p => off < p.1 + p.2 && p.1 < off + pl) then .ok none
              else .ok (some ((off, pl) :: l))

/-- A segment header word at `base` (R101): the segment, or `none` when the header breaks a rule. -/
def segmentAt (rd : W64 → Except FetchErr Nat) (base : W64) (h : Nat) : Except FetchErr (Option Segment) :=
  let len := h / 2 ^ 10 % 65536
  let np := h / 64 % 16
  if h % 64 != 0x0F || h / 2 ^ 26 != 0 || len = 0 || np > 8 || len < 1 + np then .ok none
  else match readRanges rd base len np np with
    | .error e => .error e
    | .ok none => .ok none
    | .ok (some l) => .ok (some { base := base, len := len, pools := l })

def Segment.first (g : Segment) : W64 := g.base + w64 (4 * (1 + g.pools.length))
/-- Check 1: the word at an address lies in the extent. -/
def Segment.holds (g : Segment) (a : W64) : Bool :=
  (a - g.base).toNat < 4 * g.len
/-- Check 2: the word lies in a listed pool range. -/
def Segment.inPool (g : Segment) (a : W64) : Bool :=
  g.pools.any (fun p => 4 * p.1 ≤ (a - g.base).toNat && (a - g.base).toNat < 4 * (p.1 + p.2))

/-- Where the words of a segment lie in memory. -/
def segPas (s : State) (core c : Nat) (g : Segment) : List (Nat × Nat) :=
  (pieces64K g.base.toNat (4 * g.len)).filterMap (fun p =>
    match xlate s core c (w64 p.1) .fetch with
    | .ok (.loc pa _) => some (pa, p.2)
    | _ => none)

/-- A control transfer's target that is the first word of a segment header enters that segment (R109); one at no word's
address holds no word (R83). -/
def enterSegment (s : State) (rg : Region) (q : Seq) : Except FetchErr Seq :=
  if !q.xfer then .ok q
  else if q.pc.toNat % 4 != 0 then .ok { q with xfer := false }
  else if (match q.seg with | some g => g.holds q.pc && g.inPool q.pc | none => false) then
    .ok { q with xfer := false }
  else match fetchWord s rg.core rg.ctx (s.freeIx + 1) q.pc with
    | .error e => .error e
    | .ok h =>
      match segmentAt (fetchWord s rg.core rg.ctx (s.freeIx + 1)) q.pc h with
      | .error e => .error e
      | .ok (some g) =>
        .ok { q with seg := some { g with pas := segPas s rg.core rg.ctx g }, pc := g.first, xfer := false, entered := s.freeIx }
      | .ok none => .ok { q with xfer := false }

/-- Check 9: a special register's access exceeds the mode, or RETT in user mode (R108, R145). -/
def csrReadMode : Csr → Nat
  | .epc | .ecause | .eaddr | .einfo | .tvec => 1
  | _ => 0
def csrWriteMode : Csr → Option Nat
  | .cyc | .pageid | .ctxid | .dupmap => none
  | .acs | .budget | .best | .bestres | .monmask => some 0
  | .stat | .epc | .ecause | .eaddr | .einfo | .tvec => some 1
def csrWriteOk (mode : Nat) (n : Csr) : Bool :=
  match csrWriteMode n with
  | none => false
  | some m => m ≤ mode
def modeCheck (mode : Nat) : Instr → Option Nat
  | .csrr _ _ n => if csrReadMode n ≤ mode then none else some 32
  | .csrw _ _ n => if csrWriteOk mode n then none else some 32
  | .csrx _ _ _ n _ _ => if csrReadMode n ≤ mode && csrWriteOk mode n then none else some 32
  | .rett _ | .rettNext _ => if mode = 0 then some 2 else none
  | _ => none

/-- Checks 4 to 9 on fetched words (R109). -/
noncomputable def decodeFetched (mode w0 w1 w2 : Nat) : Except FetchErr Instr :=
  let op := w0 / 4 % 256
  if w0 % 4 = 3 then .error (illegal 4 op 0)
  else match opClass op with
    | .reserved => .error (illegal 0 op 0)
    | .node | .fibre => .error (illegal 1 op 0)
    | _ =>
      match decodeWords w0 w1 w2 with
      | .error (.field p) => .error (illegal 2 op p)
      | .error .csr => .error (illegal 6 op 32)
      | .error _ => .error (illegal 3 op 0)
      | .ok i =>
        match modeCheck mode i with
        | some p => .error (illegal 6 op p)
        | none => .ok i

/-- The later words of an instruction: check 1 for all, check 2 for all, then the reads. -/
def laterWords (s : State) (rg : Region) (g : Segment) (t : Nat) (pc : W64) (n : Nat) : Except FetchErr (Nat × Nat) :=
  let a1 := pc + 4
  let a2 := pc + 8
  if (n ≥ 1 && !g.holds a1) || (n ≥ 2 && !g.holds a2) then .error (illegal 5 0 0)
  else if n ≥ 1 && g.inPool a1 then .error { cause := 1, eaddr := a1, einfo := 0 }
  else if n ≥ 2 && g.inPool a2 then .error { cause := 1, eaddr := a2, einfo := 0 }
  else match (if n ≥ 1 then fetchWord s rg.core rg.ctx t a1 else .ok 0) with
    | .error e => .error e
    | .ok w1 =>
      match (if n ≥ 2 then fetchWord s rg.core rg.ctx t a2 else .ok 0) with
      | .error e => .error e
      | .ok w2 => .ok (w1, w2)

/-- The instruction at pc, or the trap of the first check that fails (R109). -/
noncomputable def fetchAt (s : State) (rg : Region) (q : Seq) : Except FetchErr Instr :=
  if q.pc.toNat % 4 != 0 then .error { cause := 2, eaddr := q.pc, einfo := 0 }
  else match q.seg with
  | none => .error (illegal 5 0 0)
  | some g =>
    if !g.holds q.pc then .error (illegal 5 0 0)
    else if g.inPool q.pc then .error { cause := 1, eaddr := q.pc, einfo := 0 }
    else match fetchWord s rg.core rg.ctx q.entered q.pc with
      | .error e => .error e
      | .ok w0 =>
        if w0 % 4 = 3 then
          if w0 / 4 % 16 = 1 || w0 / 4 % 16 = 2 then .error { cause := 1, eaddr := q.pc, einfo := 0 }
          else .error (illegal 4 (w0 / 4 % 256) 0)
        else match laterWords s rg g q.entered q.pc (w0 % 4) with
          | .error e => .error e
          | .ok (w1, w2) => decodeFetched q.mode w0 w1 w2

/-- Where the words lie that a sequencer's next fetch may read: at pc, and, where pc was set by a transfer, the segment whose
header stands there. -/
def fetchPas (s : State) (rg : Region) (q : Seq) : List (Nat × Nat) :=
  let rd := fetchWord s rg.core rg.ctx (s.freeIx + 1)
  let here := segPas s rg.core rg.ctx { base := q.pc, len := 3, pools := [] }
  if !q.xfer then here
  else match rd q.pc with
    | .error _ => here
    | .ok h => match segmentAt rd q.pc h with
      | .ok (some g) => segPas s rg.core rg.ctx g
      | _ => here
/-- A fetch performs after the sequencer's own earlier stores to the words that it reads (R319): they perform first. -/
def State.fetchAfter (s : State) (r pg : Nat) (rg : Region) (q : Seq) : State :=
  if q.stores.isEmpty then s
  else
    let l := fetchPas s rg q
    if q.stores.any (fun st => l.any (fun p => p.1 < st.pa + st.bytes.length && st.pa < p.1 + p.2)) then s.drain r pg else s

/-- Fetch: the state with the segment entered, and what is executed, a failed check being FETCH_FAULT. -/
noncomputable def State.fetch (s0 : State) (r pg : Nat) (rg : Region) (q0 : Seq) : State × Instr :=
  let s := s0.fetchAfter r pg rg q0
  let q := (s.seq? r pg).getD q0
  match enterSegment s rg q with
  | .error e => (s, .fetchFault e)
  | .ok q =>
    let q := { q with prevTurn := q.lastTurn, lastTurn := s.freeIx }
    let s := s.setSeq r pg q
    match fetchAt s rg q with
    | .error e => (s, .fetchFault e)
    | .ok i => (s.cache rg.core rg.ctx q.pc, i)

end Sys2Proof.Machine
end

