-- ==== Sys2Proof/Machine/SeqPorts.lean ====
section
/-! DEFINITION. Fabric control, ports and HALT (05 R136 to R144, R147; 15 R376, R377; 20 R433). -/
namespace Sys2Proof.Machine

/-! ### Reading configurations -/

/-- A read of `n` bytes by an issuing sequencer, without race checks (R137, R154), `f` telling what it sees of bytes in
memory; a remote node answers with bytes the model does not know, or fails (R420). -/
def Run.rdBy (v : Run) (f : Nat → List Byte → List Byte) (va : W64) (n : Nat) : Except TrapRec Nat :=
  match v.target va n .read with
  | .error t => .error t
  | .ok (.rem _ _ _ _ _) =>
    let j := v.s.freeIx * 65536 + va.toNat % 65536
    if Config.choice j then .error (xlateTrap va ⟨8, 0, 0⟩ .read)
    else .ok ((Config.remoteWord j).toNat % 2 ^ (8 * n))
  | .ok (.loc pa _) =>
    match v.bytes va pa n with
    | .error t => .error t
    | .ok l => .ok (leNat (f pa l))
def Run.rd (v : Run) (va : W64) (n : Nat) : Except TrapRec Nat := v.rdBy (fun _ l => l) va n
/-- A read of a configuration load: a word that a store has reached since the sequencer's last instruction, when the load
began, has its old or its new value (R112). -/
def Run.rdLoad (v : Run) (va : W64) (n : Nat) : Except TrapRec Nat := 
  v.rdBy (v.s.seenSince (v.q.prevTurn + 1) 4 (v.s.keyOf v.rg.ctx)) va n

/-- Installs the descriptor at `va`, with the list pointer that then stands (R137): the result, and the
region afterwards. -/
def Run.cfgAt (v : Run) (d : Reg) (va : W64) (lp : Option (W64 × Nat × Nat)) : Except TrapRec State :=
  match loadConfig v.rdLoad v.rg.pm1 va with
  | .error (.read t) => .error t
  | .error (.refuse c i) =>
    .ok (v.setIn (v.s.updRg v.r (fun rg => { rg.unarm with lp := lp })) (v.q.setG d (w64 (c + 256 * i))))
  | .ok k =>
    .ok (v.setIn (v.s.updRg v.r (fun rg => { rg.install k with lp := lp })) (v.q.setG d 0))

/-- A result that leaves the region unchanged (R137). -/
def Run.cfgCode (v : Run) (d : Reg) (c : Nat) : State := v.set (v.q.setG d (w64 c))

/-- R137 CFG VAR 0. -/
def Run.cfg (v : Run) (d : Reg) (va : W64) : Except TrapRec State :=
  if !v.lead then .ok (v.cfgCode d 12)
  else if v.rg.live then .ok (v.cfgCode d 11)
  else v.cfgAt d va v.rg.lp

/-- R137 CFG VAR 1. -/
def Run.cfgList (v : Run) (d : Reg) (va : W64) : Except TrapRec State :=
  if !v.lead then .ok (v.cfgCode d 12)
  else if v.rg.live then .ok (v.cfgCode d 11)
  else match v.rd va 8 with
    | .error t => .error t
    | .ok h =>
      if h / 65536 != 0 || h = 0 || 4096 < h then .ok (v.cfgCode d 13)
      else match v.rd (va + 8) 8 with
        | .error t => .error t
        | .ok e => v.cfgAt d (w64 e) (some (va, h, 0))

/-- R138 CFGSTEP. -/
def Run.cfgstep (v : Run) (d : Reg) (step : Int) : Except TrapRec State :=
  if !v.lead then .ok (v.cfgCode d 12)
  else if v.rg.live then .ok (v.cfgCode d 11)
  else match v.rg.lp with
    | none => .ok (v.cfgCode d 10)
    | some (a, n, li) =>
      let i := (li : Int) + step
      if i < 0 || (n : Int) ≤ i then .ok (v.cfgCode d 10)
      else match v.rd (a + w64 (8 * (1 + i.toNat))) 8 with
        | .error t => .error t
        | .ok e => v.cfgAt d (w64 e) (some (a, n, i.toNat))

/-- R137 CFG. -/
def execCfg (g : Guard) (d a : Reg) (s : State) : Out :=
  runSeq 1 g [a] s (fun v => v.cfg d (v.q.getG a))
/-- R137 CFG with a displacement. -/
def execCfgSi (g : Guard) (d a : Reg) (imm : Imm) (s : State) : Out :=
  runSeq 2 g [a] s (fun v => v.cfg d (v.q.getG a + sext64 imm))
/-- R137 CFG.LIST. -/
def execCfgList (g : Guard) (d a : Reg) (s : State) : Out :=
  runSeq 1 g [a] s (fun v => v.cfgList d (v.q.getG a))
/-- R137 CFG.LIST with a displacement. -/
def execCfgListSi (g : Guard) (d a : Reg) (imm : Imm) (s : State) : Out :=
  runSeq 2 g [a] s (fun v => v.cfgList d (v.q.getG a + sext64 imm))
/-- R138 CFGSTEP: one step forward. -/
def execCfgstep (g : Guard) (d : Reg) (s : State) : Out :=
  runSeq 1 g [] s (fun v => v.cfgstep d 1)
/-- R138 CFGSTEP with an immediate step. -/
def execCfgstepSi (g : Guard) (d : Reg) (imm : Imm) (s : State) : Out :=
  runSeq 2 g [] s (fun v => v.cfgstep d imm.toInt)

/-! ### RUN and BOUND -/

/-- R139 RUN: true when the counter starts; every earlier access of the lead performs first (R321). -/
def Run.doRun (v0 : Run) (p : PReg) (trips : List Nat) : State :=
  if v0.lead && v0.rg.armedCfg && v0.rg.st = .armed && !v0.rg.live then
    let v := v0.drained
    v.setIn (v.s.updRg v.r (fun rg => rg.start trips)) (v.q.setP p true)
  else v0.set (v0.q.setP p false)

/-- R139 RUN, trips from a register. -/
def execRun (g : Guard) (p : PReg) (a : Reg) (s : State) : Out :=
  runSeq 1 g [a] s (fun v =>
    let t := v.q.getG a
    .ok (v.doRun p [fld t 0 16 + 1, fld t 16 16 + 1, fld t 32 16 + 1, fld t 48 16 + 1]))
/-- R139 RUN, trips of dimensions 0 and 1 from the immediate. -/
def execRunSi (g : Guard) (p : PReg) (imm : Imm) (s : State) : Out :=
  runSeq 2 g [] s (fun v =>
    .ok (v.doRun p [imm.toNat % 65536 + 1, imm.toNat / 65536 + 1, 1, 1]))

/-- Whether a node holds an unapplied bound token (R140). -/
def NodeX.bounded : NodeX → Bool
  | .cnt _ _ (some _) _ | .agen _ (some _) _ => true
  | _ => false
/-- The node state with a bound token sent to it; a CNT of MODE 1 discards it (R207, R208). -/
def NodeX.bind (x : NodeX) (v : NodeV) (lim : W64) (n : Nat) : NodeX :=
  if v.op = 0xA7 then
    if v.flag 19 then x
    else match x with
      | .cnt c t _ it => .cnt c t (some n) it
      | _ => .cnt 0 (v.bits 0 16 + 1) (some n) 0
  else match x with
    | .agen l _ it => .agen l (some n) it
    | _ => .agen lim (some n) 0

/-- R140 BOUND of node `n` of block `b` with value `x`. -/
def Run.bound (v : Run) (p : PReg) (b n x : Nat) : State :=
  let key := 128 * b + n
  let no := v.set (v.q.setP p false)
  if !v.rg.armedCfg || 128 ≤ n || x = 0 || 2 ^ 32 < x then no
  else match v.rg.allNodes.find? (fun e => e.1 = key) with
    | none => no
    | some (_, bl, _, nv) =>
      let st := v.rg.nodes.get key {}
      if !(nv.op = 0xA7 || nv.op = 0xA8) || st.x.bounded then no
      else v.setIn (v.s.updRg v.r (fun rg => { rg with
          nodes := rg.nodes.put key { st with x := st.x.bind nv (agenLim bl nv) x } })) (v.q.setP p true)

/-- R140 BOUND, node and block from a register. -/
def execBound (g : Guard) (p : PReg) (a b : Reg) (s : State) : Out :=
  runSeq 1 g [a, b] s (fun v =>
    let t := v.q.getG a
    if fld t 11 53 != 0 then .ok (v.set (v.q.setP p false))
    else .ok (v.bound p (fld t 7 4) (fld t 0 7) (v.q.getG b).toNat))
/-- R140 BOUND, node and block from the immediate. -/
def execBoundSi (g : Guard) (p : PReg) (b : Reg) (node : BitVec 7) (blk : BitVec 4) (s : State) : Out :=
  runSeq 2 g [b] s (fun v => .ok (v.bound p blk.toNat node.toNat (v.q.getG b).toNat))

/-! ### Region accumulators (R141, R142) -/

def Region.setAcc (rg : Region) (n : BitVec 4) (a : Acc) : Region :=
  { rg with accs := rg.accs.set n.toNat a n.isLt }
def Region.getAcc (rg : Region) (n : BitVec 4) : Acc := rg.accs[n.toNat]'n.isLt

/-- R141 ACCRST. -/
def execAccrst (g : Guard) (n : BitVec 4) (s : State) : Out :=
  runSeq 1 g [] s (fun v => .ok (v.setIn (v.s.updRg v.r (fun rg => rg.setAcc n {})) v.q))
/-- R141 ACCRST with an anchor. -/
def execAccrstSi (g : Guard) (n : BitVec 4) (imm : Imm) (s : State) : Out :=
  runSeq 2 g [] s (fun v => .ok (v.setIn (v.s.updRg v.r (fun rg =>
    rg.setAcc n { anchor := imm.toInt, av := true })) v.q))

/-- What ACCRD reads (R142). -/
def Acc.part (a : Acc) (part : BitVec 3) : W64 :=
  if part = 0 then w64 a.word else i64 (a.v / ((2 ^ (64 * (part.toNat - 1)) : Nat) : Int))
/-- R142 ACCRD. -/
def execAccrd (g : Guard) (part : BitVec 3) (d : Reg) (n : BitVec 4) (s : State) : Out :=
  runSeq 1 g [] s (fun v => .ok (v.set (v.q.setG d ((v.rg.getAcc n).part part))))
/-- R142 ACCRD, form SI. -/
def execAccrdSi (g : Guard) (part : BitVec 3) (d : Reg) (n : BitVec 4) (s : State) : Out :=
  runSeq 2 g [] s (fun v => .ok (v.set (v.q.setG d ((v.rg.getAcc n).part part))))

/-! ### Ports (R143, R144) -/

/-- R143 PORTW of port `n`: refused unless an INGR of the armed configuration reads the port, its format
fits 64 bits, the buffer has room and the port has not ended. -/
def Run.portw (v : Run) (eos : Bool) (p : PReg) (n : Nat) (x : W64) : State :=
  let no := v.set (v.q.setP p false)
  match (if n < 64 then v.rg.inNode n else none) with
  | none => no
  | some nv =>
    let pt := v.rg.inPort n
    let w := fmtWidth nv.fmt
    if 64 < w || !pt.room || pt.ended then no
    else
      let t : Token := if eos then eosToken else { val := w64 (x.toNat % 2 ^ w) }
      v.setIn (v.s.updRg v.r (fun rg => rg.feed n t)) (v.q.setP p true)

/-- R143 PORTW. -/
def execPortw (g : Guard) (eos : Bool) (p : PReg) (a b : Reg) (s : State) : Out :=
  runSeq 1 g [a, b] s (fun v => .ok (v.portw eos p (v.q.getG b).toNat (v.q.getG a)))
/-- R143 PORTW with an immediate port. -/
def execPortwSi (g : Guard) (eos : Bool) (p : PReg) (a : Reg) (port : BitVec 6) (s : State) : Out :=
  runSeq 2 g [a] s (fun v => .ok (v.portw eos p port.toNat (v.q.getG a)))

/-- R144 PORTR of port `n`. An ended port that holds no token gives 1, though the pseudocode's first test gives 0 for an empty
buffer, and a PORTR that meets the end-of-stream takes it off the buffer (MODEL'S CHOICE, notes/assumptions/37.md). -/
def Run.portr (v : Run) (f : PReg) (d : Reg) (n : Nat) : State :=
  let none' := v.set ((v.q.setG d 0).setP f false)
  if 64 ≤ n || (v.rg.outNode n).isNone then none'
  else
    let pt := v.rg.outPort n
    let fin := v.setIn (v.s.updRg v.r (fun rg => rg.setOut n { pt with ended := true, q := pt.q.tail })) ((v.q.setG d 1).setP f false)
    if pt.taken then none'
    else match pt.q with
      | [] => if pt.ended then fin else none'
      | t :: r =>
        if t.eos || pt.ended then fin
        else v.setIn (v.s.updRg v.r (fun rg => rg.setOut n { pt with q := r })) ((v.q.setG d t.val).setP f true)

/-- R144 PORTR. -/
def execPortr (g : Guard) (f : PReg) (d a : Reg) (s : State) : Out :=
  runSeq 1 g [a] s (fun v => .ok (v.portr f d (v.q.getG a).toNat))
/-- R144 PORTR with an immediate port. -/
def execPortrSi (g : Guard) (f : PReg) (d : Reg) (port : BitVec 6) (s : State) : Out :=
  runSeq 2 g [] s (fun v => .ok (v.portr f d port.toNat))

/-! ### HALT (R147, R377, R433) -/

/-- R377: when the lead halts, helpers stop, every ingress port that the armed configuration reads, that has
not ended and that no accepted command names (`named`) is ended as by SCLOSE VAR 0, and chains at HOLD are
cancelled. -/
def Region.leadHalts (rg : Region) (named : Nat → Bool) : Region :=
  let rg1 := rg.cancelWhere (fun _ c => c.op = .chainw && c.hold)
  let ps := (List.range 64).filter (fun p =>
    (rg.inNode p).isSome && !(rg.inPort p).ended && !named p)
  let rg2 := ps.foldl (fun rg p =>
    rg.setIn p (({ rg.inPort p with ended := true, close := some [] } : InPort).settle)) rg1
  { rg2 with st := .draining, seqs := rg2.seqs.map (fun q => { q with halted := true, sleep := none }) }

/-- Stores of every sequencer of a region perform. -/
def State.drainAll (s : State) (r : Nat) : Nat → State
  | 0 => s
  | n + 1 => (s.drainAll r n).drain r n

/-- R431: traps pending when the lead halts are not taken: each is written as a record (a stall report needs
none), and a node trap abandons the residency. -/
def State.dropTraps (s : State) (r : Nat) : State :=
  match s.rg? r with
  | none => s
  | some rg => rg.pendTraps.foldl (fun s t => s.raise r t (if t.node then .node (t.dune / 8) else if t.cause = 8 then .engine t.page (t.einfo.toNat % 8) else .merge))
      (s.setRg r { rg with pendTraps := [] })

/-- R147 HALT: the sequencer stops and its registers, pc too, keep their values; at the lead the region's program
has ended. -/
def execHalt (s : State) : Out :=
  runSeq 0 ⟨0, false⟩ [] s (fun v =>
    let s1 := (v.s.drain v.r v.pg).updSeq v.r v.pg (fun q => { q with halted := true })
    if !v.lead then
      -- its pending format faults go to the lead (R159)
      .ok (s1.updRg v.r (fun rg => { rg with pendTraps := rg.pendTraps.foldl (fun l t =>
        insertTrap (if t.page = v.pg then { t with page := 0 } else t) l) [] }))
    else
      let named := fun p => !(s1.feeders v.r v.rg p).isEmpty
      let s2 := (s1.drainAll v.r v.rg.seqs.length).updRg v.r (fun rg =>
        if v.q.inh then (rg.leadHalts named).abandon else rg.leadHalts named)
      .ok (s2.dropTraps v.r))

end Sys2Proof.Machine
end

