-- ==== Sys2Proof/Machine/Place.lean ====
section
/-! DEFINITION. Placement, load, start and retirement of residencies (15 R368 to R379; 18 R411 to R414; 10 R278;
12 R324; 13 R343, R346). -/
namespace Sys2Proof.Machine

/-! ### Pages (R411 to R414) -/

def dieOf (core : Nat) : Nat := core / 48
def State.page (s : State) (core p : Nat) : Page := (s.core core).pages.getD p {}
def State.setPage (s : State) (core p : Nat) (x : Page) : State :=
  s.setCore core { s.core core with pages := listUpd (s.core core).pages p (fun _ => x) }
/-- The pages of a run. -/
def State.setRun (s : State) (core first n : Nat) (f : Page → Page) : State :=
  (List.range n).foldl (fun s i => s.setPage core (first + i) (f (s.page core (first + i)))) s
/-- A page becomes Free: the holder's fields are cleared, REMAP and a wish for a remap stay. -/
def Page.clear (x : Page) : Page := { remap := x.remap, want := x.want, wear := x.wear }
/-- The pages of a placed region are freed; a page whose remap is requested enters Quarantined (R412, R416). -/
def State.freePages (s : State) (core first n : Nat) : State :=
  s.setRun core first n (fun x => { x.clear with st := if x.want.isEmpty then .free else .quarantined })
/-- A page is held beside a residency's own run: borrowed for clones, or reserved for a custom operator (R380, R411,
R412). -/
def State.holdPage (s : State) (core p : Nat) (st : PageSt) (r : Nat) (rg : Region) : State :=
  s.setPage core p { s.page core p with
    st := st, ctx := rg.ctx, member := rg.member, first := rg.first, pm1 := rg.pm1, ctr := (s.page rg.core rg.first).ctr, rid := some r }
/-- A page is one of a residency's own run. -/
def Region.owns (rg : Region) (core p : Nat) : Bool := rg.place.isSome && rg.core = core && rg.first ≤ p && p ≤ rg.first + rg.pm1

/-- A pre-emption request for a group (R384, R395): merged with one made before, but a contract's abandons a load
or a restore. -/
def Group.ask (g : Group) (why : Preempt) : Group :=
  match g.st with
  | .loading | .restoring => if g.req.isNone || why = .contract then { g with req := some why } else g
  | .running => if g.req.isNone then { g with req := some why } else g
  | _ => g
/-- A move in progress whose member ends gives its destination back. -/
def State.dropMove (s : State) (p : Nat → Bool) : State :=
  match s.move with
  | none => s
  | some (r, first) =>
    if !p r then s
    else match s.rg? r with
      | none => { s with move := none }
      | some rg => { s.freePages (first / 12) (first % 12) (rg.pm1 + 1) with move := none }
/-- The pages a move has reserved: core, first page and how many. -/
def State.moveRun (s : State) : Option (Nat × Nat × Nat) :=
  s.move.bind (fun m => (s.rg? m.1).map (fun rg => (m.2 / 12, m.2 % 12, rg.pm1 + 1)))
/-- A page is a move's destination (R415). -/
def State.moveTarget (s : State) (core page : Nat) : Bool :=
  s.moveRun.any (fun m => m.1 = core && m.2.1 ≤ page && page < m.2.1 + m.2.2)
/-- The residency that holds a page, or for which a move has reserved it. -/
def State.holder (s : State) (core page : Nat) : Option Nat :=
  if s.moveTarget core page then s.move.map (·.1) else (s.page core page).rid
/-- A move whose destination is to be remapped ends once the moved member's image is written: the destination is withdrawn
(R416). -/
def State.spoilMove (s : State) : State :=
  match s.moveRun, s.move with
  | some (core, first, n), some (r, _) =>
    if (List.range n).all (fun i => (s.page core (first + i)).want.isEmpty)
        || ((((s.rg? r).bind (·.gid)).bind s.groups.find).elim true (fun g => g.st != .saved)) then s
    else s.dropMove (· = r)
  | _, _ => s
/-- A remap of a dune position is asked for, by wear or after an uncorrectable error (R416, R458). A Free page is Quarantined
at once; a held one keeps its state until its group's image is written, and a contract's own group is not pre-empted for it
(R384). -/
def State.askRemap (s : State) (core page pos : Nat) (wear : Bool) : State :=
  let x := s.page core page
  if x.want.contains pos then
    s.setPage core page { x with wear := if wear then x.wear else x.wear.filter (· != pos) }
  else
    let x := { x with want := x.want ++ [pos], wear := if wear then x.wear ++ [pos] else x.wear }
    if x.st = .free || x.st = .quarantined then s.setPage core page { x with st := .quarantined }
    else
      let s := s.setPage core page x
      match (if x.ctr then none else ((s.holder core page).bind s.rg?).bind (·.gid)) with
      | some k => ({ s with groups := s.groups.upd k (fun g => g.ask .remap) } : State).spoilMove
      | none => s

/-- The maximal runs of Free pages of a core: first page and length. -/
def freeRuns (pages : List Page) : List (Nat × Nat) :=
  (((List.range pages.length).zip pages).foldl (fun (l : List (Nat × Nat)) (e : Nat × Page) =>
    if e.2.st != .free then l
    else match l with
      | (a, n) :: t => if a + n = e.1 then (a, n + 1) :: t else (e.1, 1) :: (a, n) :: t
      | [] => [(e.1, 1)]) []).reverse
/-- The shortest maximal run of at least `p` pages on these cores; ties to the lower core, then the lower page
(R414). -/
def State.bestRun (s : State) (cores : List Nat) (p : Nat) : Option (Nat × Nat) :=
  ((cores.flatMap (fun c => (freeRuns (s.core c).pages).map (fun r => (c, r)))).foldl
    (fun (b : Option (Nat × Nat × Nat)) (e : Nat × Nat × Nat) =>
      if e.2.2 < p then b
      else match b with
        | none => some e
        | some x => if e.2.2 < x.2.2 then some e else b) none).map (fun e => (e.1, e.2.1))

/-- Cores the allocator considers (R414): dies of AFF, a Free Erg array where one is needed, and the set of a
contract. -/
def State.coresFor (s : State) (aff : Nat) (erg : Bool) (set : Nat → Bool) : List Nat :=
  (List.range coreCount).filter (fun c =>
    aff / 2 ^ dieOf c % 2 = 1 && set c && (!erg || (s.core c).erg.st = .free))

/-- The contract a queue belongs to, and its activation that holds a record (R364). -/
def State.activation (s : State) (qn : Nat) (q : Queue) (n : Nat) : Option (Nat × Contract × Activation) :=
  match q.cid with
  | none => none
  | some cid =>
    match s.contracts.find cid with
    | none => none
    | some k => (k.acts.find? (fun a => a.queue = qn && a.holds n)).map (fun a => (cid, k, a))
/-- Where the residencies of a record may be placed: the dies of AFF, for a contract's activation the cores of its set
(R353, R414), and CTR of their pages (R411). -/
structure Bounds where
  aff : Nat := 15
  set : Nat → Bool := fun _ => true
  ctr : Bool := false
def State.boundsOf (s : State) (launch : Option (Nat × Nat)) : Bounds :=
  match launch with
  | none => {}
  | some (k, n) =>
    match s.queue? k with
    | none => {}
    | some q => { aff := q.aff, set := (s.activation k q n).elim (fun _ => true) (fun a => contractHas a.2.1), ctr := q.cid.isSome }

/-- A contract window is open: an activation's last command has not completed and its WINDOW has not expired (R458). -/
def State.windowOpen (s : State) : Bool := s.contracts.any (fun (e : Nat × Contract) => e.2.acts.any (fun a => !a.miss))

/-- Pages a context holds: of placed residencies, reserved for custom operators, and borrowed for clones (R346,
R380). -/
def State.pagesOf (s : State) (c : Nat) : Nat :=
  (s.cores.map (fun e => (e.2.pages.filter (fun p => p.st != .free && p.st != .quarantined && p.ctx = c)).length)).sum
/-- Save slots in use (R343). -/
def State.slotsOf (s : State) (c : Nat) : Nat :=
  (s.regions.filter (fun e => e.2.ctx = c && e.2.nmem != 0 && e.2.st != .pending && e.2.st != .retired)).length
def Ctx.slots (x : Ctx) : Nat := fld (dw x.desc 0) 19 8

/-- Placement on a core that sleeps first restores it (R455). -/
def State.wakeCore (s : State) (core : Nat) : State :=
  if (s.core core).power = .active then s else s.setCore core { s.core core with waking := true }
/-- Whether a residency's core is still being restored. -/
def State.asleep (s : State) (r : Nat) : Bool :=
  match s.rg? r with
  | none => false
  | some rg => rg.place.isSome && (s.core rg.core).waking

/-- A residency takes its pages, its identifier and, where it needs one, the Erg array (R278, R324, R412). -/
def State.takePlace (s : State) (r core first : Nat) (ctr : Bool) (fresh : Bool) : State :=
  match s.rg? r with
  | none => s
  | some rg =>
    let s := (s.setRg r { rg with place := some (core, first) }).wakeCore core
    let s := s.setRun core first (rg.pm1 + 1) (fun x =>
      { x with st := if (s.core core).waking then .reserved else .loading, ctx := rg.ctx, member := rg.member, first := first, pm1 := rg.pm1, ctr := ctr, rid := some r, erg := false })
    let s := if !rg.erg then s
      else
        let s := s.setPage core first { s.page core first with erg := true }
        s.setCore core { s.core core with
          erg := if fresh then { st := .clearing, owner := some r }
                 else { rg.ergImage.getD {} with st := .restoring, owner := some r } }
    s.takeWid r

/-- The pages and the Erg array of a placed residency are released. -/
def State.leavePlace (s : State) (r : Nat) : State :=
  match s.rg? r with
  | none => s
  | some rg =>
    match rg.place with
    | none => s
    | some (core, first) =>
      let s := s.freePages core first (rg.pm1 + 1)
      let e := (s.core core).erg
      let s := if e.owner = some r && e.st != .saving then s.setCore core { s.core core with erg := {} } else s
      s.updRg r (fun rg => { rg with place := none })

/-! ### Reading for a load -/

/-- The device reads for a load that began at `t` (R112, R374); a failed translation, an uncorrectable error and a remote
device's failure end it. -/
def devReadSince (s : State) (c t : Nat) : Rd Unit := fun va n =>
  match (walk s c va).bind (fun l => leafTarget s c va .read l) with
  | .error _ => .error ()
  | .ok (.loc pa _) =>
    if s.poisonedAt pa n then .error () else .ok (leNat (s.seenSince t 4 (s.keyOf c) pa (s.peekN (s.keyOf c) pa n)))
  | .ok (.rem _ _ _ _ _) =>
    let j := s.freeIx * 65536 + va.toNat % 65536
    if Config.choice j then .error () else .ok ((Config.remoteWord j).toNat % 2 ^ (8 * n))
/-- The device reads what memory holds. -/
def devRead (s : State) (c : Nat) : Rd Unit := devReadSince s c (s.freeIx + 1)

/-- A refusal at load: code and index (R373). -/
abbrev LoadRes (α : Type) := Except (Nat × Nat) α
def Ld.result {α : Type} (x : Ld Unit α) : LoadRes α :=
  match x with
  | .ok a => .ok a
  | .error (.read _) => .error (20, 0)
  | .error (.refuse c i) => .error (c, i)

/-- A residency descriptor that keeps R369 (code 16 otherwise). -/
def readResidency (rd : Rd Unit) (a : W64) : LoadRes (List W64) :=
  if a.toNat % 64 != 0 then .error (16, 0)
  else match (ldReads rd 8 a 8).result with
    | .error e => .error e
    | .ok l =>
      let d := l.map w64
      if fld (dw d 0) 5 59 != 0 || 11 < fld (dw d 0) 0 4 || (dw d 1).toNat % 4 != 0 || (dw d 2).toNat % 8 != 0
          || (dw d 4).toNat % 64 != 0 || fld (dw d 5) 48 16 != 0 || dw d 6 != 0 || dw d 7 != 0 then .error (16, 0)
      else .ok d

/-- The fields of a residency that its descriptor gives. -/
def Region.ofDesc (rg : Region) (d : List W64) : Region :=
  { rg with
    pm1 := fld (dw d 0) 0 4, erg := bit (dw d 0) 4, lseg := dw d 1, hseg := dw d 2, cfga := w64 ((dw d 3).toNat / 2 * 2)
    listf := bit (dw d 3) 0, rra := dw d 4, ibud := .ofNat 48 (dw d 5).toNat }

/-- What a load reads: the segments of the sequencers by page, the configuration, the list pointer. -/
structure Image where
  segs : Assoc Segment
  kit : Option Kit
  lp : Option (W64 × Nat × Nat)

def Rd.toFetch (rd : Rd Unit) : W64 → Except FetchErr Nat := fun va =>
  match rd va 4 with
  | .ok x => .ok x
  | .error _ => .error { cause := 3, eaddr := va, einfo := 0 }
/-- A segment header that keeps R101 (code 17 otherwise, with the page). -/
def loadSegment (rd : Rd Unit) (p : Nat) (a : W64) : LoadRes Segment :=
  if a.toNat % 4 != 0 then .error (17, p)
  else match rd a 4 with
    | .error _ => .error (20, 0)
    | .ok h =>
      match segmentAt rd.toFetch a h with
      | .error _ => .error (20, 0)
      | .ok none => .error (17, p)
      | .ok (some g) => .ok g
def loadHelpers (rd : Rd Unit) : List (Nat × Nat) → LoadRes (Assoc Segment)
  | [] => .ok []
  | (p, a) :: t =>
    if a = 0 then loadHelpers rd t
    else match loadSegment rd p (w64 a) with
      | .error e => .error e
      | .ok g =>
        match loadHelpers rd t with
        | .error e => .error e
        | .ok l => .ok ((p, g) :: l)

/-- The descriptor a residency installs first, and its list pointer (R136, R369). -/
def loadFirst (rd : Rd Unit) (rg : Region) : LoadRes (Option (W64 × Option (W64 × Nat × Nat))) :=
  if rg.cfga = 0 then .ok none
  else if !rg.listf then .ok (some (rg.cfga, none))
  else if rg.cfga.toNat % 8 != 0 then .error (1, 8191)
  else match (ldReads rd 8 rg.cfga 2).result with
    | .error e => .error e
    | .ok l =>
      let h := l.getD 0 0
      if h / 65536 != 0 || h = 0 || 4096 < h then .error (1, 8191)
      else .ok (some (w64 (l.getD 1 0), some (rg.cfga, h, 0)))

/-- The checks of one residency in order: lead, helpers, initial configuration (R373). -/
def loadImage (rd : Rd Unit) (rg : Region) : LoadRes Image :=
  match loadSegment rd 0 rg.lseg with
  | .error e => .error e
  | .ok lead =>
    match (if rg.hseg = 0 then .ok [] else (ldReads rd 8 rg.hseg rg.pm1).result) with
    | .error e => .error e
    | .ok hs =>
      match loadHelpers rd ((List.range hs.length).zip hs |>.map (fun e => (e.1 + 1, e.2))) with
      | .error e => .error e
      | .ok helpers =>
        match loadFirst rd rg with
        | .error e => .error e
        | .ok none => .ok { segs := (0, lead) :: helpers, kit := none, lp := none }
        | .ok (some (a, lp)) =>
          match (loadConfig rd rg.pm1 a).result with
          | .error e => .error e
          | .ok k => .ok { segs := (0, lead) :: helpers, kit := some k, lp := lp }

/-! ### Start (R375) -/

/-- A sequencer as a residency starts it. -/
def startSeq (rg : Region) (tvec : W64) (segs : Assoc Segment) (p : Nat) : Seq :=
  let q : Seq := { tvec := tvec }
  match segs.find p with
  | none => q
  | some g =>
    let q := ((q.setG 1 rg.arg).setG 2 (w64 rg.member)).setG 3 (w64 rg.nmem)
    let q := if p = 0 then { q with budget := w64 rg.ibud.toNat } else q.setG 4 (w64 p)
    { q with pc := g.first, seg := some g, halted := false, dups := [], parity := 0, dupParity := 0 }

/-- A loaded residency starts: its banks and records are zero, its sequencers begin. -/
def State.startMember (s : State) (r : Nat) (im : Image) : State :=
  match s.rg? r with
  | none => s
  | some rg =>
    let tvec := match s.ctx? rg.ctx with | some x => dw x.desc 2 | none => 0
    let rg := { rg with
      seqs := (List.range (rg.pm1 + 1)).map (fun p =>
        let q := startSeq rg tvec im.segs p
        { q with entered := s.freeIx, seg := q.seg.map (fun g => { g with pas := segPas s rg.core rg.ctx g }) })
      lp := im.lp, st := .unarmed, bank := [], bankPoison := [] }
    s.setRg r (match im.kit with | some k => rg.install k | none => rg)

/-! ### Retirement (R376, R379) -/

/-- LMC, LMS, CLONES and ACS as a record holds them. -/
def Region.lmsWord (rg : Region) : W64 :=
  w64 (rg.lmc.toNat * 2 ^ 32 + (if rg.lms then 2 ^ 31 else 0) + rg.clones % 256 * 2 ^ 8 + rg.acs.toNat)
/-- The retire record. -/
def Region.retireRec (rg : Region) (status code idx : Nat) : List W64 :=
  let q := rg.seqs.headD {}
  [w64 (idx * 2 ^ 32 + code * 2 ^ 24 + 2 ^ 8 + status),
   rg.lmsWord, rg.svr, w64 rg.rcyc, q.best, q.bestres, 0, 0]

/-- The pages reserved for the custom operators a task declared are released (R311, R412). -/
def State.freeOpers (s : State) (rg : Region) : State :=
  rg.task.views.foldl (fun (s : State) (e : Nat × View) =>
    if e.2.inherited then s
    else match e.2.page with
      | none => s
      | some (c, p) => s.freePages c p 1) s

/-- The child a residency is, in its parent's epoch. -/
def State.updChild (s : State) (r i : Nat) (f : Child → Child) : State :=
  s.updRg r (fun rg => { rg with task := { rg.task with epoch := { rg.task.epoch with children := listUpd rg.task.epoch.children i f } } })
/-- A child's residency has retired: Ended with its flag, else Discarded, its views freed (R306, R308). -/
def State.childRetired (s : State) (rg : Region) : State :=
  match rg.task.parent with
  | none => s
  | some (r, i) =>
    s.updChild r i (fun c =>
      if rg.task.ended then { c with st := .ended, midx := rg.task.midx, views := c.views.map (fun e => (e.1, (rg.task.views.find e.1).getD e.2)) }
      else { c with st := .discarded, midx := rg.task.midx, views := [] })

/-- The last live member of a group has retired: the group retires and its LAUNCH completes (R378, R394). -/
def State.groupRetired (s : State) (gid : Nat) : State :=
  match s.groups.find gid with
  | none => s
  | some g =>
    if g.st = .retired || g.members.any (fun m => match s.rg? m with | some x => x.st != .retired | none => false) then s
    else
      let s : State := { s with groups := s.groups.put gid { g with st := .retired, req := none } }
      let sts := g.members.map (fun m => match s.rg? m with | some x => (x.retireStatus, x.loadFail) | none => (0, none))
      let bad := g.refused.map (fun m => (m, (sts.getD m (0, none)).2))
      match g.from_ with
      | none => s
      | some (q, n) =>
        { s with queues := s.queues.upd q (fun x => { x with started := x.started.map (fun t =>
            if t.seq != n then t
            else match bad with
              | some (m, f) => { t with finished := true, status := 1, code := (f.getD (0, 0)).1, index := 2 ^ 24 * m + (f.getD (0, 0)).2 }
              | none => { t with finished := true, status := if sts.any (fun e => e.1 = 6) then 6 else 0 }) }) }

/-- Dwords 1 to 7 of a retire record are written, and then dword 0 as a release at SYS scope; the record makes its sector
RAW (R379). -/
def State.storeRetireTail (s : State) (r c : Nat) (rra : W64) (l : List W64) : State :=
  s.devStore { who := 8192 + r, ctx := c, va := rra + 8, bytes := dwBytes l.tail }
def State.storeRetireHead (s : State) (r c : Nat) (rra : W64) (l : List W64) : State :=
  s.devRelease { who := 8192 + r, ctx := c, va := rra, bytes := leBytes 8 (dw l 0).toNat, raw := true }
def State.storeRetire (s : State) (r : Nat) (rg : Region) (l : List W64) : State :=
  if rg.rra = 0 then s
  else (if rg.recHalf then s else s.storeRetireTail r rg.ctx rg.rra l).storeRetireHead r rg.ctx rg.rra l

/-- A residency retires (R376, R379): the record, then its pages, slot and Erg array. -/
def State.retire (s : State) (r status code idx : Nat) : State :=
  match s.rg? r with
  | none => s
  | some rg =>
    let s := (s.dropMove (· = r)).storeRetire r rg (rg.retireRec status code idx)
    let s := s.freeOpers rg
    let s := (s.leavePlace r).updRg r (fun rg => { rg with
      st := .retired, retireStatus := status, loadFail := if code != 0 then some (code, idx) else none, live := false
      snap := false, pendTraps := [] })
    let s := s.childRetired rg
    match rg.gid with
    | none => s
    | some g => s.groupRetired g

end Sys2Proof.Machine
end

