-- ==== Sys2Proof/Machine/Barchan.lean ====
section
/-! DEFINITION. Barchan views and tasks: what the instructions and the merges share (11 R294 to R300). -/
namespace Sys2Proof.Machine

/-! ### View descriptors (R297 to R299) -/

/-- Elements a merge goes through. -/
def View.count (w : View) : Nat := if w.op = 12 then 1 else w.rows * w.cols

/-- The pairings of R298; T3, five elements to a byte (R33), is none of 8 bits. -/
def viewOpOk (op f : Nat) : Bool :=
  match op with
  | 3 => f = 0x19 || f = 0x20 || f = 0x21 || f = 0x18
  | 5 | 6 => fmtIsINT f || f = 0x21 || fmtIsFLT f
  | 7 | 8 | 9 => fmtIsINT f
  | 12 => fmtPool f
  | 13 => f != 0 && f != 0x07 && (fmtWidth f = 8 || fmtWidth f = 16 || fmtWidth f = 32 || fmtWidth f = 64)
  | _ => false
/-- The identity element (R298). -/
def View.ident1 (w : View) : Nat :=
  let n := fmtWidth w.fmt
  match w.op with
  | 3 => if w.fmt = 0x18 then 0x80000000 else 0
  | 5 => if fmtIsFLT w.fmt then (fmtNaN w.fmt).getD 0 else ubits n (intRange w.fmt).2
  | 6 => if fmtIsFLT w.fmt then (fmtNaN w.fmt).getD 0 else ubits n (intRange w.fmt).1
  | 7 => 2 ^ n - 1
  | 13 => w.ident.toNat % 2 ^ n
  | _ => 0
/-- The bytes of a blank view. -/
def View.blank (w : View) : List Byte :=
  (List.range (w.rows * w.cols)).flatMap (fun _ => leBytes w.z w.ident1)

/-- Whether a descriptor breaks R297 or R298. -/
def viewDescBad (d : List W64) : Bool :=
  let f := fld (dw d 0) 40 8
  let op := fld (dw d 0) 48 4
  let anchor := sval 12 (fld (dw d 0) 52 12)
  fld (dw d 0) 0 16 != 0 || dw d 3 != 0 || !viewOpOk op f
  || (if f = 0x21 then anchor < -1100 || 1100 < anchor else anchor != 0)
  || (op = 12 && fld (dw d 0) 28 12 != 0)
  || (if op = 13 then fmtWidth f < 64 && (dw d 1).toNat / 2 ^ fmtWidth f != 0 else dw d 1 != 0 || dw d 2 != 0)

/-! ### Tasks -/

/-- Every task identifier in use in a context (R294). -/
def State.tids (s : State) (c : Nat) : List Nat :=
  s.regions.flatMap (fun (e : Nat × Region) =>
    if e.2.ctx = c && e.2.nmem != 0 && e.2.st != .retired then e.2.task.tid :: e.2.task.epoch.children.map (·.tid) else [])
/-- A free task identifier. -/
def State.freshTid (s : State) (c : Nat) : Nat :=
  let used := s.tids c
  let b := Config.pick (s.freeIx * 65536)
  let l := (List.range (used.length + 1)).map (fun i => 1 + (b + i) % (2 ^ 32 - 1))
  (l.find? (fun t => !used.contains t)).getD 1

/-- The views that hold entries in view tables: of children and accumulated ones (R300). -/
def State.heldViews (s : State) : List (Nat × View) :=
  s.regions.flatMap (fun (e : Nat × Region) =>
    (e.2.task.epoch.children.flatMap (fun c => c.views.map (fun v => (e.2.ctx, v.2))))
    ++ e.2.task.epoch.accs.map (fun v => (e.2.ctx, v.2)))
def State.entriesOf (s : State) (core : Nat) : Nat := (s.heldViews.filter (fun e => e.2.entry = some core)).length
/-- Pending-launch entries on a core, of one context or of all (R296). -/
def State.pendingOn (s : State) (core : Nat) (c : Option Nat) : Nat :=
  (s.regions.map (fun (e : Nat × Region) =>
    if c = none || c = some e.2.ctx then (e.2.task.epoch.children.filter (fun x => x.st = .pending && x.core = core)).length else 0)).sum

/-! ### Where views lie (R299, R300) -/

/-- Where a view lies as TINFO reports it (R313). -/
def View.addr (w : View) : W64 :=
  match w.loc with
  | .flat a | .fibre a => a
  | .bank a => w64 (2 ^ 62 + a)

def insertSpan (x : Nat × Nat) : List (Nat × Nat) → List (Nat × Nat)
  | [] => [x]
  | y :: t => if x.1 ≤ y.1 then x :: y :: t else y :: insertSpan x t
/-- What is free between taken spans of a pool. -/
def gaps (lo hi : Nat) : List (Nat × Nat) → List (Nat × Nat)
  | [] => [(lo, hi - lo)]
  | (a, n) :: t => (lo, a - lo) :: gaps (max lo (a + n)) hi t
/-- The k-th place for `n` bytes among gaps, in units of 64 bytes. -/
def kthPlace (n : Nat) : Nat → List (Nat × Nat) → Option Nat
  | _, [] => none
  | k, (a, len) :: t =>
    if len < n then kthPlace n k t
    else
      let m := (len - n) / 64 + 1
      if k < m then some (a + 64 * k) else kthPlace n (k - m) t
/-- A place of `n` bytes in the view pool, any that fits. -/
def viewPlace (x : Ctx) (taken : List (Nat × Nat)) (n j : Nat) : Option Nat :=
  let lo := (dw x.desc 4).toNat
  let g := gaps lo (lo + (dw x.desc 5).toNat) (taken.foldr insertSpan [])
  let m := (g.map (fun e => if e.2 < n then 0 else (e.2 - n) / 64 + 1)).sum
  if m = 0 then none else kthPlace n (Config.pick j % m) g

/-- Whether every sector of a flat view takes a write now. -/
def State.viewReady (s : State) (c : Nat) (va n : Nat) : Bool :=
  (pieces va n).all (fun (p : Nat × Nat) =>
    match (walk s c (w64 p.1)).bind (fun l => leafTarget s c (w64 p.1) .write l) with
    | .ok (.loc _ _) => true
    | _ => false)
/-- The scale byte a whole-sector fill gives an 8-bit format. -/
def fillScale (f : Nat) : Byte := if hasBlockScales f then 127 else 0
/-- A flat view is filled with its identity, whole sectors tagged with its format. -/
def State.fillFlat (s : State) (c : Nat) (w : View) (va : Nat) : State :=
  let b := w.blank
  let s := s.devStore { who := 8192, ctx := c, va := w64 va, bytes := b ++ List.replicate (w.size - b.length) 0 }
  (pieces va w.size).foldl (fun (s : State) (p : Nat × Nat) =>
    match (walk s c (w64 p.1)).bind (fun l => leafTarget s c (w64 p.1) .write l) with
    | .ok (.loc pa _) => s.setFmt (sectorOf pa) (.ofNat 8 w.fmt) (fillScale w.fmt) 0
    | _ => s) s

/-- A blank view of a task on a core, in flat memory or as a fibre of the view pool: `none` where it cannot be
had. -/
def State.newView (s : State) (c core : Nat) (w : View) (taken : List (Nat × Nat)) (ks : List Nat) (j : Nat) :
    Option (View × State) :=
  match s.ctx? c with
  | none => none
  | some x =>
    if w.op = 12 then
      let used := ks ++ s.heldViews.filterMap (fun (e : Nat × View) =>
        match e.2.loc with
        | .fibre a => if e.2.entry = some core then some (fibreIndex a % 1024) else none
        | _ => none)
      let free := (List.range 1024).filter (fun k => !used.contains k)
      match free[Config.pick j % free.length]? with
      | none => none
      | some k =>
        let a := w64 (2 ^ 56 + (w.rows - 1) * 2 ^ 44 + 1024 * core + k)
        if (s.poolAt c a).isNone then none
        else some ({ w with loc := .fibre a, status := 0, entry := some core, pool := 0 }, s.setChain c a [] [])
    else match viewPlace x taken w.size j with
      | none => none
      | some a =>
        if !s.viewReady c a w.size then none
        else some ({ w with loc := .flat (w64 a), status := 0, entry := some core, pool := w.size }, s.fillFlat c w a)

/-- A bank view of a region is filled with its identity. -/
def Region.fillBank (rg : Region) (w : View) : Region :=
  match w.loc with
  | .bank a =>
    let b := w.blank
    rg.bankWrite a (b ++ List.replicate (w.size - b.length) 0)
  | _ => rg

/-- The epoch of a region's task changes. -/
def Region.setEpoch (rg : Region) (e : Epoch) : Region := { rg with task := { rg.task with epoch := e } }

/-- A child as its record stands, with the status words of its running residency (R313). -/
def State.childViews (s : State) (c : Child) : Assoc View :=
  match c.st, c.rid.bind s.rg? with
  | .running, some rg => c.views.map (fun e => (e.1, (rg.task.views.find e.1).getD e.2))
  | _, _ => c.views

end Sys2Proof.Machine
end

