-- ==== Sys2Proof/Machine/Access.lean ====
section
/-! DEFINITION. An outstanding access performs, and the waiters of a serviced fault retry (12 R316, R319; 08 R231, R235;
20 R440, R441). An event that its rule does not enable changes nothing (00 R10). -/
namespace Sys2Proof.Machine

/-- ACCESS_PERFORMED (R316): the oldest buffered store of a sequencer performs at its home memory node, or a begun
access of a memory node does. -/
def execAccessPerformed (w : AccessWho) (s : State) : Out :=
  match w with
  | .seqStore r pg =>
    match s.seq? r pg with
    | none => .next s
    | some q =>
      match q.stores with
      | [] => .next s
      | st :: rest =>
        -- accesses to a quiesced stack or row wait (R457)
        if s.quiesced st.pa then .next s
        else .next ((s.setSeq r pg { q with stores := rest }).perform r st)
  | .node r b n i =>
    match s.nodeAt r b n with
    | none => .next s
    | some d =>
      if d.rg.place.isNone || !d.rg.live || d.st.saved then .next s
      else match d.performPos i with
        | none => .next s
        | some d => .next d.done

/-- A waiter of record `id` waits no longer (R441). -/
def unpause (id : Nat) (p : Option Nat) : Option Nat := if p = some id then none else p
def EqEntry.retry (id : Nat) : EqEntry → EqEntry
  | .cmd c => .cmd { c with paused := unpause id c.paused }
  | x => x
def NodeSt.retry (id : Nat) (x : NodeSt) : NodeSt :=
  { x with pend := x.pend.map (fun p => { p with paused := unpause id p.paused }) }
/-- Every waiter of a residency on record `id` goes on to retry. -/
def Region.retry (rg : Region) (id : Nat) : Region :=
  { rg with
    eqs := rg.eqs.map (fun q => { q with entries := q.entries.map (EqEntry.retry id) })
    ergq := { rg.ergq with entries := rg.ergq.entries.map (fun c => { c with paused := unpause id c.paused }) }
    nodes := rg.nodes.map (fun (e : Nat × NodeSt) => (e.1, e.2.retry id)) }

/-- FAULT_RETRY (R441): a record whose entry's sector has been written, or whose context has been synchronised, is done
with: its waiters retry, each at its next step. -/
def execFaultRetry (id : Nat) (s : State) : Out :=
  match s.faults.find id with
  | none => .next s
  | some f =>
    if !f.woken then .next s
    else .next { s with
      faults := s.faults.del id
      regions := s.regions.map (fun (e : Nat × Region) => (e.1, e.2.retry id))
      fops := s.fops.map (fun (e : Nat × FOp) => (e.1, { e.2 with paused := unpause id e.2.paused })) }

end Sys2Proof.Machine
end

