-- ==== Sys2Proof/Machine/EngMove.lean ====
section
/-! DEFINITION. What one element of an engine command does (06 R162 to R176): streams, copies, decoding,
transposition, gathers, scatters and multicasts. Each function moves one element, or does nothing where it
must wait. -/
namespace Sys2Proof.Machine

/-- The egress port loses its head token. -/
def Eng.take (e : Eng) (p : Nat) : Eng :=
  e.upd (fun rg => let x := rg.outPort p; rg.setOut p { x with q := x.q.tail })
/-- The end-of-stream at its head is taken, which ends the port (R144, R175). -/
def Eng.takeEos (e : Eng) (p : Nat) : Eng :=
  e.upd (fun rg => let x := rg.outPort p; rg.setOut p { x with q := x.q.tail, ended := true })
def Eng.counted (e : Eng) (n b : Nat) : Eng :=
  { e with c := { e.c with elems := e.c.elems + n, bytes := e.c.bytes + b } }
def Eng.dropped (e : Eng) (n st : Nat) : Eng :=
  { e with c := { e.c.note st with drop := e.c.drop + n } }
/-- Bytes that element `i` of a row adds to the bytes of the elements before it. -/
def bytesAdd (f i : Nat) : Nat := packLen f (i + 1) - packLen f i

/-! ### SLOAD (R162) -/

/-- S of an element read from a remote sector, whose reply carries no sideband: free in a format with block scales
(notes/assumptions/81.md). -/
def farScale (ix f o : Nat) : Byte := if hasBlockScales (denseOf f) then .ofNat 8 (Config.pick (ix * 65536 + 256 + o)) else 127
/-- The token of an element read: `i` its place in its unit, `o` the byte of the unit in its sector. -/
def tokenOf (ix f i o : Nat) (g : EngGot) (mk : BitVec 4) : Token :=
  let s := match g.side with | some sd => scaleOf f sd o (i % 2) | none => if g.far then farScale ix f o else 127
  if g.bad then
    { val := w64 ((Config.poisonWord (ix * 65536 + o)).toNat % 2 ^ fmtWidth f), mks := mk, s := s, psn := true }
  else match elemOf f i (leNat g.bytes) with
    | some x => { val := w64 x, mks := mk, s := s }
    | none => { val := 0, mks := mk, s := s, inv := true }

/-- Compression of one element (R162): a pair token, a bubble that keeps the markers of dimensions with more
than one index, or nothing. -/
def compressed (d : List W64) (n : Nat) (t : Token) : List Token :=
  let f := denseOf (dFmt d)
  if !t.psn && !t.inv && fmtZero f (Mode.ofAmf (dAmf d)).fbc t.val.toNat then
    (if (List.range 4).any (fun k => t.mks.getLsbD k && dTrip d k != 1)
     then [{ val := 0, mks := t.mks, bub := true }] else [])
  else [{ t with ix := some (.ofNat 32 n) }]

/-- The tokens an element leaves, and how many were dropped. -/
def streamed (d : List W64) (n : Nat) (t : Token) : List Token × Nat :=
  if bit (dw d 8) 7 then
    let l := compressed d n t
    (l, if l.any (fun t => !t.bub) then 0 else 1)
  else ([t], 0)

/-- The 128 positions of a bitmap-sparse or dense line (R35, R36, R162): value and poison by position; `none`
for a bitmap with more than 112 bits. MODEL'S CHOICE: the spec does not say what a line is delivered as whose bitmap had an
uncorrectable error; it is 128 poisoned zeros (notes/assumptions/133.md). -/
def lineValues (sparse : Bool) (l : List Byte) (bad : List Bool) : Option (List (Nat × Bool)) :=
  if !sparse then some ((List.range 128).map (fun p => ((l.getD p 0).toNat, bad.getD p false)))
  else
    let bm := leNat (l.take 16)
    if (bad.take 16).any id then some (List.replicate 128 (0, true))
    else if 112 < popCount 128 bm then none
    else some ((List.range 128).map (fun p =>
      if bm / 2 ^ p % 2 = 0 then (0, false)
      else
        let k := 16 + popCount p (bm % 2 ^ p)
        ((l.getD k 0).toNat, bad.getD k false)))

/-- The sideband of the sector of a line that has been read, as `tbl` keeps it (R36). -/
def lineSide (c : Cmd) (i : Nat) : Option Side :=
  (c.tbl.find i).map (fun w => { fmt := .ofNat 8 (w.toNat / 2 ^ 16), sca := .ofNat 8 (w.toNat / 2 ^ 8), scb := .ofNat 8 w.toNat })
/-- Where a line that has been read raises a format fault, if it does (R36, R41): at its first sector when that breaks
R41, when the codes differ or when a bitmap is too full; at the second when that alone breaks R41. -/
def lineFault (f : Nat) (x y : Option Side) : Option Nat :=
  match x, y with
  | some x, some y => if !tagOk x f || x.fmt != y.fmt then some 0 else if !tagOk y f then some 64 else none
  | _, _ => none
/-- The tokens of a line that has been read are queued (R162). MODEL'S CHOICE: the reply of a remote node carries no
sideband, and a line read from one is taken as sparse (notes/assumptions/42.md). -/
def Eng.lineToks (e : Eng) (a : W64) : EngM Eng :=
  let d := e.c.desc
  let f := dFmt d
  let side := lineSide e.c
  let sparse := match side 0 with | some x => x.fmt.toNat = f | none => true
  let l := e.c.part.map (·.2)
  match lineFault f (side 0) (side 1), lineValues sparse (l.map (·.1)) (l.map (·.2)) with
  | some o, _ => .error (e.formatFault (a + w64 o))
  | none, none => .error (e.formatFault a)
  | none, some vs =>
    let sc := fun (i : Nat) => match side i with
      | some x => x.sca
      | none => if bit (dw d 8) 6 then 127 else farScale e.s.freeIx f i
    let ts := ((List.range 128).zip vs).map (fun v =>
      let n := e.c.pos + v.1
      let t : Token := { val := if v.2.2 then w64 ((Config.poisonWord (e.s.freeIx * 65536 + v.1)).toNat % 256) else w64 v.2.1
                         mks := dMks d n, psn := v.2.2, s := sc (v.1 / 64) }
      streamed d n t)
    let e := if vs.any (·.2) then e.note 3 else e
    .ok { e with c := { e.c with
      toks := ts.flatMap (·.1), drop := e.c.drop + (ts.map (·.2)).foldl (· + ·) 0
      pos := e.c.pos + 128, bytes := e.c.bytes + 128, part := [], tbl := [] } }
/-- Reads some of a line's bytes, and queues its tokens once they are all there (R162, R337). -/
def Eng.sloadLine (e : Eng) : EngM Eng :=
  let d := e.c.desc
  let a := dRow d e.c.pos + w64 (dIdx d e.c.pos 0)
  let k := e.c.part.length
  if 128 ≤ k then e.lineToks a
  else
    let m := e.some_ 0 (64 - k % 64)
    match e.read (bit (dw d 8) 6) (a + w64 k) m with
    | .error s => .error s
    | .ok (g, e) =>
      if g.failed then .error (e.finish 9).done
      else
        let m := g.bytes.length
        let tbl := match g.side with
          | some x => if (k + m) % 64 = 0 then
              e.c.tbl.put (k / 64) (.ofNat 32 (x.fmt.toNat * 2 ^ 16 + x.sca.toNat * 2 ^ 8 + x.scb.toNat)) else e.c.tbl
          | none => e.c.tbl
        .ok { e with c := { e.c with
          part := e.c.part ++ ((List.range m).map (k + ·)).zip ((List.range m).map (fun i => (g.bytes.getD i 0, g.bads.getD i false)))
          tbl := tbl } }

/-- One element of SLOAD, or its end-of-stream. -/
def Eng.sload (e : Eng) : EngM Eng :=
  let d := e.c.desc
  let f := dFmt d
  let p := fld (dw d 8) 0 6
  let bank := bit (dw d 8) 6
  if !(e.rg.inPort p).room then .ok e
  else match e.c.toks with
  | t :: r => .ok ((({ e with c := { e.c with toks := r } } : Eng).upd (fun rg => rg.feed p t)).counted (if t.bub then 0 else 1) 0)
  | [] =>
    if dTotal d ≤ e.c.pos then
      if bit (dw d 8) 8 then .ok (e.finish 0) else .ok ((e.upd (fun rg => rg.feed p eosToken)).finish 0)
    else if isSB f then e.sloadLine
    else
      let (a, n) := dElem d bank e.c.pos
      match (if bank || f = 0 then .ok e else e.checkFmt a .read f) with
      | .error s => .error s
      | .ok e =>
        match e.read bank a n with
        | .error s => .error s
        | .ok (g, e) =>
          if g.failed then .error (e.finish 9).done
          else
            let i := dIdx d e.c.pos 0
            let t := tokenOf e.s.freeIx f (if narrow f then i else 0) (a.toNat % 64) g (dMks d e.c.pos)
            let (l, dr) := streamed d e.c.pos t
            let e := if g.bad then e.note 3 else e
            let e := { e with c := { e.c with pos := e.c.pos + 1, drop := e.c.drop + dr
                                              bytes := e.c.bytes + (if narrow f then bytesAdd f i else n) } }
            match l with
            | t :: _ => .ok ((e.upd (fun rg => rg.feed p t)).counted (if t.bub then 0 else 1) 0)
            | [] => .ok e

/-! ### SSTORE (R163) -/

def anyBelow : Nat → (Nat → Bool) → Bool
  | 0, _ => false
  | n + 1, f => anyBelow n f || f n
/-- Whether a byte of a row belongs to one of its elements. -/
def rowHolds (d : List W64) (row b : W64) : Bool :=
  let f := dFmt d
  let t := dTrip d 0
  if isSB f then (b - row).toNat < t
  else if fmtWidth f = 6 then
    let x := b.toNat / 64 * 48 + b.toNat % 64
    let y := row.toNat / 64 * 48 + row.toNat % 64
    b.toNat % 64 < 48 && y ≤ x && x < y + packLen f t
  else if narrow f then (b - row).toNat < packLen f t
  else
    let w : Int := fmtWidth f / 8
    let st := (dw d 4).toInt
    let dl := (b - row).toInt
    if st = 0 then 0 ≤ dl && dl < w
    else
      let q := dl / st.natAbs
      let i := if st > 0 then q else -q
      dl % st.natAbs < w && 0 ≤ i && i < t
/-- Whether the pattern covers the sector at a flat address whole. -/
def patCovers (d : List W64) (sb : W64) : Bool :=
  (List.range (if fmtWidth (dFmt d) = 6 then 48 else 64)).all (fun b =>
    anyBelow (dTrip d 3) (fun k => anyBelow (dTrip d 2) (fun j => anyBelow (dTrip d 1) (fun i =>
      rowHolds d (dw d 2 + w64 i * dw d 5 + w64 j * dw d 6 + w64 k * dw d 7) (sb + w64 b)))))
/-- Whether an element of the pattern behind element `n` touches the sector of a flat address. -/
def sectorAhead (d : List W64) (n : Nat) (sb : W64) : Bool :=
  anyBelow (dTotal d - (n + 1)) (fun m => (dElem d false (n + 1 + m)).1.toNat / 64 = sb.toNat / 64)

/-- Runs of bytes from `a` whose destination words agree in whether they receive a byte of a poisoned word. -/
def wordRuns (a : Nat) (l : List (Byte × Bool)) : List (Nat × List Byte × Bool) :=
  let xs := (List.range l.length).zip l
  let bad := fun (i : Nat) => xs.any (fun x => x.2.2 && (a + x.1) / 8 = (a + i) / 8)
  xs.foldr (fun x m =>
    match m with
    | (_, bs, p) :: t => if p = bad x.1 then (x.1, x.2.1 :: bs, p) :: t else (x.1, [x.2.1], bad x.1) :: m
    | [] => [(x.1, [x.2.1], bad x.1)]) []
/-- At most 64 bytes are written inside one destination sector; each destination word that receives a byte of a poisoned
word gets the marker, there or on a remote node (R169, R446). -/
def Eng.putBytes (e : Eng) (bank : Bool) (a : W64) (l : List (Byte × Bool)) (tag : TagW) : EngM Eng :=
  let bads := ((List.range l.length).zip l).filter (fun x => x.2.2)
  if bads.isEmpty then e.write bank a (l.map (·.1)) false tag
  else if bank then
    match e.write true a (l.map (·.1)) false tag with
    | .error s => .error s
    | .ok e => .ok ((e.upd (fun rg => bads.foldl (fun rg x => rg.bankMark (a.toNat + x.1) 1) rg)).note 3)
  else match xlate e.s e.rg.core e.rg.ctx a .write with
    | .ok (.rem _ _ _ _ _) =>
      (wordRuns a.toNat l).foldl (fun (m : EngM Eng) r =>
        match m with
        | .error s => .error s
        | .ok e => e.writeFlat (a + w64 r.1) r.2.1 r.2.2 none) (.ok (e.note 3))
    | x =>
      match e.writeFlat a (l.map (·.1)) false tag, x with
      | .error s, _ => .error s
      | .ok e, .ok (.loc pa _) => .ok (({ e with s := bads.foldl (fun s x => s.pokeBad (pa + x.1) 1) e.s } : Eng).note 3)
      | .ok e, _ => .ok (e.note 3)

/-- The bytes of a sector that have arrived. -/
def partOf (l : Assoc (Byte × Bool)) (sb : Nat) : Assoc (Byte × Bool) :=
  l.filter (fun x => sb ≤ x.1 && x.1 < sb + 64)
def Eng.storeTag (e : Eng) : TagW := some (.ofNat 8 (dFmt e.c.desc), dSca e.c.desc, dScb e.c.desc)

/-- The value bits a token stores; an INV token stores 0, but as a position of an SB8 or SBF8 line its VAL (MODEL'S CHOICE,
notes/assumptions/150.md). -/
def Token.bits (t : Token) : Nat := if t.inv then 0 else t.val.toNat

/-- The row of a gather or scatter at hand is done. -/
def Eng.nextRow (e : Eng) : Eng := { e with c := { e.c with pos := e.c.pos + 1, sub := 0, bit := 0, toks := [] } }
/-- The bytes of a unit that holds the values of these tokens; a poisoned element of a narrow format keeps the bits
that stand there (R157), whose reading a remote device may fail (R420). -/
def Eng.unitOf (e : Eng) (bank : Bool) (f : Nat) (a : W64) (ts : List Token) : EngM (List Byte × Eng) :=
  if !narrow f then .ok (leBytes (elemBytes f) (ts.headD {}).bits, e)
  else if !ts.any (·.psn) || ts.all (·.psn) then .ok (pack f (ts.map Token.bits), e)
  else match e.read bank a (packUnit f).2 with
    | .error s => .error s
    | .ok (g, e) =>
      if g.failed then .error (if e.c.op = .scatter then { e.nextRow with c := e.nextRow.c.note 9 } else e.finish 9).done
      else .ok (pack f (((List.range ts.length).zip ts).map (fun (x : Nat × Token) =>
        if x.2.psn then (elemOf f x.1 (leNat g.bytes)).getD 0 else x.2.bits)), e)

/-- The elements of a unit that are written, and their bytes: a poisoned one is not written (R157). `i` is the place
of the first in its row. -/
def unitCount (f i : Nat) (ts : List Token) : Nat × Nat :=
  ((List.range ts.length).zip ts).foldl (fun m x => if x.2.psn then m else (m.1 + 1, m.2 + bytesAdd f (i + x.1))) (0, 0)
/-- Elements of a sector that waits to be whole. -/
def Eng.owe (e : Eng) (sb : Nat) (n : Nat × Nat) : Eng :=
  let o := e.c.owed.get sb (0, 0)
  { e with c := { e.c with owed := e.c.owed.put sb (o.1 + n.1, o.2 + n.2) } }
/-- The elements of a sector that has been written count. -/
def Eng.paid (e : Eng) (sb : Nat) : Eng :=
  let o := e.c.owed.get sb (0, 0)
  ({ e with c := { e.c with owed := e.c.owed.del sb } } : Eng).counted o.1 o.2
def countIf (n : Nat × Nat) (m : EngM Eng) : EngM Eng :=
  match m with
  | .error s => .error s
  | .ok e => .ok (e.counted n.1 n.2)

/-- Runs of adjacent bytes. -/
def byteRuns (l : Assoc (Byte × Bool)) : List (Nat × List Byte) :=
  l.foldr (fun x m =>
    match m with
    | (a, bs) :: t => if x.1 + 1 = a then (x.1, x.2.1 :: bs) :: t else (x.1, [x.2.1]) :: m
    | [] => [(x.1, [x.2.1])]) []
/-- The bytes of a sector that has arrived are done with, and its elements count. -/
def Eng.arrived (e : Eng) (sb : Nat) : Eng :=
  (({ e with c := { e.c with part := e.c.part.filter (fun x => !(sb ≤ x.1 && x.1 < sb + 64)), due := none } } : Eng).paid sb)
/-- Bytes that are not to be left as they stand are written, run by run (R157). -/
def Eng.writeRuns (e : Eng) (l : Assoc (Byte × Bool)) : EngM Eng :=
  (byteRuns (l.filter (fun x => !x.2.2))).foldl (fun (m : EngM Eng) r =>
    match m with
    | .error s => .error s
    | .ok e => e.writeFlat (w64 r.1) r.2 false none) (.ok e)
/-- What had arrived of a sector when end-of-stream cut it short is written after the sector's check (R41, R163). -/
def Eng.writeCut (e : Eng) (sb : Nat) : EngM Eng :=
  match e.checkFmt (w64 sb) .write (dFmt e.c.desc) with
  | .error s => .error s
  | .ok e =>
    match e.writeRuns (partOf e.c.part sb) with
    | .error s => .error s
    | .ok e => .ok (e.arrived sb)
/-- The last byte of a local sector that is written whole has been: it takes its tag, unless none of its elements is written,
and its words without a poisoned byte lose the marker (R40, R446). -/
def Eng.tagSector (e : Eng) (sb : W64) (l : List (Byte × Bool)) (tag : TagW) : Eng :=
  match xlate e.s e.rg.core e.rg.ctx sb .write, tag with
  | .ok (.loc pa _), some (f, a, b) =>
    let clean := (List.range 8).foldl (fun (m : Byte) w => if ((l.drop (8 * w)).take 8).any (·.2) then m else m ||| (1#8 <<< w)) 0
    let s := e.s.setFmt (sectorOf pa) f a b
    let sd := s.sideAt (sectorOf pa)
    { e with s := s.setSide (sectorOf pa) { sd with poison := sd.poison &&& ~~~clean } }
  | _, _ => e
/-- Some more elements of a sector that has arrived whole are written, `k` bytes of it having been; with the last ones
the sector takes its tag (R40, R157, R163, R337). -/
def Eng.writeDue (e : Eng) (sb k : Nat) : EngM Eng :=
  let got := (List.range 64).map (fun i => (sb + i, Assoc.get e.c.part (sb + i) (0, false)))
  let m := e.some_ (dFmt e.c.desc) (64 - k)
  match e.writeRuns ((got.drop k).take m) with
  | .error s => .error s
  | .ok e =>
    if k + m < 64 then .ok { e with c := { e.c with due := some (sb, k + m) } }
    else .ok ((if got.all (fun x => x.2.2) then e else e.tagSector (w64 sb) (got.map (·.2)) e.storeTag).arrived sb)
/-- The bytes of a unit that holds `n` elements and bytes wait for their sector; nothing of a poisoned unit is to be
written (R157). -/
def Eng.arrive (e : Eng) (a : W64) (l : List Byte) (n : Nat × Nat) : Eng :=
  let skip : Bool := n.1 = 0
  let part := ((List.range l.length).zip l).foldl (fun m x =>
    if skip && (Assoc.find m (a.toNat + x.1)).isSome then m else Assoc.put m (a.toNat + x.1) (x.2, skip)) e.c.part
  ({ e with c := { e.c with part := part } } : Eng).owe (a.toNat / 64 * 64) n
/-- A unit of a bank, or of a sector that the pattern covers in part, is written. -/
def Eng.putNow (e : Eng) (bank : Bool) (a : W64) (l : List Byte) (n : Nat × Nat) : EngM Eng :=
  if n.1 = 0 then .ok e
  else if bank then countIf n (e.write true a l false none)
  else match e.checkFmt (w64 (a.toNat / 64 * 64)) .write (dFmt e.c.desc) with
    | .error s => .error s
    | .ok e => countIf n (e.writeFlat a l false none)
/-- The unit that ends with element `pos` goes to its place: a sector that the pattern covers whole is due to be written
when its last byte has arrived (R163). -/
def Eng.putUnit (e : Eng) (bank : Bool) (a : W64) (l : List Byte) (n : Nat × Nat) : EngM Eng :=
  if bank || !patCovers e.c.desc (w64 (a.toNat / 64 * 64)) then e.putNow bank a l n
  else
    let e := e.arrive a l n
    .ok (if sectorAhead e.c.desc e.c.pos a then e else { e with c := { e.c with due := some (a.toNat / 64 * 64, 0) } })

/-- The two sectors of a line a producer writes, with the format code (R35, R36). MODEL'S CHOICE: a poisoned token counts as
a nonzero element and takes a position of the bitmap (notes/assumptions/133.md). -/
def lineBytes (f : Nat) (fbc sparse : Bool) (ts : List Token) : List (Byte × Bool) :=
  if sparse then
    let nz := (List.range 128).filter (fun p => (ts.getD p {}).psn || !fmtZero (denseOf f) fbc (ts.getD p {}).val.toNat)
    let bm := nz.foldl (fun m p => m + 2 ^ p) 0
    let vs := nz.map (fun p => ((BitVec.ofNat 8 (ts.getD p {}).val.toNat : Byte), (ts.getD p {}).psn))
    ((leBytes 16 bm).map (fun b => (b, false)) ++ vs ++ List.replicate 112 ((0 : Byte), false)).take 128
  else ts.map (fun t => (.ofNat 8 t.val.toNat, t.psn))

/-- A whole line of 128 tokens has arrived: its sectors are written, some bytes at a time (R36, R163, R337); `sub` counts
those that have been. -/
def Eng.putLine (e : Eng) (bank : Bool) : EngM Eng :=
  let d := e.c.desc
  let f := dFmt d
  let fbc := (Mode.ofAmf (dAmf d)).fbc
  let nz := (e.c.toks.filter (fun t => t.psn || !fmtZero (denseOf f) fbc t.val.toNat)).length
  let sparse := nz ≤ 112
  let start := e.c.pos - 128
  let a := dRow d start + w64 (dIdx d start 0)
  let l := lineBytes f fbc sparse e.c.toks
  let e := if e.c.toks.any (·.psn) then e.note 3 else e
  let tag : TagW := if bank then none else some (.ofNat 8 (if sparse then f else denseOf f), dSca d, dScb d)
  let k := e.c.sub
  let m := e.some_ 0 (64 - k % 64)
  if bank && !sparse then .error (e.finish 1).done
  else match e.putBytes bank (a + w64 k) ((l.drop k).take m) none with
    | .error s => .error s
    | .ok e =>
      let e := if (k + m) % 64 = 0 then e.tagSector (a + w64 (k / 64 * 64)) ((l.drop (k / 64 * 64)).take 64) tag else e
      if k + m < 128 then .ok { e with c := { e.c with sub := k + m } }
      else .ok (({ e with c := { e.c with sub := 0, toks := [] } } : Eng).counted 128 128)

/-- One element of the pattern is written from a token (R163). -/
def Eng.putElem (e : Eng) (t : Token) : EngM Eng :=
  let d := e.c.desc
  let f := dFmt d
  let bank := bit (dw d 8) 6
  let e := if t.psn then e.note 3 else e
  let next := fun (e : Eng) (ts : List Token) => ({ e with c := { e.c with pos := e.c.pos + 1, toks := ts } } : Eng)
  if isSB f then .ok (next e (e.c.toks ++ [t]))
  else if narrow f then
    let ts := e.c.toks ++ [t]
    if ts.length < (packUnit f).1 then .ok (next e ts)
    else
      let a := (dElem d bank e.c.pos).1
      match e.unitOf bank f a ts with
      | .error s => .error s
      | .ok (l, e) =>
        match e.putUnit bank a l (unitCount f (dIdx d e.c.pos 0 + 1 - ts.length) ts) with
        | .error s => .error s
        | .ok e => .ok (next e [])
  else
    let (a, n) := dElem d bank e.c.pos
    match e.putUnit bank a (leBytes n t.bits) (if t.psn then (0, 0) else (1, n)) with
    | .error s => .error s
    | .ok e => .ok (next e [])

/-- What end-of-stream leaves to write: the elements of an unfilled unit, then the bytes of sectors cut
short, as partial writes, one sector at a time (R163). `none` when nothing is left. -/
def Eng.flush (e : Eng) : Option (EngM Eng) :=
  let d := e.c.desc
  let f := dFmt d
  let bank := bit (dw d 8) 6
  if narrow f && !e.c.toks.isEmpty then
    let (a, n) := dElem d bank (e.c.pos - 1)
    some (match e.read bank a n with
      | .error s => .error s
      | .ok (g, e) =>
        if g.failed then .error (e.finish 9).done else
        let old := leNat g.bytes
        let vals := (List.range (packUnit f).1).map (fun i =>
          match e.c.toks[i]? with
          | some t => if t.psn then (elemOf f i old).getD 0 else t.bits
          | none => (elemOf f i old).getD 0)
        let n := unitCount f (dIdx d e.c.pos 0 - e.c.toks.length) e.c.toks
        match (if bank || !patCovers d (w64 (a.toNat / 64 * 64)) then e.putNow bank a (pack f vals) n
            else .ok (e.arrive a (pack f vals) n)) with
        | .error s => .error s
        | .ok e => .ok { e with c := { e.c with toks := [] } })
  else match e.c.part with
    | [] => none
    | x :: _ =>
      some (e.writeCut (x.1 / 64 * 64))

/-- The pattern filled first, with KEEP 1: the command completes and the port stays bound (R163). -/
def Eng.filledUp (e : Eng) : Eng := { e.finish 0 with c := { (e.finish 0).c with filled := true } }
/-- One element of SSTORE, or one step of its end. The end-of-stream that comes before an expanding pattern is full is
taken, and `hold` says so while the rest is written. -/
def Eng.sstore (e : Eng) : EngM Eng :=
  let d := e.c.desc
  let p := fld (dw d 8) 0 6
  let xf := bit (dw d 8) 7
  let full := dTotal d ≤ e.c.pos
  if let some (sb, k) := e.c.due then e.writeDue sb k
  else if isSB (dFmt d) && e.c.toks.length = 128 then e.putLine (bit (dw d 8) 6)
  else if e.c.hold then (if full then .ok (e.finish 0) else e.putElem {})
  else match (e.rg.outPort p).q with
  | [] => if full && bit (dw d 8) 8 then .ok e.filledUp else .ok e
  | t :: _ =>
    if full then
      if bit (dw d 8) 8 then .ok e.filledUp
      else if t.eos then .ok ((e.takeEos p).finish 0)
      else .ok ((e.take p).dropped 1 5)
    else if t.eos then
      if xf then .ok { e.takeEos p with c := { e.c with hold := true } }
      else match e.flush with
        | some m => m
        | none => .ok ((e.takeEos p).finish 0)
    else if xf then
      match t.ix with
      | none => .ok ((e.take p).dropped 1 5)
      | some x =>
        if x.toNat < e.c.pos || dTotal d ≤ x.toNat then .ok ((e.take p).dropped 1 5)
        else if e.c.pos < x.toNat then e.putElem {}
        else match e.putElem t with
          | .error s => .error s
          | .ok e => .ok (e.take p)
    else match e.putElem t with
      | .error s => .error s
      | .ok e => .ok (e.take p)

/-! ### CPY (R169 to R171) -/

/-- Bytes of the source range of a CPY; input bytes in decode mode. -/
def cpySource (d : List W64) : Nat := if fld (dw d 4) 42 2 = 2 then (dw d 5).toNat else fld (dw d 4) 0 40
/-- The place in the source of a byte of the destination range that overlaps it (R169). -/
def cpyOverlap (d : List W64) (a : W64) : Option Nat :=
  let q := (a - dw d 2).toNat
  if bit (dw d 4) 40 = bit (dw d 4) 41 && q < cpySource d then some q else none
/-- Whether the device leaves a byte of the destination as it was (R169, R8). -/
def Eng.keeps (e : Eng) (a : W64) (i : Nat) : Bool :=
  (cpyOverlap e.c.desc a).isSome && Config.choice (e.s.freeIx * 65536 + i)
/-- What stands at a destination in a bank or in local memory. -/
def Eng.standing (e : Eng) (bank : Bool) (a : W64) (n : Nat) : Option (List (Byte × Bool)) :=
  if bank then some ((bankPeek e.rg.bank a.toNat n).zip ((List.range n).map (fun i => e.rg.bankBad (a.toNat + i) 1)))
  else match xlate e.s e.rg.core e.rg.ctx a .write with
    | .ok (.loc pa _) => some ((e.s.peekN (e.s.keyOf e.rg.ctx) pa n).zip ((List.range n).map (fun i => e.s.poisonedAt (pa + i) 1)))
    | _ => none
/-- Overlapping bytes about to be written that the copy has still to read: source bytes before `read` have been. -/
def Eng.saveOld (e : Eng) (a : W64) (read : Nat) (l : List (Byte × Bool)) : Eng :=
  let m := ((List.range l.length).zip l).foldl (fun m x =>
    match cpyOverlap e.c.desc (a + w64 x.1) with
    | some q => if read ≤ q then Assoc.put m q x.2 else m
    | none => m) e.c.old
  { e with c := { e.c with old := m } }
/-- Source bytes as read: one that the copy has overwritten reads as it stands or as it stood (R169, R8). -/
def Eng.asRead (e : Eng) (q : Nat) (l : List (Byte × Bool)) : List (Byte × Bool) :=
  ((List.range l.length).zip l).map (fun x =>
    match e.c.old.find (q + x.1) with
    | some y => if Config.choice (e.s.freeIx * 65536 + 64 + x.1) then y else x.2
    | none => x.2)
/-- The bytes of a piece from `a` with the kept ones as they stand. -/
def Eng.mixed (e : Eng) (a : W64) (l old : List (Byte × Bool)) : List (Byte × Bool) :=
  (List.range l.length).map (fun i => if e.keeps (a + w64 i) i then old.getD i (0, false) else l.getD i (0, false))

/-- Some more of a unit's source bytes are read into `part`, keyed by place in the unit (R337); with the last of a source
sector that is a whole unit, `bit` takes its tag. -/
def Eng.fill (e : Eng) (bank : Bool) (src : W64) (n : Nat) : EngM Eng :=
  let k := e.c.part.length
  let a := src + w64 k
  let m := e.some_ (dFmt e.c.desc) (min (64 - a.toNat % 64) (n - k))
  match e.read bank a m with
  | .error s => .error s
  | .ok (g, e) =>
    if g.failed then .error (e.finish 9).done
    else
      let m := g.bytes.length
      let tag := match g.side with
        | some sd => if k + m = 64 && src.toNat % 64 = 0 then 2 ^ 24 + sd.fmt.toNat * 2 ^ 16 + sd.sca.toNat * 2 ^ 8 + sd.scb.toNat else 0
        | none => 0
      .ok { e with c := { e.c with
        part := e.c.part ++ ((List.range m).map (k + ·)).zip
          (e.asRead (e.c.pos + k) ((List.range m).map (fun i => (g.bytes.getD i 0, g.bads.getD i false))))
        bit := if tag = 0 then e.c.bit else tag } }

/-- Part of a unit, of which the first byte's choice is made alone, goes to a remote destination. -/
def Eng.putPart (e : Eng) (a : W64) (l : List (Byte × Bool)) : EngM (Nat × Eng) :=
  let k := e.keeps a 0
  let m := ((List.range l.length).takeWhile (fun i => e.keeps (a + w64 i) i = k)).length
  if k then .ok (m, e)
  else match e.putBytes false a (l.take m) none with
    | .error s => .error s
    | .ok e => .ok (m, e)

/-- Elements of a format in `n` bytes. -/
def elemsIn (f n : Nat) : Nat := if narrow f then 8 * n / fmtWidth f else n / elemBytes f

/-- One step of a raw or retag copy: some of a unit's bytes read, or some of them written (R337). With the last byte of a
destination sector that the copy overwrites whole, the sector takes its tag: that of the source sector it was copied
from, the declared one, or, where it has no one source sector with a tag, RAW (R40, R169). -/
def Eng.copy (e : Eng) : EngM Eng :=
  let d := e.c.desc
  let len := fld (dw d 4) 0 40
  let mode := fld (dw d 4) 42 2
  let sb := bit (dw d 4) 40
  let db := bit (dw d 4) 41
  if len ≤ e.c.pos then .ok (e.finish 0)
  else
    let dst := dw d 3 + w64 e.c.pos
    let n := min (64 - dst.toNat % 64) (len - e.c.pos)
    if e.c.part.length < n then e.fill sb (dw d 2 + w64 e.c.pos) n
    else
      let m := e.some_ (dFmt d) n
      let tag : TagW :=
        if db || (dst.toNat + m) % 64 != 0 || e.c.pos + m < 64 then none
        else if mode = 1 then e.storeTag
        else if 2 ^ 24 ≤ e.c.bit then
          some (.ofNat 8 (e.c.bit / 2 ^ 16), .ofNat 8 (e.c.bit / 2 ^ 8), .ofNat 8 e.c.bit)
        else some (0, 0, 0)
      let l := (e.c.part.map (·.2)).take m
      match (match e.standing db dst m with
        | some old =>
          match e.putBytes db dst (e.mixed dst l old) tag with
          | .error s => Except.error s
          | .ok e => .ok (m, e.saveOld dst (e.c.pos + n) old)
        | none => e.putPart dst l) with
      | .error s => .error s
      | .ok (m, e) =>
        .ok ((({ e with c := { e.c with pos := e.c.pos + m, part := e.c.part.drop m, bit := if m = n then 0 else e.c.bit } } : Eng)).counted
          (elemsIn (dFmt d) (e.c.pos + m) - elemsIn (dFmt d) e.c.pos) m)

/-- One decoded byte is written; a destination sector written whole takes the tag (R171). -/
def Eng.emit (e : Eng) (b : Byte) : EngM Eng :=
  let d := e.c.desc
  if fld (dw d 4) 0 40 ≤ e.c.pos then .ok e
  else
    let a := dw d 3 + w64 e.c.pos
    let db := bit (dw d 4) 41
    let whole := a.toNat % 64 = 63 && 63 ≤ e.c.pos
    let next := fun (e : Eng) => ({ e with c := { e.c with pos := e.c.pos + 1 } } : Eng).counted
      (elemsIn (dFmt d) (e.c.pos + 1) - elemsIn (dFmt d) e.c.pos) 1
    match e.standing db a 1 with
    | none =>
      if e.keeps a 0 then .ok (next e)
      else match e.write db a [b] false none with
        | .error s => .error s
        | .ok e => .ok (next e)
    | some old =>
      match e.write db a ((e.mixed a [(b, false)] old).map (·.1)) false (if whole && !db then e.storeTag else none) with
      | .error s => .error s
      | .ok e => .ok (next (e.saveOld a e.c.sub old))

/-- One table lookup of the decoder, a byte written, or the read of more input (R171). Input bytes wait in `part` by
place; `sub` counts those read, `bit` is the bit position, and decoded bytes wait in `buf`. -/
def Eng.decode (e : Eng) : EngM Eng :=
  let d := e.c.desc
  let len := fld (dw d 4) 0 40
  let inl := (dw d 5).toNat
  if len ≤ e.c.pos then .ok (e.finish 0)
  else if let b :: t := e.c.buf then
    match e.emit b with
    | .error s => .error s
    | .ok e => .ok { e with c := { e.c with buf := t } }
  else
    let lo := e.c.bit / 8
    let hi := min inl ((e.c.bit + 23 + 7) / 8)
    if e.c.sub < hi then
      let a := dw d 2 + w64 e.c.sub
      let m := e.some_ 0 (min (64 - a.toNat % 64) (inl - e.c.sub))
      match e.read (bit (dw d 4) 40) a m with
      | .error s => .error s
      | .ok (g, e) =>
        let m := g.bytes.length
        if g.failed then .error (e.finish 9).done
        else .ok { e with c := { e.c with
          part := e.c.part.filter (fun x => lo ≤ x.1)
            ++ ((List.range m).map (e.c.sub + ·)).zip
              (e.asRead e.c.sub ((List.range m).map (fun i => (g.bytes.getD i 0, g.bads.getD i false))))
          sub := e.c.sub + m } }
    else
      let b := fun (i : Nat) => Assoc.get e.c.part i (0, false)
      let x := leNat ((List.range 4).map (fun i => (b (lo + i)).1)) / 2 ^ (e.c.bit % 8)
      let t := Assoc.get e.c.tbl (x % 4096) 0
      let l := t.toNat / 2 ^ 18 % 16
      let ns := t.toNat / 2 ^ 16 % 4
      let esc := t.getLsbD 22
      let need := if esc then l + 8 else l
      let meets := fun (n : Nat) => (List.range 4).any (fun i => (b (lo + i)).2 && 8 * (lo + i) < e.c.bit + n)
      if meets 12 then .ok (e.finish 3)
      else if t.toNat / 2 ^ 23 != 0 || l = 0 || (!esc && ns = 0) || 8 * inl < e.c.bit + need then
        .ok (e.finish 7)
      else if meets need then .ok (e.finish 3)
      else
        let buf : List Byte :=
          if esc then [.ofNat 8 (x / 2 ^ l)]
          else if ns = 2 then [.ofNat 8 t.toNat, .ofNat 8 (t.toNat / 256)] else [.ofNat 8 t.toNat]
        .ok { e with c := { e.c with bit := e.c.bit + need, buf := buf } }

def Eng.cpy (e : Eng) : EngM Eng :=
  if fld (dw e.c.desc 4) 42 2 = 2 then e.decode else e.copy

/-! ### ETBL (R170) -/

/-- Some more of the 4,096 entries are loaded (R337). -/
def Eng.etbl (e : Eng) : EngM Eng :=
  if 4096 ≤ e.c.pos then .ok (e.finish 0)
  else
    let slot := fld (dw e.c.desc 3) 0 2
    match e.readFlat (dw e.c.desc 2 + w64 (4 * e.c.pos)) (e.some_ 0x1A (64 - 4 * e.c.pos % 64)) with
    | .error s => .error s
    | .ok (g, e) =>
      let n := g.bytes.length / 4
      if g.failed then .error (e.finish 9).done
      else
        let e := if g.bad then e.note 3 else e
        let e := e.upd (fun rg => { rg with dec := (List.range n).foldl (fun l i =>
          if g.bads.getD (4 * i) false then l
          else l.store (4096 * slot + e.c.pos + i) (.ofNat 32 (leNat ((g.bytes.drop (4 * i)).take 4))) 0) rg.dec })
        .ok (({ e with c := { e.c with pos := e.c.pos + n } } : Eng).counted n (4 * n))

/-! ### XPOSE (R172) -/

/-- The plane code of an element, and whether it was saturated (R172). -/
def planeCode (f p x : Nat) : Nat × Bool :=
  let v : Int := if f = 0x07 then (if x = 2 then -1 else x) else sval (fmtWidth f) x
  let hi : Int := 2 ^ (p - 1) - 1
  let lo : Int := -(2 ^ (p - 1))
  if v > hi then (ubits p hi, true) else if v < lo then (ubits p lo, true) else (ubits p v, false)

/-- One element read into the chunk, or some bytes of one plane's sector of the chunk written, `bit` of which have been (R337). -/
def Eng.xpose (e : Eng) : EngM Eng :=
  let d := e.c.desc
  let f := dFmt d
  let m := fld (dw d 4) 0 16 + 1
  let k := fld (dw d 4) 16 16 + 1
  let p := fld (dw d 4) 32 4
  let chunks := (k + 511) / 512
  if m * chunks ≤ e.c.pos then .ok (e.finish 0)
  else
    let row := e.c.pos / chunks
    let ch := e.c.pos % chunks
    let n := min 512 (k - 512 * ch)
    if e.c.toks.length < n then
      let i := 512 * ch + e.c.toks.length
      let (o, b) := elemSpan f i
      match e.read (bit (dw d 4) 36) (dw d 2 + w64 (row * packLen f k + o)) b with
      | .error s => .error s
      | .ok (g, e) =>
        if g.failed then .error (e.finish 9).done
        else
          let (t, st) : Token × Nat :=
            if g.bad then ({ psn := true }, 3)
            else match elemOf f i (leNat g.bytes) with
              | none => ({}, 3)
              | some x =>
                let (c, sat) := planeCode f p x
                ({ val := w64 c }, if sat then 10 else 0)
          .ok (({ e with c := { e.c.note st with toks := e.c.toks ++ [t] } } : Eng).counted 1 0)
    else
      let a := dw d 3 + w64 (((e.c.sub * m + row) * chunks + ch) * 64)
      let l := (List.range 64).map (fun j =>
        let ts := (e.c.toks.drop (8 * j)).take 8
        ((.ofNat 8 (((List.range 8).zip ts).foldl (fun s t => s + (t.2.val.toNat / 2 ^ e.c.sub % 2) * 2 ^ t.1) 0) : Byte),
          ts.any (·.psn)))
      let bank := bit (dw d 4) 37
      let k := e.c.bit
      let n := e.some_ 0 (64 - k)
      match e.putBytes bank (a + w64 k) ((l.drop k).take n) none with
      | .error s => .error s
      | .ok e =>
        let e := e.counted 0 n
        if k + n < 64 then .ok { e with c := { e.c with bit := k + n } }
        else
          let e := e.tagSector a l (if bank then none else some (0, 0, 0))
          if e.c.sub + 1 < p then .ok { e with c := { e.c with bit := 0, sub := e.c.sub + 1 } }
          else .ok { e with c := { e.c with bit := 0, sub := 0, toks := [], pos := e.c.pos + 1 } }

/-! ### GATHER and SCATTER (R173 to R175) -/

def gRowb (d : List W64) : Nat := fld (dw d 3) 32 32
def gNidx (d : List W64) : Nat := fld (dw d 6) 0 32
def gUnits (d : List W64) : Nat := gRowb d / (gUnit (dFmt d)).1
/-- What stands for the index of a row whose index had an uncorrectable error. -/
def badRow : Nat := 2 ^ 50

/-- Reads the index of the row at hand: `bit` becomes 1 for a row that is not served, 2 + index else. -/
def Eng.index (e : Eng) : EngM Eng :=
  let d := e.c.desc
  let w := if bit (dw d 6) 32 then 8 else 4
  match e.read (bit (dw d 6) 33) (dw d 5 + w64 (w * e.c.pos)) w with
  | .error s => .error s
  | .ok (g, e) =>
    if g.failed then .ok { e.note 9 with c := { (e.c.note 9) with bit := 1 } }
    else if g.bad then .ok { e with c := { (e.c.note 3) with bit := badRow } }
    else
      let i := sval (8 * w) (leNat g.bytes)
      if i < 0 || i ≥ (dw d 4).toNat then
        .ok { e with c := { (e.c.note 6) with bit := 1, oob := e.c.oob + 1 } }
      else .ok { e with c := { e.c with bit := 2 + i.toNat } }

/-- The unit at hand is done. -/
def Eng.nextUnit (e : Eng) : Eng :=
  if e.c.sub + 1 < gUnits e.c.desc then { e with c := { e.c with sub := e.c.sub + 1 } } else e.nextRow
/-- Address of unit `i` of units packed from `row`: flat sectors of a 6-bit format hold them in their first 48 bytes (R34;
notes/assumptions/134.md). -/
def gAt (f : Nat) (bank : Bool) (row : W64) (i : Nat) : W64 :=
  if narrow f then (unitAt f bank row (i * (gUnit f).2)).1 else row + w64 (i * (gUnit f).1)
/-- Table address of the unit at hand. -/
def Eng.tableAt (e : Eng) : W64 :=
  let d := e.c.desc
  gAt (dFmt d) false (dw d 2 + w64 ((e.c.bit - 2) * fld (dw d 3) 0 32)) e.c.sub
/-- Address of the unit at hand in DATA. -/
def Eng.dataAt (e : Eng) : W64 :=
  let d := e.c.desc
  gAt (dFmt d) (bit (dw d 6) 34) (dw d 7) (e.c.pos * gUnits d + e.c.sub)

/-- The unit of a table row, zeros for a row that is not served. A row, index or element that is not aligned to its size, which
R173 does not refuse, is read where it stands, and its first byte is what is translated (MODEL'S CHOICE,
notes/assumptions/149.md). -/
def Eng.tableUnit (e : Eng) : EngM (EngGot × Eng) :=
  let f := dFmt e.c.desc
  let n := (gUnit f).1
  if e.c.bit < 2 then .ok ({ bytes := List.replicate n 0 }, e)
  else if e.c.bit = badRow then .ok ({ bytes := List.replicate n 0, bads := List.replicate n true }, e)
  else match (if f = 0 then .ok e else e.checkFmt e.tableAt .read f) with
    | .error s => .error s
    | .ok e =>
      match e.readFlat e.tableAt n with
      | .error s => .error s
      | .ok (g, e) =>
        if g.failed then .ok ({ bytes := List.replicate n 0 }, { e with c := { (e.c.note 9) with bit := 1 } })
        else .ok (g, if g.bad then e.note 3 else e)

/-- One unit of GATHER. MODEL'S CHOICE: DATA in flat memory is written untyped, its sectors' tags neither checked nor
changed, also where rows cover a sector whole (notes/assumptions/126.md). -/
def Eng.gather (e : Eng) : EngM Eng :=
  let d := e.c.desc
  let f := dFmt d
  let p := fld (dw d 7) 0 6
  let portm := bit (dw d 6) 35
  if portm && !(e.rg.inPort p).room then .ok e
  else match e.c.toks with
  | t :: r =>
    let e1 := (({ e with c := { e.c with toks := r } } : Eng).upd (fun rg => rg.feed p t)).counted 1 0
    .ok (if r.isEmpty then e1.nextUnit else e1)
  | [] =>
    if gNidx d ≤ e.c.pos then .ok (e.finish 0)
    else if e.c.bit = 0 then e.index
    else
      let o := e.tableAt.toNat % 64
      match e.tableUnit with
      | .error s => .error s
      | .ok (g, e) =>
        let (n, k) := gUnit f
        if portm then
          let last := e.c.sub + 1 = gUnits d
          .ok (({ e with c := { e.c with toks := (List.range k).map (fun i =>
            tokenOf e.s.freeIx f i o g (if last && i + 1 = k then 1 else 0)) } } : Eng).counted 0 n)
        else if g.bad then .ok e.nextUnit
        else match e.write (bit (dw d 6) 34) e.dataAt g.bytes false none with
          | .error s => .error s
          | .ok e => .ok ((e.counted k n).nextUnit)

/-- A reduction's new value and the status it raises (R175). -/
def reduce (rop f old x : Nat) : Nat × Flags :=
  let w := fmtWidth f
  let a := fmtVal f 0 old
  let b := fmtVal f 0 x
  if f = 0x18 then
    match rop with
    | 1 => fAdd f 0 a b
    | 2 => ((convert (fMin a b) f 0 {} 0).1, 0)
    | _ => ((convert (fMax a b) f 0 {} 0).1, 0)
  else if f = 0x21 then
    let s := sval 64 old + sval 64 x
    let (lo, hi) := intRange f
    if s < lo then (ubits 64 lo, fOverflow) else if s > hi then (ubits 64 hi, fOverflow) else (ubits 64 s, 0)
  else
    let sg := f != 0x1A
    let lt := if sg then sval w x < sval w old else x < old
    let gt := if sg then sval w x > sval w old else x > old
    (match rop with
     | 1 => (old + x) % 2 ^ w
     | 2 => if lt then x else old
     | 3 => if gt then x else old
     | 4 => old &&& x
     | 5 => old ||| x
     | _ => old ^^^ x, 0)

/-- One unit of `k` elements is applied to its table row under ROP (R175). -/
def Eng.apply (e : Eng) (l : List Byte) (k : Nat) : EngM Eng :=
  let d := e.c.desc
  let f := dFmt d
  let rop := fld (dw d 8) 0 3
  let a := e.tableAt
  match (if f = 0 then .ok e else e.checkFmt a .write f) with
  | .error s => .error s
  | .ok e =>
    if rop = 0 then
      match e.writeFlat a l false none with
      | .error s => .error s
      | .ok e => .ok (e.counted k (k * l.length / (gUnit f).2))
    else match e.target a .atomic with
      | .error s => .error s
      | .ok (.rem rn ch rod ad _, e) =>
        let (s, id) := e.s.sendRemote { e.remote rn ch rod ad a l with op := some { code := rop, fmt := f } }
        .ok (({ e with s := s, c := { e.c with sent := e.c.sent ++ [id] } } : Eng).counted 1 l.length)
      | .ok (.loc pa _, e) =>
        if e.s.poisonedAt pa l.length then .ok (e.note 3)
        else
          let key := e.s.keyOf e.rg.ctx
          let (x, fl) := reduce rop f (leNat (e.s.peekN key pa l.length)) (leNat l)
          .ok ((({ e with s := e.s.write key pa (leBytes l.length x) } : Eng).upd (fun rg => rg.raise fl)).counted 1 l.length)

def Eng.scatter (e : Eng) : EngM Eng :=
  let d := e.c.desc
  let f := dFmt d
  let p := fld (dw d 7) 0 6
  let portm := bit (dw d 6) 35
  let (n, k) := gUnit f
  if gNidx d ≤ e.c.pos then .ok (e.finish 0)
  else if portm && e.c.toks.length < gUnits d * k then
    match (e.rg.outPort p).q with
    | [] => .ok e
    | t :: _ =>
      if t.eos then
        let e := if e.c.toks.isEmpty then e else e.dropped e.c.toks.length 5
        .ok ((({ e with c := { e.c with toks := [] } } : Eng).takeEos p).finish 0)
      else .ok (({ e with c := { e.c with toks := e.c.toks ++ [t] } } : Eng).take p)
  else if e.c.bit = 0 then e.index
  else if e.c.bit < 2 || e.c.bit = badRow then .ok e.nextRow
  else if portm then
    let ts := (e.c.toks.drop (e.c.sub * k)).take k
    let good := (ts.filter (fun t => !t.psn)).length
    let e := if good = k then e else e.note 3
    if good = 0 then .ok e.nextUnit
    else match e.unitOf false f e.tableAt ts with
      | .error s => .error s
      | .ok (l, e) =>
        match e.apply l good with
        | .error s => .error s
        | .ok e => .ok e.nextUnit
  else match e.read (bit (dw d 6) 34) e.dataAt n with
    | .error s => .error s
    | .ok (g, e) =>
      if g.failed then .ok { e.nextRow with c := (e.nextRow.c.note 9) }
      else if g.bad then .ok (e.note 3).nextUnit
      else match e.apply g.bytes k with
        | .error s => .error s
        | .ok e => .ok e.nextUnit

/-! ### MCAST (R176) -/

/-- The residency that is member `j` of a region's group. -/
def State.memberOf (s : State) (rg : Region) (j : Nat) : Option Nat :=
  match rg.gid with
  | none => none
  | some g => match s.groups.find g with
    | none => none
    | some x => x.members[j]?

/-- The head token of member `j`'s buffer moves to its ingress port, when the port has room. -/
def Eng.mcastOut (e : Eng) (j : Nat) (l : List Token) : Eng :=
  match l with
  | [] => e
  | t :: r =>
    let p := fld (dw e.c.desc (3 + j / 8)) (8 * (j % 8)) 8
    match e.s.memberOf e.rg j with
    | none => { e with c := { e.c with mbuf := e.c.mbuf.put j r } }
    | some rid =>
      match e.s.rg? rid with
      | none => { e with c := { e.c with mbuf := e.c.mbuf.put j r } }
      | some m =>
        if (m.inPort p).room then
          let c := { e.c with mbuf := e.c.mbuf.put j r, elems := e.c.elems + (if t.eos then 0 else 1) }
          if rid = e.r then { (e.upd (fun rg => rg.feed p t)) with c := c }
          else { e with c := c, s := e.s.updRg rid (fun rg => rg.feed p t) }
        else e

/-- One step of a multicast: each member's buffer gives up to one token, and one token of the egress port
goes to every member's buffer when all have room. -/
def Eng.mcast (e : Eng) : EngM Eng :=
  let p := fld (dw e.c.desc 2) 0 6
  let e := e.c.mbuf.foldl (fun (e : Eng) (b : Nat × List Token) => e.mcastOut b.1 b.2) e
  if e.c.hold then .ok (if e.c.mbuf.all (fun b => b.2.isEmpty) then { e.finish 0 with c := { (e.finish 0).c with hold := false } } else e)
  else match (e.rg.outPort p).q with
    | [] => .ok e
    | t :: _ =>
      if e.c.mbuf.any (fun b => 64 ≤ b.2.length) then .ok e
      else
        let e := { e with c := { e.c with mbuf := e.c.mbuf.map (fun (b : Nat × List Token) => (b.1, b.2 ++ [t])), hold := t.eos } }
        .ok (if t.eos then e.takeEos p else (e.take p).counted 0 ((fmtWidth (dFmt e.c.desc) + 7) / 8))

/-! ### PREF and FLUSH (R177) -/

/-- One 4 KiB block is translated; neither command changes a value that a program reads. -/
def Eng.place (e : Eng) : EngM Eng :=
  let base := (dw e.c.desc 1).toNat / 4096
  let fin := ((dw e.c.desc 1).toNat + (dw e.c.desc 2).toNat + 4095) / 4096
  if dw e.c.desc 2 = 0 || fin ≤ base + e.c.pos then .ok (e.finish 0)
  else match e.target (w64 ((base + e.c.pos) * 4096)) .read with
    | .error s => .error s
    | .ok (_, e) => .ok { e with c := { e.c with pos := e.c.pos + 1 } }

end Sys2Proof.Machine
end

