-- ==== Sys2Proof/Machine/SeqStream.lean ====
section
/-! DEFINITION. The instructions that issue engine commands, and those on queues, pins, chains and barrier
objects (06 R151 to R156, R160, R166 to R168, R177 to R182; 17 R401). -/
namespace Sys2Proof.Machine

/-- A refusal 2^63 + code (R153). -/
def refused (code : Nat) : W64 := w64 (2 ^ 63 + code)
def Run.refuse (v : Run) (d : Reg) (code : Nat) : Except TrapRec State := .ok (v.set (v.q.setG d (refused code)))

/-- Members of the issuer's group. -/
def Run.members (v : Run) : Nat := v.rg.nmem

/-- A command is accepted into a queue with the next sequence number (R152): its accesses come after every
access the sequencer made before it (R156). -/
def Run.accept (v0 : Run) (d : Reg) (eq : Nat) (op : EngOp) (desc : List W64) : State :=
  let v := v0.drained
  let n := (v.rg.eq eq).next
  v.setIn (v.s.updRg v.r (fun rg =>
      let x := rg.eq eq
      rg.setEq eq { x with next := x.next + 1
                           entries := x.entries ++ [.cmd { op := op, seq := n, desc := desc, page := v.pg, since := rg.bankStamp }] }))
    (v.q.setG d (w64 n))

/-- R154: the issue of a descriptor command. -/
def Run.issue (v : Run) (d : Reg) (a : W64) (op : EngOp) : Except TrapRec State :=
  match v.readDws a 1 with
  | .error t => .error t
  | .ok h =>
    if fld (dw h 0) 0 8 != dlenOf op || headBad (dw h 0) then v.refuse d 2
    else match v.readDws a (dlenOf op) with
      | .error t => .error t
      | .ok desc =>
        match descCode op v.members desc with
        | 0 =>
          if 32 ≤ (v.rg.eq (dEq desc)).entries.length then v.refuse d 1
          else .ok (v.accept d (dEq desc) op desc)
        | c => v.refuse d c

/-- R162 SLOAD. -/
def execSload (g : Guard) (d a : Reg) (s : State) : Out := runSeq 1 g [a] s (fun v => v.issue d (v.q.getG a) .sload)
/-- R162 SLOAD with a displacement. -/
def execSloadSi (g : Guard) (d a : Reg) (imm : Imm) (s : State) : Out :=
  runSeq 2 g [a] s (fun v => v.issue d (v.q.getG a + sext64 imm) .sload)
/-- R163 SSTORE. -/
def execSstore (g : Guard) (d a : Reg) (s : State) : Out := runSeq 1 g [a] s (fun v => v.issue d (v.q.getG a) .sstore)
/-- R163 SSTORE with a displacement. -/
def execSstoreSi (g : Guard) (d a : Reg) (imm : Imm) (s : State) : Out :=
  runSeq 2 g [a] s (fun v => v.issue d (v.q.getG a + sext64 imm) .sstore)
/-- R169 CPY. -/
def execCpy (g : Guard) (d a : Reg) (s : State) : Out := runSeq 1 g [a] s (fun v => v.issue d (v.q.getG a) .cpy)
/-- R169 CPY with a displacement. -/
def execCpySi (g : Guard) (d a : Reg) (imm : Imm) (s : State) : Out :=
  runSeq 2 g [a] s (fun v => v.issue d (v.q.getG a + sext64 imm) .cpy)
/-- R170 ETBL. -/
def execEtbl (g : Guard) (d a : Reg) (s : State) : Out := runSeq 1 g [a] s (fun v => v.issue d (v.q.getG a) .etbl)
/-- R170 ETBL with a displacement. -/
def execEtblSi (g : Guard) (d a : Reg) (imm : Imm) (s : State) : Out :=
  runSeq 2 g [a] s (fun v => v.issue d (v.q.getG a + sext64 imm) .etbl)
/-- R172 XPOSE. -/
def execXpose (g : Guard) (d a : Reg) (s : State) : Out := runSeq 1 g [a] s (fun v => v.issue d (v.q.getG a) .xpose)
/-- R172 XPOSE with a displacement. -/
def execXposeSi (g : Guard) (d a : Reg) (imm : Imm) (s : State) : Out :=
  runSeq 2 g [a] s (fun v => v.issue d (v.q.getG a + sext64 imm) .xpose)
/-- R174 GATHER. -/
def execGather (g : Guard) (d a : Reg) (s : State) : Out := runSeq 1 g [a] s (fun v => v.issue d (v.q.getG a) .gather)
/-- R174 GATHER with a displacement. -/
def execGatherSi (g : Guard) (d a : Reg) (imm : Imm) (s : State) : Out :=
  runSeq 2 g [a] s (fun v => v.issue d (v.q.getG a + sext64 imm) .gather)
/-- R175 SCATTER. -/
def execScatter (g : Guard) (d a : Reg) (s : State) : Out := runSeq 1 g [a] s (fun v => v.issue d (v.q.getG a) .scatter)
/-- R175 SCATTER with a displacement. -/
def execScatterSi (g : Guard) (d a : Reg) (imm : Imm) (s : State) : Out :=
  runSeq 2 g [a] s (fun v => v.issue d (v.q.getG a + sext64 imm) .scatter)
/-- R176 MCAST. -/
def execMcast (g : Guard) (d a : Reg) (s : State) : Out := runSeq 1 g [a] s (fun v => v.issue d (v.q.getG a) .mcast)
/-- R176 MCAST with a displacement. -/
def execMcastSi (g : Guard) (d a : Reg) (imm : Imm) (s : State) : Out :=
  runSeq 2 g [a] s (fun v => v.issue d (v.q.getG a + sext64 imm) .mcast)
/-- R178 CHAINW. -/
def execChainw (g : Guard) (d a : Reg) (s : State) : Out := runSeq 1 g [a] s (fun v => v.issue d (v.q.getG a) .chainw)
/-- R178 CHAINW with a displacement. -/
def execChainwSi (g : Guard) (d a : Reg) (imm : Imm) (s : State) : Out :=
  runSeq 2 g [a] s (fun v => v.issue d (v.q.getG a + sext64 imm) .chainw)

/-! ### SCLOSE (R166) -/

/-- VAR 0: an end-of-stream is queued for ingress port `n` behind the commands accepted for it. -/
def State.closeIn (s : State) (r : Nat) (rg : Region) (n : Nat) : Option State :=
  if 64 ≤ n || (rg.inNode n).isNone || (rg.inPort n).ended then none
  else some (s.updRg r (fun rg => rg.setIn n (({ rg.inPort n with ended := true, close := some (s.feeders r rg n) } : InPort).settle)))
/-- VAR 1: the commands bound to either port `n` end with CANCEL, multicasts of other members of the group to it among
them, and a KEEP binding ends. -/
def State.cancelPort (s : State) (r : Nat) (rg : Region) (n : Nat) : Option State :=
  if 64 ≤ n then none
  else some { s with regions := s.regions.map (fun (x : Nat × Region) =>
    if x.1 = r then
      let y := x.2.cancelWhere (fun _ c => c.ownIn rg.member = some n || c.outP = some n)
      (x.1, y.setOut n { y.outPort n with keep := none })
    else if x.2.mate rg then (x.1, x.2.cancelWhere (fun _ c => c.fansTo rg.member = some n)) else x) }
/-- VAR 2: every command of queue `n` ends with CANCEL, and the queue's KEEP bindings end. -/
def State.cancelQueue (s : State) (r n : Nat) : Option State :=
  if 8 ≤ n then none
  else some (s.updRg r (fun rg =>
    let rg1 := rg.cancelWhere (fun q _ => q = n)
    { rg1 with vout := rg1.vout.map (fun e => if e.2.keep = some n then (e.1, { e.2 with keep := none }) else e) }))

/-- An SCLOSE: true when it acted, false when it named nothing or was refused. -/
def Run.sclose (v : Run) (p : PReg) (x : Option State) : State :=
  match x with
  | none => v.set (v.q.setP p false)
  | some s => v.setIn s (v.q.setP p true)

/-- R166 SCLOSE. -/
def execSclose (g : Guard) (p : PReg) (a : Reg) (s : State) : Out :=
  runSeq 1 g [a] s (fun v => .ok (v.sclose p (v.s.closeIn v.r v.rg (v.q.getG a).toNat)))
/-- R166 SCLOSE with an immediate port. -/
def execScloseSi (g : Guard) (p : PReg) (n : BitVec 6) (s : State) : Out :=
  runSeq 2 g [] s (fun v => .ok (v.sclose p (v.s.closeIn v.r v.rg n.toNat)))
/-- R166 SCLOSE.CANCEL. -/
def execScloseCancel (g : Guard) (p : PReg) (a : Reg) (s : State) : Out :=
  runSeq 1 g [a] s (fun v => .ok (v.sclose p (v.s.cancelPort v.r v.rg (v.q.getG a).toNat)))
/-- R166 SCLOSE.CANCEL with an immediate port. -/
def execScloseCancelSi (g : Guard) (p : PReg) (n : BitVec 6) (s : State) : Out :=
  runSeq 2 g [] s (fun v => .ok (v.sclose p (v.s.cancelPort v.r v.rg n.toNat)))
/-- R166 SCLOSE.QUEUE. -/
def execScloseQueue (g : Guard) (p : PReg) (a : Reg) (s : State) : Out :=
  runSeq 1 g [a] s (fun v => .ok (v.sclose p (v.s.cancelQueue v.r (v.q.getG a).toNat)))
/-- R166 SCLOSE.QUEUE with an immediate queue. -/
def execScloseQueueSi (g : Guard) (p : PReg) (n : BitVec 3) (s : State) : Out :=
  runSeq 2 g [] s (fun v => .ok (v.sclose p (v.s.cancelQueue v.r n.toNat)))

/-! ### SBAR and QFENCE (R167, R181) -/

/-- Whether a command accesses bank space; a chain may. -/
def Cmd.usesBank (c : Cmd) : Bool :=
  c.link.isSome || match c.op with
  | .sload | .sstore => fld (dw c.desc 8) 6 1 = 1
  | .cpy => fld (dw c.desc 4) 40 2 != 0
  | .xpose => fld (dw c.desc 4) 36 2 != 0
  | .gather | .scatter => fld (dw c.desc 6) 33 2 != 0
  | .chainw => true
  | _ => false

/-- The commands ahead of a fence's entry in a queue. -/
def aheadOf (id : Nat) : List EqEntry → List Cmd
  | [] => []
  | .cmd c :: t => c :: aheadOf id t
  | .sbar i _ :: t => if i = id then [] else aheadOf id t
  | .qfence i _ _ :: t => if i = id then [] else aheadOf id t
/-- Whether a fence still holds the commands behind it: for SBAR a command ahead of its entries has bank
accesses left, for QFENCE there is one ahead. -/
def Region.fenceHolds (rg : Region) : EqEntry → Bool
  | .cmd _ => true
  | .sbar id m => ((List.range 8).zip rg.eqs).any (fun e =>
      m.getLsbD e.1 && (aheadOf id e.2.entries).any (fun c => c.usesBank && !c.finished))
  | .qfence id m _ => ((List.range 8).zip rg.eqs).any (fun e => m.getLsbD e.1 && !(aheadOf id e.2.entries).isEmpty)
/-- Fences that hold nothing leave their queues. -/
def Region.popFences (rg : Region) : Region :=
  { rg with eqs := rg.eqs.map (fun x => { x with entries := x.entries.filter rg.fenceHolds }) }

/-- One entry is placed in each queue of a mask; false for a zero mask or a full queue. -/
def Run.placeFence (v : Run) (p : PReg) (m : Byte) (f : Nat → EqEntry) : State :=
  if m = 0 || ((List.range 8).zip v.rg.eqs).any (fun e => m.getLsbD e.1 && 32 ≤ e.2.entries.length) then
    v.set (v.q.setP p false)
  else
    let s : State := { v.s with nextId := v.s.nextId + 1 }
    v.setIn (s.updRg v.r (fun rg =>
        ({ rg with eqs := ((List.range 8).zip rg.eqs).map (fun e =>
          if m.getLsbD e.1 then { e.2 with entries := e.2.entries ++ [f v.s.nextId] } else e.2) } : Region).popFences))
      (v.q.setP p true)

/-- R167 SBAR. -/
def execSbar (g : Guard) (p : PReg) (a : Reg) (s : State) : Out :=
  runSeq 1 g [a] s (fun v =>
    let m := (v.q.getG a).setWidth 8
    .ok (v.placeFence p m (fun id => .sbar id m)))
/-- R167 SBAR with an immediate mask. -/
def execSbarSi (g : Guard) (p : PReg) (mask : BitVec 8) (s : State) : Out :=
  runSeq 2 g [] s (fun v => .ok (v.placeFence p mask (fun id => .sbar id mask)))
/-- R181 QFENCE. -/
def execQfence (g : Guard) (sc : Scope) (p : PReg) (a : Reg) (s : State) : Out :=
  runSeq 1 g [a] s (fun v =>
    let m := (v.q.getG a).setWidth 8
    .ok (v.placeFence p m (fun id => .qfence id m sc)))
/-- R181 QFENCE with an immediate mask. -/
def execQfenceSi (g : Guard) (sc : Scope) (p : PReg) (mask : BitVec 8) (s : State) : Out :=
  runSeq 2 g [] s (fun v => .ok (v.placeFence p mask (fun id => .qfence id mask sc)))

/-! ### SSTAT (R168) -/

/-- A counter of a queue; a reserved field gives 2^63 + 3. -/
def EngQueue.stat (x : EngQueue) (f : Nat) : W64 :=
  let l := fun (g : Cmd → Nat) => w64 (match x.last with | some c => g c | none => 0)
  match f with
  | 0 => w64 x.done
  | 1 => w64 (x.next - 1)
  | 2 => l (·.status)
  | 3 => l (·.elems)
  | 4 => l (·.bytes)
  | 5 => l (·.trans)
  | 6 => l (·.xcross)
  | 7 => l (·.drop)
  | 8 => l (·.oob)
  | 9 => l (fun c => c.detmask.toNat)
  | 10 => w64 x.entries.length
  | _ => refused 3
/-- R168 SSTAT. -/
def execSstat (g : Guard) (d a : Reg) (s : State) : Out :=
  runSeq 1 g [a] s (fun v =>
    let x := v.q.getG a
    .ok (v.set (v.q.setG d ((v.rg.eq (fld x 0 3)).stat (fld x 3 5)))))
/-- R168 SSTAT with immediate queue and field. -/
def execSstatSi (g : Guard) (d : Reg) (eq : BitVec 3) (field : BitVec 5) (s : State) : Out :=
  runSeq 2 g [] s (fun v => .ok (v.set (v.q.setG d ((v.rg.eq eq.toNat).stat field.toNat))))

/-! ### Playa placement (R177) -/

/-- A range a placement command takes: its 4 KiB blocks, or LIMIT. -/
def placeBlocks (base len : W64) : Option (Nat × Nat) :=
  if 2 ^ 40 < len.toNat || 2 ^ 56 < base.toNat + len.toNat then none
  else some (base.toNat / 4096, (base.toNat + len.toNat + 4095) / 4096 - base.toNat / 4096)

/-- The physical blocks of a range that local leaves map, or the translation trap, with the address of the virtual
block (notes/assumptions/122.md). -/
def Run.physBlocks (v : Run) (b : Nat) : Nat → Except TrapRec (List Nat)
  | 0 => .ok []
  | n + 1 =>
    let va := w64 (b * 4096)
    match xlate v.s v.rg.core v.rg.ctx va .read with
    | .error f => .error (xlateTrap va f .read)
    | .ok t =>
      match v.physBlocks (b + 1) n with
      | .error t => .error t
      | .ok l => match t with
        | .loc pa _ => .ok (pa / 4096 :: l)
        | .rem _ _ _ _ _ => .ok l

def pinCount (l : Assoc Nat) : Nat := (l.map (·.2)).foldl (· + ·) 0
def addPin (m : Assoc (Assoc Nat)) (b c : Nat) : Assoc (Assoc Nat) :=
  let l := m.get b []
  m.put b (l.put c (l.get c 0 + 1))
/-- One pin of a context leaves a block. -/
def dropPin (m : Assoc (Assoc Nat)) (b c : Nat) : Assoc (Assoc Nat) :=
  let l := m.get b []
  let n := l.get c 0
  m.store b (l.store c (n - 1) 0) []
/-- Pins a context holds. -/
def pinsOf (m : Assoc (Assoc Nat)) (c : Nat) : Nat := (m.map (fun e => e.2.get c 0)).foldl (· + ·) 0
/-- The cap of a slice, 72 MiB, holds of the distinct blocks with pins (R177). -/
def slicesOk (m : Assoc (Assoc Nat)) : Bool :=
  (List.range 12).all (fun k => (m.filter (fun e => e.1 % 12 = k && pinCount e.2 != 0)).length ≤ 18432)

/-- The distinct physical blocks of a range: one pin each for each PIN (R177, R346; notes/assumptions/51.md). -/
def Run.blocksOf (v : Run) (b n : Nat) : Except TrapRec (List Nat) := (v.physBlocks b n).map List.eraseDups
/-- PIN: all of the range or none of it. -/
def Run.pin (v : Run) (d : Reg) (base len : W64) : Except TrapRec State :=
  if len = 0 then .ok (v.set (v.q.setG d 0))
  else match placeBlocks base len with
  | none => v.refuse d 3
  | some (b, n) =>
    match v.blocksOf b n with
    | .error t => .error t
    | .ok l =>
      let m := l.foldl (fun m x => addPin m x v.rg.ctx) v.s.pins
      let quota := match v.s.ctx? v.rg.ctx with | some x => x.pinq | none => 0
      if quota < pinsOf m v.rg.ctx || l.any (fun x => 255 < pinCount (m.get x [])) || !slicesOk m then v.refuse d 4
      else .ok (v.setIn { v.s with pins := m } (v.q.setG d (w64 l.length)))
/-- UNPIN: one pin of the context leaves each block on which it holds one. -/
def Run.unpin (v : Run) (d : Reg) (base len : W64) : Except TrapRec State :=
  if len = 0 then .ok (v.set (v.q.setG d 0))
  else match placeBlocks base len with
  | none => v.refuse d 3
  | some (b, n) =>
    match v.blocksOf b n with
    | .error t => .error t
    | .ok l =>
      let (m, k) := l.foldl (fun (e : Assoc (Assoc Nat) × Nat) x =>
        if (e.1.get x []).get v.rg.ctx 0 = 0 then e else (dropPin e.1 x v.rg.ctx, e.2 + 1)) (v.s.pins, 0)
      .ok (v.setIn { v.s with pins := m } (v.q.setG d (w64 k)))
/-- PREF and FLUSH are queued. -/
def Run.placeCmd (v : Run) (d : Reg) (q : BitVec 3) (op : EngOp) (base len : W64) : Except TrapRec State :=
  if len = 0 then .ok (v.set (v.q.setG d 0))
  else match placeBlocks base len with
  | none => v.refuse d 3
  | some _ =>
    if 32 ≤ (v.rg.eq q.toNat).entries.length then v.refuse d 1
    else .ok (v.accept d q.toNat op [0, base, len])

/-- R177 PIN. -/
def execPin (g : Guard) (d a b : Reg) (s : State) : Out :=
  runSeq 1 g [a, b] s (fun v => v.pin d (v.q.getG a) (v.q.getG b))
/-- R177 PIN with an immediate length. -/
def execPinSi (g : Guard) (d a : Reg) (imm : Imm) (s : State) : Out :=
  runSeq 2 g [a] s (fun v => v.pin d (v.q.getG a) (zext64 imm))
/-- R177 UNPIN. -/
def execUnpin (g : Guard) (d a b : Reg) (s : State) : Out :=
  runSeq 1 g [a, b] s (fun v => v.unpin d (v.q.getG a) (v.q.getG b))
/-- R177 UNPIN with an immediate length. -/
def execUnpinSi (g : Guard) (d a : Reg) (imm : Imm) (s : State) : Out :=
  runSeq 2 g [a] s (fun v => v.unpin d (v.q.getG a) (zext64 imm))
/-- R177 PREF. -/
def execPref (g : Guard) (q : BitVec 3) (d a b : Reg) (s : State) : Out :=
  runSeq 1 g [a, b] s (fun v => v.placeCmd d q .pref (v.q.getG a) (v.q.getG b))
/-- R177 PREF with an immediate length. -/
def execPrefSi (g : Guard) (q : BitVec 3) (d a : Reg) (imm : Imm) (s : State) : Out :=
  runSeq 2 g [a] s (fun v => v.placeCmd d q .pref (v.q.getG a) (zext64 imm))
/-- R177 FLUSH. -/
def execFlush (g : Guard) (q : BitVec 3) (d a b : Reg) (s : State) : Out :=
  runSeq 1 g [a, b] s (fun v => v.placeCmd d q .flush (v.q.getG a) (v.q.getG b))
/-- R177 FLUSH with an immediate length. -/
def execFlushSi (g : Guard) (q : BitVec 3) (d a : Reg) (imm : Imm) (s : State) : Out :=
  runSeq 2 g [a] s (fun v => v.placeCmd d q .flush (v.q.getG a) (zext64 imm))

/-! ### Indivisible steps on a dword at its home node (R179, R182, R401) -/

/-- What a step does with the old dword: whether it writes, and what; and the registers. -/
structure DwStep where
  write : Option W64 := none
  q : Seq

/-- A step on the dword at `a`: the sequencer's stores perform before it; `rel` says on which values it is a release, `acq`
what it acquires; a remote object waits for the target's answer, and a step that may be a release, and is one at SYS
scope there, first for the answers of the sequencer's earlier remote stores (R333). -/
def Run.dwStep (v0 : Run) (a : W64) (k : AccK) (rel : Option (W64 → Bool)) (f : W64 → Seq → DwStep)
    (acq : Nat → Bool → W64 → State → State) (w : Nat → SeqWait) : Except TrapRec State :=
  let v := v0.drained
  match v.target a 8 k with
  | .error t => .error t
  | .ok (.loc pa uchk) =>
    match v.bytes a pa 8 with
    | .error t => .error t
    | .ok l =>
      let old := w64 (leNat l)
      let r := f old v.q
      let rl := rel.any (fun h => h old)
      let s := acq pa uchk old (v.cached a)
      let s := if rl then s.bump v.r else s
      match r.write with
      | none => .ok (v.setIn s r.q)
      | some x =>
        let s := if rl then s.settle1 v.r pa uchk else s
        let s := s.write (s.keyOf v.rg.ctx) pa (leBytes 8 x.toNat)
        let s := if rl && !uchk then s.setTag (sectorOf pa) (s.tagOf v.r) else s
        .ok (v.setIn s r.q)
  | .ok (.rem rn ch rod ad _) =>
    if rel.isSome && !v.q.remotes.isEmpty then .ok (v.set { v.q with pc := v.pc, wait := some (.fenceSys v.q.remotes) })
    else .ok (v.await { v.remote .barrier rn ch rod ad a [] with pg := v.pg } w)

/-- CHAINT: links a value into a tail that holds HOLD. -/
def chaintStep (p : PReg) (x : W64) (old : W64) (q : Seq) : DwStep :=
  if old = 1 then { write := some x, q := q.setP p true } else { q := q.setP p false }
def Run.chaint (v : Run) (p : PReg) (a x : W64) (len : Nat) : Except TrapRec State :=
  v.dwStep a .atomic (some fun _ => true) (chaintStep p x) (fun _ _ _ s => s) (fun id => .chaint id p len)
/-- R179 CHAINT. -/
def execChaint (g : Guard) (p : PReg) (a b : Reg) (s : State) : Out :=
  runSeq 1 g [a, b] s (fun v => v.chaint p (v.q.getG a) (v.q.getG b) 1)
/-- R179 CHAINT with an immediate value. -/
def execChaintSi (g : Guard) (p : PReg) (a : Reg) (imm : Imm) (s : State) : Out :=
  runSeq 2 g [a] s (fun v => v.chaint p (v.q.getG a) (sext64 imm) 2)

def barArr (x : W64) : Nat := fld x 48 16
def barCnt (x : W64) : Nat := fld x 32 16
def barPhase (x : W64) : Nat := fld x 0 32
/-- BARINIT (R182). -/
def barinitStep (p : PReg) (n : W64) (old : W64) (q : Seq) : DwStep :=
  if n = 0 || 65535 < n.toNat || barArr old != 0 then { q := q.setP p false }
  else { write := some (putFld old 32 16 n.toNat), q := q.setP p true }
/-- BARARR (R182, R401). -/
def bararrStep (d : Reg) (old : W64) (q : Seq) : DwStep :=
  if barCnt old = 0 then { q := q.setG d (refused 6) }
  else
    let arr := (barArr old + 1) % 65536
    { write := some (if arr = barCnt old then putFld (putFld old 48 16 0) 0 32 (barPhase old + 1)
                     else putFld old 48 16 arr)
      q := q.setG d (w64 (barPhase old)) }
/-- A BARARR that arrives is kept with the tag it leaves; the first of a phase does away with those of a phase of the same
number (R182, R402). -/
def State.arrive (s : State) (pa : Nat) (old : W64) (t : RaceTag) : State :=
  let l := if barArr old = 0 then s.arrivals.filter (fun x => !(x.1 = pa / 8 && x.2.1 = barPhase old)) else s.arrivals
  { s with arrivals := l ++ [(pa / 8, barPhase old, t)] }
/-- BARTEST (R182). -/
def barPassed (ph old : W64) : Bool :=
  let d := (barPhase old + 2 ^ 32 - fld ph 0 32) % 2 ^ 32
  1 ≤ d && d < 2 ^ 31

/-- R182 BARINIT. -/
def Run.barinit (v : Run) (p : PReg) (a n : W64) (len : Nat) : Except TrapRec State :=
  v.dwStep a .atomic none (barinitStep p n) (fun _ _ _ s => s) (fun id => .barinit id p n len)
def execBarinit (g : Guard) (p : PReg) (a b : Reg) (s : State) : Out :=
  runSeq 1 g [a, b] s (fun v => v.barinit p (v.q.getG a) (v.q.getG b) 1)
/-- R182 BARINIT with an immediate count. -/
def execBarinitSi (g : Guard) (p : PReg) (a : Reg) (imm : Imm) (s : State) : Out :=
  runSeq 2 g [a] s (fun v => v.barinit p (v.q.getG a) (zext64 imm) 2)
/-- R182 BARARR: a release when it arrives (R401). -/
def Run.bararr (v : Run) (d : Reg) (a : W64) (len : Nat) : Except TrapRec State :=
  v.dwStep a .atomic (some fun old => barCnt old != 0) (bararrStep d)
    (fun pa uchk old s => if barCnt old = 0 || uchk then s else s.arrive pa old ((s.bump v.r).tagOf v.r))
    (fun id => .bararr id d len)
def execBararr (g : Guard) (d a : Reg) (s : State) : Out :=
  runSeq 1 g [a] s (fun v => v.bararr d (v.q.getG a) 1)
/-- R182 BARARR with a displacement. -/
def execBararrSi (g : Guard) (d a : Reg) (imm : Imm) (s : State) : Out :=
  runSeq 2 g [a] s (fun v => v.bararr d (v.q.getG a + sext64 imm) 2)
/-- The tags of a phase's arrivals at a barrier object. -/
def State.arrived (s : State) (pa : Nat) (ph : W64) : List RaceTag :=
  (s.arrivals.filter (fun x => x.1 = pa / 8 && x.2.1 = fld ph 0 32)).map (·.2.2)
/-- R182 BARTEST: true acquires every arrival of the phase, and what its sector's tag says (R402). -/
def Run.bartest (v : Run) (p : PReg) (a ph : W64) (len : Nat) : Except TrapRec State :=
  v.dwStep a .read none (fun old q => { q := q.setP p (barPassed ph old) })
    (fun pa uchk old s =>
      if !barPassed ph old then s
      else ((if uchk then {} else (s.sideAt (sectorOf pa)).tag) :: s.arrived pa ph).foldl (fun s t => s.acquire v.r t) s)
    (fun id => .bartest id p ph len)
def execBartest (g : Guard) (p : PReg) (a b : Reg) (s : State) : Out :=
  runSeq 1 g [a, b] s (fun v => v.bartest p (v.q.getG a) (v.q.getG b) 1)
/-- R182 BARTEST with an immediate phase. -/
def execBartestSi (g : Guard) (p : PReg) (a : Reg) (imm : Imm) (s : State) : Out :=
  runSeq 2 g [a] s (fun v => v.bartest p (v.q.getG a) (zext64 imm) 2)

/-! ### Hardware work queues (R180) -/

/-- The queue a number names, when it is the context's. -/
def Run.ownQueue (v : Run) (n : Nat) : Option Queue :=
  match v.s.queue? n with
  | some q => if q.ctx = v.rg.ctx then some q else none
  | none => none

/-- The 64-byte alignment of a record (R180). -/
def Run.aligned64 (a : W64) : Except TrapRec Unit :=
  if a.toNat % 64 != 0 then .error (alignTrap a) else .ok ()

/-- R180 QPUSH: appends the record as a release. -/
def Run.qpush (v0 : Run) (d : Reg) (n : Nat) (a : W64) : Except TrapRec State :=
  match Run.aligned64 a with
  | .error t => .error t
  | .ok _ =>
    let v := v0.drained
    match v.readDws a 8 with
    | .error t => .error t
    | .ok l =>
      match v.ownQueue n with
      | none => v.refuse d 5
      | some q =>
        if !q.dev then v.refuse d 5
        else if q.st != .enabled then v.refuse d 6
        else match v.s.push n l with
          | none => v.refuse d 4
          | some (s, k) => .ok (v.setIn (s.bump v.r) (v.q.setG d k))
/-- R180 QPUSH. -/
def execQpush (g : Guard) (d a b : Reg) (s : State) : Out :=
  runSeq 1 g [a, b] s (fun v => v.qpush d (fld (v.q.getG a) 0 13) (v.q.getG b))
/-- R180 QPUSH with an immediate queue. -/
def execQpushSi (g : Guard) (d b : Reg) (q : BitVec 13) (s : State) : Out :=
  runSeq 2 g [b] s (fun v => v.qpush d q.toNat (v.q.getG b))

/-- R180 QPOP: takes the head record of a consuming queue and writes it to 64 bytes, as an acquire; every
trap of the destination is decided first. Bytes on a remote node are written before the next instruction as well. -/
def Run.qpop (v0 : Run) (p : PReg) (n : Nat) (a : W64) (len : Nat) : Except TrapRec State :=
  match Run.aligned64 a with
  | .error t => .error t
  | .ok _ =>
    let v := v0.drained
    match v.target a 64 .write with
    | .error t => .error t
    | .ok tg =>
      match v.ownQueue n with
      | none => .ok (v.set (v.q.setP p false))
      | some _ =>
        match v.s.takeRec n with
        | none => .ok (v.set (v.q.setP p false))
        | some (l, s) =>
          let s := (s.acquireAll v.r).cache v.rg.core v.rg.ctx a
          match tg with
          | .loc pa _ =>
            let s := (s.write (s.keyOf v.rg.ctx) pa ((dwBytes l).take 64)).setFmt (sectorOf pa) 0 0 0
            .ok (v.setIn s (v.q.setP p true))
          | .rem rn ch rod ad _ =>
            .ok (({ v with s := s } : Run).await (v.remote .st rn ch rod ad a ((dwBytes l).take 64)) (fun id => .qpop id p len))
/-- R180 QPOP. -/
def execQpop (g : Guard) (p : PReg) (a b : Reg) (s : State) : Out :=
  runSeq 1 g [a, b] s (fun v => v.qpop p (fld (v.q.getG a) 0 13) (v.q.getG b) 1)
/-- R180 QPOP with an immediate queue. -/
def execQpopSi (g : Guard) (p : PReg) (b : Reg) (q : BitVec 13) (s : State) : Out :=
  runSeq 2 g [b] s (fun v => v.qpop p q.toNat (v.q.getG b) 2)

/-- R180 QSEQ: DONE or ISSUED. -/
def Run.qseq (v : Run) (issued : Bool) (d : Reg) (n : Nat) : Except TrapRec State :=
  match v.ownQueue n with
  | none => v.refuse d 5
  | some q => .ok (v.set (v.q.setG d (if issued then q.issued else q.done)))
/-- R180 QSEQ. -/
def execQseq (g : Guard) (issued : Bool) (d a : Reg) (s : State) : Out :=
  runSeq 1 g [a] s (fun v => v.qseq issued d (fld (v.q.getG a) 0 13))
/-- R180 QSEQ with an immediate queue. -/
def execQseqSi (g : Guard) (issued : Bool) (d : Reg) (q : BitVec 13) (s : State) : Out :=
  runSeq 2 g [] s (fun v => v.qseq issued d q.toNat)

end Sys2Proof.Machine
end

