-- ==== Sys2Proof/Machine/EngEvents.lean ====
section
/-! DEFINITION. The events of the engines: a command starts, moves one element, completes; chains; a
multicast member is detached (06 R151, R156 to R159, R163, R164, R166 to R170, R176, R178, R181). An event
that its rule does not enable changes nothing (00 R10). -/
namespace Sys2Proof.Machine

/-! ### The command at its turn -/

/-- The entries of a queue up to its first command, and that command (R151). -/
def headCmd : List EqEntry → List EqEntry × Option Cmd
  | [] => ([], none)
  | .cmd c :: _ => ([], some c)
  | x :: t => (x :: (headCmd t).1, (headCmd t).2)

/-- A fence entry ahead lets a command start: an SBAR that still holds delays only commands that access bank
space (R167), a QFENCE every one (R181). -/
def Region.fencePasses (rg : Region) (c : Cmd) (x : EqEntry) : Bool :=
  match x with
  | .sbar _ _ => !(c.usesBank && rg.fenceHolds x)
  | x => !rg.fenceHolds x

/-- An engine at work on the head command of queue `q` of a resident region. -/
def State.engAt (s : State) (r q : Nat) : Option Eng :=
  match s.rg? r with
  | none => none
  | some rg =>
    if !rg.resident then none
    else (headCmd (rg.eq q).entries).2.map (fun c => { r := r, q := q, rg := rg, c := c, s := s })

/-- Runs an engine's step: what it leaves is written back. -/
def EngM.run : EngM Eng → Out
  | .ok e => .next e.done
  | .error s => .next s

/-! ### Starting (R164) -/

/-- What FMT the port of a command must have, and its PAIR (R164). GATHER, SCATTER and MCAST with FMT SB8 or SBF8 want that code
itself, which no port has, and so end with FORMAT (MODEL'S CHOICE, notes/assumptions/151.md). -/
def Cmd.portWant (c : Cmd) : Nat × Bool :=
  match c.op with
  | .sload | .sstore => (denseOf (dFmt c.desc), fld (dw c.desc 8) 7 1 = 1)
  | _ => (dFmt c.desc, false)
def portMatches (c : Cmd) (v : Option NodeV) : Bool :=
  match v with
  | none => false
  | some v => v.fmt = c.portWant.1 && portPair v = c.portWant.2
/-- The port is bound by another queue's command or held by another queue's KEEP binding (R164). -/
def Region.portBusy (rg : Region) (q : Nat) (c : Cmd) : Bool :=
  (match c.inP with
   | some p => match (rg.inPort p).bound with | some k => k != q | none => false
   | none => false)
  || (match c.outP with
      | some p =>
        (match (rg.outPort p).bound with | some k => k != q | none => false)
        || (match (rg.outPort p).keep with | some k => k != q | none => false)
      | none => false)
def Region.portFits (rg : Region) (c : Cmd) : Bool :=
  (match c.inP with | some p => portMatches c (rg.inNode p) | none => true)
  && (match c.outP with | some p => portMatches c (rg.outNode p) | none => true)
/-- A command binds the ports it names. A multicast binds its egress port, and none of its members' ingress ports (MODEL'S
CHOICE, notes/assumptions/152.md). -/
def Region.bindPorts (rg : Region) (q : Nat) (c : Cmd) : Region :=
  let rg1 := match c.inP with
    | some p => rg.setIn p { rg.inPort p with bound := some q }
    | none => rg
  match c.outP with
  | some p => rg1.setOut p { rg1.outPort p with bound := some q }
  | none => rg1

/-- A decoder slot that a running ETBL loads (R170). -/
def Region.loading (rg : Region) (slot : Nat) : Bool :=
  rg.eqs.any (fun x => x.cmds.any (fun c =>
    c.op = .etbl && c.started && !c.finished && fld (dw c.desc 3) 0 2 = slot))
/-- The table of a slot, by entry. -/
def Region.table (rg : Region) (slot : Nat) : Assoc W32 :=
  (rg.dec.filter (fun e => 4096 * slot ≤ e.1 && e.1 < 4096 * slot + 4096)).map (fun e => (e.1 - 4096 * slot, e.2))
def Cmd.decodes (c : Cmd) : Bool := c.op = .cpy && fld (dw c.desc 4) 42 2 = 2

/-- The command as it stands when it starts (R170, R176, R178). -/
def Cmd.start (c : Cmd) (rg : Region) : Cmd :=
  match c.op with
  | .cpy => { c with started := true, tbl := if c.decodes then rg.table (fld (dw c.desc 4) 44 2) else [] }
  | .mcast => { c with started := true, mbuf := ((List.range 16).filter (fun j => fld (dw c.desc 2) (16 + j) 1 = 1)).map (fun j => (j, [])) }
  | .chainw => { c with started := true, link := some (dw c.desc 2), outer := c.desc, sub := 0, buf := [] }
  | _ => { c with started := true }

/-- A command reaches its queue head, binds its port and starts (R164). -/
def Eng.start (e : Eng) : Eng :=
  let c := e.c.start e.rg
  if e.rg.portFits e.c then { e with c := c }.upd (fun rg => rg.bindPorts e.q e.c)
  else { e with c := c.finish 1 }

/-- ENGINE_COMMAND_START (R151, R164, R167, R170, R181). -/
def execEngineCommandStart (r q : Nat) (s : State) : Out :=
  match s.engAt r q with
  | none => .next s
  | some e =>
    let ahead := (headCmd (e.rg.eq q).entries).1
    if e.c.started || !ahead.all (e.rg.fencePasses e.c) || e.rg.portBusy q e.c
        || (e.c.decodes && e.rg.loading (fld (dw e.c.desc 4) 44 2)) then .next s
    else .next e.start.done

/-- Every remote access of the command has been answered. -/
def State.answered (s : State) (c : Cmd) : Bool :=
  (c.remote.toList ++ c.sent).all (fun id => (s.remotes.find id).elim true (fun x => x.result.isSome || x.failed))

/-! ### Chains (R178) -/

/-- A command's progress is cleared, its counters kept. -/
def Cmd.again (c : Cmd) : Cmd :=
  { c with started := false, finished := false, pos := 0, sub := 0, bit := 0, buf := [], toks := []
           part := [], owed := [], old := [], tbl := [], mbuf := [], stall := [], hold := false, filled := false }
/-- The chain goes on after a descriptor: NEXT of the element is read. -/
def Cmd.nextLink (c : Cmd) : Cmd :=
  { c.again with op := .chainw, desc := c.outer, started := true, sub := 1 }
/-- The kinds of command whose descriptors have a length. -/
def kindsOf (dlen : Nat) : List EngOp :=
  match dlen with
  | 9 => [.sload, .sstore, .gather, .scatter]
  | 6 => [.cpy, .xpose]
  | 5 => [.mcast]
  | 4 => [.etbl]
  | _ => []
/-- A chained descriptor is taken (R178): it must have CMPL = 0, be no CHAINW and pass the checks of R154. -/
def Cmd.takeLink (c : Cmd) (nmem : Nat) (d : List W64) : Cmd :=
  let ks := kindsOf (fld (dw d 0) 0 8)
  match ks[Config.chainKind d % ks.length]? with
  | none => c.finish 11
  | some k => if dCmpl d || descCode k nmem d != 0 then c.finish 11 else { c.again with op := k, desc := d }

/-- One dword of a chain's memory is read at `a`; what it holds goes to `k`. -/
def Eng.chainDw (e : Eng) (a : W64) (k : Eng → W64 → EngM Eng) : EngM Eng :=
  if a.toNat % 8 != 0 then .error (e.finish 11).done
  else match e.readFlat a 8 with
  | .error s => .error s
  | .ok (g, e) =>
    if g.failed then .error (e.finish 9).done
    else if g.bad then .error (e.finish 3).done
    else k e (w64 (leNat g.bytes))

/-- NEXT is read: 0 ends the chain, bit 0 is HOLD, any other value is the next element. -/
def Eng.chainNext (e : Eng) (l : W64) : EngM Eng :=
  e.chainDw l (fun e x =>
    if x = 0 then .ok (e.finish 0)
    else if bit x 0 then .ok { e with c := { e.c with hold := true } }
    else .ok { e with c := { e.c with hold := false, link := some x, sub := 0, buf := [] } })

/-- One step of a chain between its commands. -/
def Eng.chain (e : Eng) : EngM Eng :=
  match e.c.link with
  | none => .ok (e.finish 11)
  | some l =>
    if e.c.hold then .ok e
    else if e.c.sub = 1 then e.chainNext l
    else
      let n := e.c.buf.length / 8
      e.chainDw (l + 8 + w64 (8 * n)) (fun e x =>
        let buf := e.c.buf ++ leBytes 8 x.toNat
        let d := (List.range (n + 1)).map (fun i => w64 (leNat ((buf.drop (8 * i)).take 8)))
        let dl := fld (dw d 0) 0 8
        if (kindsOf dl).isEmpty || headBad (dw d 0) then .ok (e.finish 11)
        else if n + 1 < dl then .ok { e with c := { e.c with buf := buf } }
        else .ok { e with c := e.c.takeLink e.rg.nmem d })

/-- CHAIN_HOLD_REREAD (R178): the engine rereads a NEXT that held HOLD. -/
def execChainHoldReread (r q : Nat) (s : State) : Out :=
  match s.engAt r q with
  | none => .next s
  | some e =>
    match e.c.op, e.c.link with
    | .chainw, some l =>
      if !e.c.hold || e.c.finished || e.c.paused.isSome || !s.answered e.c then .next s else (e.chainNext l).run
    | _, _ => .next s

/-! ### Moving an element (R158) -/

/-- What the status of a reduction that a remote node has applied is: that of the operation on the value it found, which
its reply gives (R47, R53, R175). -/
def Remote.status (x : Remote) : Flags :=
  match x.op, x.result with
  | some o, some v => if o.fmt = 0 then 0 else (reduce o.code o.fmt (v.toNat % 2 ^ (8 * x.bytes.length)) (leNat x.bytes)).2
  | _, _ => 0
/-- The answers to remote writes and reductions are taken: a failure ends the command with REMOTE, but skips only its row
in a SCATTER, and the status of a reduction goes to ACS (R157, R173, R175). -/
def Eng.settleRemote (e : Eng) : Eng :=
  e.c.sent.foldl (fun e id =>
    match e.s.remotes.find id with
    | none => e
    | some x =>
      let e := ({ e with s := { e.s with remotes := e.s.remotes.del id } } : Eng).upd (fun rg => rg.raise x.status)
      if !x.failed then e
      else if e.c.op = .scatter && !e.c.finished then e.note 9 else e.finish 9) { e with c := { e.c with sent := [] } }

/-- What the engine of the command's kind does with one element. -/
def Eng.move (e : Eng) : EngM Eng :=
  match e.c.op with
  | .sload => e.sload
  | .sstore => e.sstore
  | .cpy => e.cpy
  | .etbl => e.etbl
  | .xpose => e.xpose
  | .gather => e.gather
  | .scatter => e.scatter
  | .mcast => e.mcast
  | .chainw => e.chain
  | .pref | .flush => e.place

/-- One element of a started command that neither waits on a fault nor on a remote device (R158, R159). -/
def Eng.element (e : Eng) : Out :=
  if !e.c.started || e.c.paused.isSome || !e.s.answered e.c then .next e.s
  else
    let e := e.settleRemote
    if e.c.finished then .next e.done else e.move.run

/-- ENGINE_ELEMENT (R158): an engine moves, writes or reduces one element. -/
def execEngineElement (r q : Nat) (s : State) : Out :=
  match s.engAt r q with
  | none => .next s
  | some e => e.element

/-! ### Completion (R156) -/

/-- The ports a queue's command held are released; an SSTORE leaves a KEEP binding where its pattern filled
with KEEP = 1, and ends it where KEEP = 0 (R163). -/
def Region.unbind (rg : Region) (q : Nat) (c : Cmd) : Region :=
  let vin := rg.vin.map (fun e => if e.2.bound = some q then (e.1, { e.2 with bound := none }) else e)
  let vout := rg.vout.map (fun e => if e.2.bound = some q then (e.1, { e.2 with bound := none }) else e)
  let rg1 := { rg with vin := vin, vout := vout }
  match c.op, c.outP with
  | .sstore, some p =>
    let x := rg1.outPort p
    if fld (dw c.desc 8) 8 1 = 0 then (if x.keep = some q then rg1.setOut p { x with keep := none } else rg1)
    else if c.filled then rg1.setOut p { x with keep := some q }
    else rg1
  | _, _ => rg1

/-- The command leaves its queue: DONE := s, its counters are those SSTAT reads, and the fences it held go on. -/
def Region.retireCmd (rg : Region) (q : Nat) (c : Cmd) : Region :=
  let rg1 := rg.unbind q c
  let x := rg1.eq q
  (rg1.setEq q { x with
    done := c.seq, last := some c
    entries := x.entries.filter (fun e => match e with | .cmd o => o.seq != c.seq | _ => true) }).popFences
/-- DONE, the status and the counts, which a command that completes records before its completion word is stored
(R156). -/
def Region.recordCmd (rg : Region) (q : Nat) (c : Cmd) : Region :=
  rg.setEq q { rg.eq q with done := c.seq, last := some c }
/-- A command has completed and leaves its queue: the ends of stream behind it, in any region of its group, go on. -/
def Eng.retire (e : Eng) : State :=
  let s := e.s.updRg e.r (fun rg => rg.retireCmd e.q e.c)
  { s with
    remotes := s.remotes.filter (fun x => e.c.remote != some x.1)
    regions := s.regions.map (fun x => (x.1, x.2.gone e.r e.q e.c.seq)) }

/-- The completion word is stored as a release at CWA, once everything else of the command has performed (R156). It is no
access of the command's stream, so it counts no translation (R165). A word on a remote node keeps the command in its queue
until it has performed (R335). -/
def Eng.complete (e : Eng) : State :=
  let d := if e.c.link.isSome then e.c.outer else e.c.desc
  let va := dw d 1
  if e.c.op = .pref || e.c.op = .flush || !dCmpl d then e.retire
  else match xlate e.s e.rg.core e.rg.ctx va .write with
    | .error f =>
      if f.pauses then
        let (s, id) := e.s.pause e.r e.rg va f .write (.engine e.c.page e.q) { cause := 3 }
        let c := { e.c with paused := some id, lastBlk := none }
        ({ e with s := s, c := c } : Eng).done.updRg e.r (fun rg => rg.recordCmd e.q c)
      else (e.note (if f.reason = 8 then 9 else 2)).retire
    | .ok (.loc pa uchk) =>
      if e.s.quiesced pa then e.base else
      let s := ({ e with s := (e.s.cache e.rg.core e.rg.ctx va).bump e.r } : Eng).retire
      let s := s.settle1 e.r pa uchk
      let s := s.write (s.keyOf e.rg.ctx) pa (leBytes 8 e.c.seq)
      if uchk then s else s.setTag (sectorOf pa) (s.tagOf e.r)
    | .ok (.rem rn ch rod a _) =>
      let (s, id) := (e.s.bump e.r).sendRemote (e.remote rn ch rod a va (leBytes 8 e.c.seq))
      let c := { e.c with cwa := true, sent := [id] }
      ({ e with s := s, c := c } : Eng).done.updRg e.r
        (fun rg => rg.recordCmd e.q c)

/-- ENGINE_COMMAND_COMPLETE (R156): a finished command whose accesses have all performed completes; a finished command of a
chain gives way to the chain (R178). -/
def execEngineCommandComplete (r q : Nat) (s : State) : Out :=
  match s.engAt r q with
  | none => .next s
  | some e =>
    if !e.c.finished || e.c.paused.isSome || !s.answered e.c then .next s
    else
      let e := e.settleRemote
      if e.c.cwa then .next e.retire
      else if e.c.link.isSome && e.c.op != .chainw then
        .next ({ e.upd (fun rg => rg.unbind q e.c) with c := e.c.nextLink }).done
      else .next e.complete

/-! ### Multicast (R176) -/

/-- MCAST_DETACH: a member whose stall has lasted STALL cycles is detached: its port receives a token that
acts as end-of-stream. -/
def execMcastDetach (r q j : Nat) (s : State) : Out :=
  match s.engAt r q with
  | none => .next s
  | some e =>
    let st := fld (dw e.c.desc 2) 32 32
    if e.c.op != .mcast || !e.c.started || e.c.finished || st = 0 || (e.c.mbuf.find j).isNone || e.c.stall.get j 0 < st then .next s
    else
      let p := fld (dw e.c.desc (3 + j / 8)) (8 * (j % 8)) 8
      let c : Cmd := { e.c.note 8 with mbuf := e.c.mbuf.del j, stall := e.c.stall.del j
                                       detmask := e.c.detmask ||| (1#16 <<< j) }
      match s.memberOf e.rg j with
      | none => .next ({ e with c := c } : Eng).done
      | some m => .next (({ e with c := c } : Eng).done.updRg m (fun rg => rg.feed p eosToken))

end Sys2Proof.Machine
end

