-- ==== Sys2Proof/Machine/NodeFib.lean ====
section
/-! DEFINITION. What one position of a fibre node does: it stages inputs and starts operations (09 R247, R256 to
R259, R273). -/
namespace Sys2Proof.Machine

/-- Operations started since RUN, the open stream segment, whether it has taken a token, whether a segment has been
closed. -/
def Nd.fibX (d : Nd) : Nat × List (W64 × Token) × Bool × Bool :=
  match d.st.x with
  | .fib n l o u => (n, l, o, u)
  | _ => (0, [], false, false)

/-- Operations a node may have in progress. -/
def fibDepth : Nat := 64

def fibKind (op : Nat) : FKind :=
  match op with
  | 0xB8 => .merge
  | 0xB9 => .ins
  | 0xBA => .scan
  | 0xBB => .probe
  | 0xBC => .inter
  | 0xBD => .count
  | 0xBE => .clear
  | 0xBF => .compact
  | 0xC0 => .topk
  | _ => .stat

/-- RBASE in the block's literal pool (R257). -/
def Nd.rbase (d : Nd) : W64 :=
  let l := (d.blk.pool.drop (d.v.bits 0 12)).map BitVec.toNat
  w64 (l.getD 0 0 + 2 ^ 32 * l.getD 1 0)

/-- An operation as the node starts it. -/
def Nd.newFop (d : Nd) (addr : W64) (pairs : List (W64 × Token)) (mks : BitVec 4) : FOp :=
  { rid := d.r, blk := d.b, nidx := d.n, num := d.st.pos
    rec_ := if d.rbase = 0 then none else some (d.rbase + w64 (16 * d.fibX.1))
    kind := fibKind d.v.op, ctx := d.rg.ctx, addr := addr, pairs := pairs, opt := .ofNat 32 d.v.lit
    fmt := .ofNat 8 d.v.fmt, fbc := (Mode.ofAmf d.blk.amf.toNat).fbc, mks := mks }
def Nd.putFop (d : Nd) (o : FOp) : Nd :=
  { d with s := { d.s with fops := d.s.fops.put d.s.nextId o, nextId := d.s.nextId + 1 } }

/-- A position that starts no operation passes its markers on, behind the operations in progress (R259). -/
def Nd.fibPass (d : Nd) (mks : BitVec 4) : Nd :=
  if d.fops.isEmpty && d.room then (d.sendTo d.dataPlaces { mks := mks, bub := true }).sendTo d.orderPlaces { mks := mks }
  else d.putFop { d.newFop 0 [] mks with
    noop := true, rec_ := none, st := .done, out := if isFibreWriter d.v.op then [] else [bubblePair mks] }

/-- The checks at the node: RBASE's alignment (R258), then the addresses (R247). -/
def Nd.fibTrap (d : Nd) (addrs : List W64) : Option Nd :=
  let k : AccK := if isFibreWriter d.v.op then .write else .read
  if d.rbase.toNat % 16 != 0 then some (d.trap 2 d.rbase 0)
  else (addrs.find? (fun a => !fibreSpace a)).map (fun a => d.trap 3 a (XFault.detail ⟨6, 0, 0⟩ k))

/-- The pair that tokens of slots b and c make (R256, R259). -/
def Nd.pairOf (d : Nd) (ts : List Token) : W64 × Token :=
  let b := ts.getD 0 {}
  match ts with
  | [_, v] => (b.val, { v with psn := v.psn || b.psn, inv := v.inv || b.inv })
  | _ => (match b.ix with
      | some x => zext64 x
      | none => Config.freeCoord (d.s.freeIx * 65536 + d.st.pos), b)

/-- A stopped node that was skipped at a firing makes its position a bubble (R432); a skip of a record's write
belongs to its operation. -/
def Nd.fibSkip (d : Nd) : Bool := d.st.skip && !d.fops.any (fun e => e.2.trapped)
def Token.flagged (t : Token) : Bool := t.bub || t.psn || t.inv
def Nd.unskip (d : Nd) : Nd := if d.fibSkip then d.upd (fun st => { st with skip := false }) else d

/-- The started operation is counted and put on its way. -/
def Nd.startOp (d : Nd) (o : FOp) : Nd :=
  let (n, _, _, u) := d.fibX
  (d.putFop o).setX (.fib (n + 1) [] false u)

/-- The pairs of an operation with one position: FINS's pair, FPROBE's coordinate. -/
def Nd.ownPairs (d : Nd) (vs : List Token) : List (W64 × Token) :=
  match fibKind d.v.op with
  | .ins => [d.pairOf vs]
  | .probe =>
    let b := vs.getD 0 {}
    [(if d.v.flag 16 then b.val else w64 (b.val.toNat % 2 ^ 32), b)]
  | _ => []

/-- Fibre nodes whose operations take one position of every slot (R259). -/
def Nd.fibNode (d : Nd) : Option Nd :=
  let req := d.memReq
  let ps := d.pairs req
  if fibDepth ≤ d.fops.length || (!d.fops.isEmpty && !ps.isEmpty && ps.all (fun i => (d.head i).isEnded)) then none
  else d.pairStep req (fun d ts =>
    let a := ts.getD 0 {}
    let vs := (ts.take d.req.length).drop 1
    let kind := fibKind d.v.op
    let void := a.flagged || vs.any (·.bub) || (kind != .ins && vs.any Token.flagged)
    if d.fibSkip || void then some ((d.consume req).unskip.fibPass (orMks (a :: vs)))
    else
      let addrs := if kind = .inter then [a.val, (vs.getD 0 {}).val] else [a.val]
      match d.fibTrap addrs with
      | some d' => if d.fops.isEmpty then some d' else none
      | none =>
        let o := d.newFop a.val (d.ownPairs vs) a.mks
        let d := d.consume req
        if kind = .inter then
          let id := d.s.nextId
          let h : FOp := { o with addr := (vs.getD 0 {}).val, half := some id, rec_ := none }
          some ((d.startOp { o with other := some (id + 1) }).putFop h)
        else some (d.startOp o))

/-- FMERGE and FINTER with STR: each address takes the next segment of the pair stream (R259); slots that a standing token or
a delay edge feeds have no end and no surplus (R189). -/
def Nd.fibStream (d : Nd) : Option Nd :=
  let (_, seg, opened, used) := d.fibX
  let as_ := if d.fed 3 then [0, 3] else [0]
  let ap := d.pairs as_
  let bs := if d.v.op = 0xB8 && d.v.flag 16 then [1, 2] else [1]
  let bp := d.pairs bs
  let rest := if bp.all (fun i => (d.head i).isEnded) then (if d.fops.isEmpty && d.room then some d.finish else none) else d.surplusOf bp
  let segm : BitVec 4 := .ofNat 4 (d.v.bits 12 4)
  let close := fun (d : Nd) (l : List (W64 × Token)) (a : Token) =>
    let o := d.newFop a.val l a.mks
    let (n, _, _, _) := d.fibX
    some (((d.consume as_).putFop o).setX (.fib (n + 1) [] false true))
  if d.st.ended || fibDepth ≤ d.fops.length then none
  else if !opened && ap.any (fun i => (d.head i).isEnded) then
    if !ap.all (fun i => (d.head i).isEnded) then d.surplusOf ap
    else rest
  else if as_.any (fun i => (d.head i).isMissing) then none
  else match (d.head 0).tok? with
  | none => none
  | some a =>
    if !opened && (d.fibSkip || a.flagged) then some ((d.consume as_).unskip.fibPass a.mks)
    else match (if opened then none else d.fibTrap [a.val]) with
    | some d' => if d.fops.isEmpty then some d' else none
    | none =>
      if bp.any (fun i => (d.head i).isEnded) then
        if !bp.all (fun i => (d.head i).isEnded) then d.surplusOf bp
        else if opened || !used then close d seg a
        else if ap.contains 0 then d.surplusOf [0]
        else rest
      else
        let ts := bs.filterMap (fun i => (d.head i).tok?)
        if ts.length != bs.length || (!opened && !Config.stagingFree d.s.freeIx) then none
        else
          let seg := if ts.any (·.bub) then seg else seg ++ [d.pairOf ts]
          let d := bs.foldl Nd.pop d
          if orMks ts &&& segm != 0 then close d seg a
          else
            let (n, _, _, u) := d.fibX
            some (d.setX (.fib n seg true u))

/-- FINTER takes a second fibre, or with STR a stream (R270). -/
def Nd.finter (d : Nd) : Option Nd := if d.v.flag 17 then d.fibStream else d.fibNode

end Sys2Proof.Machine
end

