-- ==== Sys2Proof/Machine/SeqSystem.lean ====
section
/-! DEFINITION. Traps and returns, special registers, snapshots of the registers, and the solver support
of the sequencer (05 R145, R146, R148 to R150; 04 R108, R109; 20 R431, R432). -/
namespace Sys2Proof.Machine

/-! ### Traps and returns -/

/-- R145 TRAP: the software trap with EINFO := zext(IMM). -/
def execTrap (g : Guard) (imm : Imm) (s : State) : Out :=
  runSeq 2 g [] s (fun _ => .error { cause := 11, einfo := zext64 imm })

/-- R109 FETCH_FAULT: a failed fetch check traps precisely; the instruction has no effect. -/
def execFetchFault (f : FetchErr) (s : State) : Out :=
  match s.agent with
  | .seq r pg =>
    match s.seq? r pg with
    | none => .fault .noSuchAgent
    | some q => .next (s.trap r pg q.pc { cause := f.cause, eaddr := f.eaddr, einfo := f.einfo })
  | _ => .fault .noSuchAgent

/-- The page whose sequencer takes a trap: the executing one, else the lead. -/
def State.trapPage (s : State) : Nat :=
  match s.agent with
  | .seq _ pg => pg
  | _ => 0
/-- The first pending trap of a page, and the others. -/
def takeTrap (pg : Nat) : List TrapRec → Option (TrapRec × List TrapRec)
  | [] => none
  | t :: l => if t.page = pg then some (t, l) else (takeTrap pg l).map (fun e => (e.1, t :: e.2))

/-- R431 ASYNC_TRAP_TAKEN: the first pending trap is taken before the sequencer's next instruction, unless
INH is 1 or it has halted. -/
def execAsyncTrapTaken (r : Nat) (s : State) : Out :=
  match s.rg? r, s.seq? r s.trapPage with
  | some rg, some q =>
    match takeTrap s.trapPage rg.pendTraps with
    | none => .next s
    | some (t, rest) =>
      if q.inh || q.halted then .next s
      else .next ((s.setRg r { rg with pendTraps := rest }).setSeq r s.trapPage (q.enter q.pc t))
  | _, _ => .next s

/-- RETT after a node trap restarts the stopped node (R432): with SKIP the position becomes a bubble, or,
after a length mismatch, the node follows the non-trapping rule from then on. -/
def NodeSt.restart (x : NodeSt) (skip : Bool) : NodeSt :=
  match x.stopped with
  | none => x
  | some t =>
    if !skip then { x with stopped := none }
    else if t.cause = 7 then { x with stopped := none, lmOff := true }
    else { x with stopped := none, skip := true }

/-- Whether a stopped node is the one ECAUSE names: block modulo 8, node index, dune (R428). -/
def NodeSt.named (x : NodeSt) (ec : W64) (pend : List TrapRec) : Bool :=
  match x.stopped with
  | none => false
  | some t => t.blk % 8 = fld ec 10 3 && t.nidx = fld ec 13 7 && t.dune = fld ec 20 7
      && t.cause = fld ec 0 8 && !pend.contains t

def Region.restart (rg : Region) (ec : W64) : Region :=
  if !bit ec 8 then rg
  else match rg.nodes.find? (fun e => e.2.named ec rg.pendTraps) with
    | none => rg
    | some e => { rg with nodes := rg.nodes.put e.1 (e.2.restart (bit ec 9)) }

/-- R145, R432 RETT: returns to EPC and restarts a stopped node. -/
def execRett (g : Guard) (s : State) : Out :=
  runSeq 1 g [] s (fun v =>
    .ok (v.setIn (v.s.updRg v.r (fun rg => rg.restart v.q.ecause)) (v.q.leave v.q.epc)))

/-- R145 RETT.NEXT: returns past the instruction at EPC, whose length bits [1:0] of its word give; a
fetch of that word that faults is this instruction's translation trap (notes/assumptions/12.md). The management core reads the
word in Falim, whose lengths are free values (notes/assumptions/120.md). -/
def execRettNext (g : Guard) (s : State) : Out :=
  runSeq 1 g [] s (fun v =>
    if v.q.mgmt then .ok (v.set (v.q.leave (v.q.epc + w64 (4 * (1 + Config.pick (v.s.freeIx * 65536) % 3)))))
    else match xlate v.s v.rg.core v.rg.ctx v.q.epc .fetch with
    | .error f => .error (xlateTrap v.q.epc f .fetch)
    | .ok (.rem _ _ _ _ _) => .error (xlateTrap v.q.epc ⟨2, 4, 0⟩ .fetch)
    | .ok (.loc pa _) =>
      if v.s.poisonedAt pa 1 then .error (poisonTrap v.q.epc)
      else
        let n := match (v.s.peek (v.s.keyOf v.rg.ctx) pa).toNat % 4 with
          | 0 => 4 | 1 => 8 | 2 => 12 | _ => 4
        .ok (v.setIn ((v.cached v.q.epc).updRg v.r (fun rg => rg.restart v.q.ecause))
          (v.q.leave (v.q.epc + w64 n))))

/-! ### Special registers (R108, R146) -/

/-- PAGEID (R370). -/
def Region.pageid (rg : Region) : W64 :=
  w64 (rg.core * 2 ^ 32 + rg.member % 16 * 2 ^ 20 + (rg.nmem - 1) % 16 * 2 ^ 16 + rg.pm1 % 16 * 2 ^ 4 + rg.first % 16)
/-- DUPMAP (R117). -/
def Seq.dupmap (q : Seq) : W64 :=
  q.dups.foldl (fun m e => m ||| (1#64 <<< e.1.toNat)) 0

/-- The value a special register reads as (R108). -/
def Run.csr (v : Run) : Csr → W64
  | .cyc => (v.s.core v.rg.core).cyc
  | .stat => v.q.stat
  | .acs => v.rg.acs.setWidth 64
  | .budget => v.q.budget
  | .best => v.q.best
  | .bestres => v.q.bestres
  | .monmask => v.q.monmask
  | .pageid => v.rg.pageid
  | .ctxid => v.s.ctxid v.rg.ctx
  | .dupmap => v.q.dupmap
  | .epc => v.q.epc
  | .ecause => v.q.ecause
  | .eaddr => v.q.eaddr
  | .einfo => v.q.einfo
  | .tvec => v.q.tvec

/-- The bits of `old` under `m` replaced by those of `x`. -/
def blend (old m x : W64) : W64 := (old &&& ~~~ m) ||| (x &&& m)

/-- STAT written under its access codes (R116): DZT, INH and PMODE, where a PMODE of 3 is ignored. -/
def statWrite (old m x : W64) : W64 :=
  let n := blend old (m &&& 0xF00) x
  if fld n 8 2 = 3 then putFld n 8 2 (fld old 8 2) else n

/-- A write of the bits `m` of a special register under each bit's access code (R5, R108, R116, R132,
R149, R150, R428). DESIGN CHOICE: EINFO has a layout per cause, and a bit that R110 reserves is a field of another cause, so
all its 64 bits are written (notes/assumptions/141.md). -/
def Run.csrWrite (v : Run) (n : Csr) (m x : W64) : State :=
  match n with
  | .stat => v.set { v.q with stat := statWrite v.q.stat m x }
  | .acs => v.setIn (v.s.updRg v.r (fun rg => { rg with acs := rg.acs &&& ~~~ ((x &&& m).setWidth 5) })) v.q
  | .budget => v.set { v.q with budget := blend v.q.budget (m &&& 0xFFFFFFFFFFFF) x }
  | .best => v.set { v.q with best := blend v.q.best m x }
  | .bestres => v.set { v.q with bestres := blend v.q.bestres (m &&& 0xFFFFFFFF) x }
  | .monmask => v.set { v.q with monmask := blend v.q.monmask (m &&& 3) x }
  | .epc => v.set { v.q with epc := blend v.q.epc m x }
  | .ecause => v.set { v.q with ecause := blend v.q.ecause m x }
  | .eaddr => v.set { v.q with eaddr := blend v.q.eaddr m x }
  | .einfo => v.set { v.q with einfo := blend v.q.einfo m x }
  | .tvec => v.set { v.q with tvec := blend v.q.tvec m x }
  | .cyc | .pageid | .ctxid | .dupmap => v.set v.q

/-- R146 CSRR. -/
def execCsrr (g : Guard) (d : Reg) (n : Csr) (s : State) : Out :=
  runSeq 2 g [] s (fun v => .ok (v.set (v.q.setG d (v.csr n))))
/-- R146 CSRW. -/
def execCsrw (g : Guard) (a : Reg) (n : Csr) (s : State) : Out :=
  runSeq 2 g [a] s (fun v => .ok (v.csrWrite n (BitVec.allOnes 64) (v.q.getG a)))
/-- R146 CSRX: the old field to g[D], the field written from the low bits of g[S1]. -/
def execCsrx (g : Guard) (d a : Reg) (n : Csr) (lsb wm1 : BitVec 6) (s : State) : Out :=
  runSeq 2 g [a] s (fun v =>
    let w := wm1.toNat + 1
    let m := w64 ((2 ^ w - 1) * 2 ^ lsb.toNat)
    let v' := { v with q := v.q.setG d (w64 (fld (v.csr n) lsb.toNat w)) }
    .ok (v'.csrWrite n m (v.q.getG a <<< lsb.toNat)))

/-! ### SNAP (R148) -/

/-- The 40 dwords of a SNAP record. -/
def Run.snapDwords (v : Run) : List W64 :=
  v.q.pc :: ((List.range 31).map (fun i => v.q.getG (.ofNat 5 (i + 1))))
    ++ [(v.q.p ||| 1).setWidth 64, v.q.budget, v.q.best, v.q.bestres, v.q.monmask, 0, 0, 0]

/-- The dword stores of a SNAP from dword `i` on: each is issued as a ST, and the last of a sector makes it RAW (R40); the
trap of the one that fails, with the earlier ones kept. -/
def snapFrom (base : W64) : Nat → List W64 → Run → Run × Option TrapRec
  | _, [], v => (v, none)
  | i, x :: t, v =>
    let va := base + w64 (8 * i)
    let v := v.settled va 8
    match v.putStore va (leBytes 8 x.toNat) false false (i % 8 = 7) with
    | .error t => (v, some t)
    | .ok w => snapFrom base (i + 1) t w

/-- The registers SNAP reads. -/
def allRegs : List Reg := (List.range 31).map (fun i => .ofNat 5 (i + 1))

/-- R148 SNAP: 40 dword stores. -/
def execSnap (g : Guard) (a : Reg) (s : State) : Out :=
  runSeq 1 g allRegs s (fun v =>
    let base := v.q.getG a
    if base.toNat % 64 != 0 then .error (alignTrap base)
    else match snapFrom base 0 v.snapDwords v with
      | (w, none) => .ok (w.set w.q)
      | (w, some t) => if t.waits then .error t else .ok ((w.set { w.q with pc := w.pc }).trap w.r w.pg w.pc t))

/-! ### Budget and best iterate (R149, R150) -/

def setBudget (q : Seq) (x : Nat) : Seq := { q with budget := w64 (min x (2 ^ 48 - 1)) }
/-- R149 BUDGET. -/
def execBudget (g : Guard) (a : Reg) (s : State) : Out :=
  runRegs 1 g [a] s (fun q => setBudget q (q.getG a).toNat)
/-- R149 BUDGET with an immediate, zero-extended. -/
def execBudgetSi (g : Guard) (imm : Imm) (s : State) : Out :=
  runRegs 2 g [] s (fun q => setBudget q imm.toNat)
/-- R149 BUDGET.TEST: whether the budget has not run out. -/
def execBudgetTest (g : Guard) (p : PReg) (s : State) : Out :=
  runRegs 1 g [] s (fun q => q.setP p (!bit q.budget 63))
/-- R149 BUDGET.TEST, form SI. -/
def execBudgetTestSi (g : Guard) (p : PReg) (s : State) : Out :=
  runRegs 2 g [] s (fun q => q.setP p (!bit q.budget 63))
/-- R149 BUDGET_EXPIRE: the resident cycles left in REM pass, and EXP is set. -/
def execBudgetExpire (r pg : Nat) (s : State) : Out :=
  match s.rg? r, s.seq? r pg with
  | some rg, some q =>
    if rg.resident && fld q.budget 0 48 != 0 then .next (s.pass rg.core (fld q.budget 0 48)) else .next s
  | _, _ => .next s

/-- Compare-and-update of the best iterate (R150): `r` is the magnitude of a residual as F32. -/
def Seq.tryBest (q : Seq) (r : Nat) (ref : W64) : Seq × Bool :=
  if (fmtVal 0x18 0 r).lt (fmtVal 0x18 0 (fld q.bestres 0 32)) then
    ({ q with best := ref, bestres := w64 r }, true)
  else (q, false)
def Seq.doBest (q : Seq) (p : PReg) (x ref : W64) : Seq :=
  let y := q.tryBest (fld x 0 31) ref
  y.1.setP p y.2
def Seq.clearBest (q : Seq) (p : PReg) : Seq := { q.setP p false with best := 0, bestres := 0x7F800000 }
/-- R150 BEST. -/
def execBest (g : Guard) (p : PReg) (a b : Reg) (s : State) : Out :=
  runRegs 1 g [a, b] s (fun q => q.doBest p (q.getG a) (q.getG b))
/-- R150 BEST with an immediate reference. -/
def execBestSi (g : Guard) (p : PReg) (a : Reg) (imm : Imm) (s : State) : Out :=
  runRegs 2 g [a] s (fun q => q.doBest p (q.getG a) (sext64 imm))
/-- R150 BEST.CLR. -/
def execBestClr (g : Guard) (p : PReg) (s : State) : Out :=
  runRegs 1 g [] s (fun q => q.clearBest p)
/-- R150 BEST.CLR, form SI. -/
def execBestClrSi (g : Guard) (p : PReg) (s : State) : Out :=
  runRegs 2 g [] s (fun q => q.clearBest p)

end Sys2Proof.Machine
end

