-- ==== Sys2Proof/Machine/NodeMat.lean ====
section
/-! DEFINITION. Matrix nodes, accumulation, drains and the solver nodes (08 R219 to R230, R243 to R245). -/
namespace Sys2Proof.Machine

/-! ### Operands in tile slots (R215, R225, R227) -/

/-- An operand read: its value, or an invalid code, and whether a byte of it carries an uncorrectable
error. -/
structure Oper where
  val : Option Val
  bad : Bool

/-- Element (i, k) of a slot in element layout. -/
def Region.tileElem (rg : Region) (e : W64) (i k : Nat) : Oper :=
  let (o, n) := elemSpan (teFmt e) k
  let a := teAddr e (i * teRowBytes e + o)
  { val := (elemOf (teFmt e) k (leNat (bankPeek rg.bank a n))).map (fmtVal (teFmt e) 0), bad := rg.bankBad a n }
/-- Element (j, k) of a slot in plane layout: plane P − 1 carries negative weight (R172, R227). -/
def Region.planeElem (rg : Region) (e : W64) (j k : Nat) : Oper :=
  let row := (teCols e + 511) / 512 * 64
  let at_ := fun (q : Nat) => teAddr e ((q * teRows e + j) * row + k / 8)
  let bitOf := fun (q : Nat) => (rg.bank.get (at_ q) 0).toNat / 2 ^ (k % 8) % 2
  let v := (List.range (tePl e)).foldl (fun (s : Int) q =>
    s + (if q + 1 = tePl e then -1 else 1) * ((bitOf q * 2 ^ q : Nat) : Int)) 0
  { val := some (.fin (v < 0) v.natAbs 0), bad := (List.range (tePl e)).any (fun q => rg.bankBad (at_ q) 1) }
/-- Block scale of a row and column: 127 without an area. -/
def Region.blockScale (rg : Region) (e : W64) (i k : Nat) : Nat × Bool :=
  if teBlockBytes e = 0 then (127, false)
  else
    let a := teAddr e (teDataBytes e + i * ((teCols e + 63) / 64) + k / 64)
    ((rg.bank.get a 0).toNat, rg.bankBad a 1)
/-- Tile scale of a row and column: 1.0 without an area. -/
def Region.tileScaleAt (rg : Region) (e : W64) (i k : Nat) : Val × Bool :=
  if !teSc e then (.fin false 1 0, false)
  else
    let a := teAddr e (teDataBytes e + teBlockBytes e + 4 * (i * ((teCols e + 127) / 128) + k / 128))
    (fmtVal 0x18 0 (leNat (bankPeek rg.bank a 4)), rg.bankBad a 4)

def Val.finite : Val → Bool
  | .fin _ _ _ => true
  | _ => false

/-- One operand with its scales at a step: invalid, poisoned, or its scaled exact value. -/
inductive Scaled where
  | invalid
  | bad
  | ok (d : Dy)
def Region.scaled (rg : Region) (e : W64) (i k : Nat) : Scaled :=
  let x := if tePl e = 0 then rg.tileElem e i k else rg.planeElem e i k
  let (es, eb) := if tePl e = 0 then rg.blockScale e i k else (127, false)
  let (ts, tb) := rg.tileScaleAt e i k
  match x.val with
  | none => .invalid
  | some v =>
    if !v.finite || es = 255 || !ts.finite then .invalid
    else if x.bad || eb || tb then .bad
    else .ok ((v.dy.mul ts.dy).mul ⟨1, (es : Int) - 127⟩)

/-- What one promotion adds to an element (R225). -/
inductive Term where
  | invalid
  | poison
  | add (t : Dy)
/-- The steps of a group at rows `i` of A and `j` of B. -/
def Region.term (rg : Region) (ea eb : W64) (i j : Nat) : List (Nat × Bool) → Term
  | [] => .add ⟨0, 0⟩
  | (k, _) :: t =>
    match rg.scaled ea i k, rg.scaled eb j k, rg.term ea eb i j t with
    | .invalid, _, _ | _, .invalid, _ | _, _, .invalid => .invalid
    | .bad, _, _ | _, .bad, _ | _, _, .poison => .poison
    | .ok x, .ok y, .add z => .add ((x.mul y).add z)
/-- An element's accumulator after a promotion, and the status it raises (R49, R50, R53). -/
def Acc.promote (a : Acc) : Term → Acc × Flags
  | .invalid => (a.addInvalid, fInvalid ||| fPoison)
  | .poison => (a.addPoison, fPoison)
  | .add t => (a.add t, a.addRaises t)

/-! ### MM and MMPL (R223 to R227) -/

/-- The tokens of an index set at the head of a slot, up to the one that ends it, and whether end-of-stream
cut it short; `none` while it is not whole. -/
def idxSet (db : Nat) : List Token → Option (List Token × Bool)
  | [] => none
  | t :: l =>
    if t.eos then some ([], true)
    else if t.mks.getLsbD db then some ([t], false)
    else (idxSet db l).map (fun x => (t :: x.1, x.2))
/-- Rows or columns of the largest tile (R224). -/
def mmTile (f : Nat) : Nat := match mmClass f with | some 2 => 8 | some 3 => 4 | _ => 16

structure MmX where
  rows : List (Nat × Bool) := []
  cols : List (Nat × Bool) := []
  opened : Bool := false
  steps : List (Nat × Bool) := []
  lastMk : BitVec 4 := 0
def Nd.mmx (d : Nd) : MmX :=
  match d.st.x with
  | .mm r c o s m => ⟨r, c, o, s, m⟩
  | _ => {}
def Nd.setMm (d : Nd) (x : MmX) : Nd := d.setX (.mm x.rows x.cols x.opened x.steps x.lastMk)
def Nd.agKey (d : Nd) : Nat := 2 * d.cfg.dune + d.v.bits 8 1
def Nd.ag (d : Nd) : AccGroup := d.rg.ags.get d.agKey {}
def Nd.setAg (d : Nd) (g : AccGroup) : Nd := { d with rg := { d.rg with ags := d.rg.ags.put d.agKey g } }
/-- An index token: its value and whether it is bad (R225). -/
def Nd.idxOf (d : Nd) (i : Nat) (t : Token) : Nat × Bool :=
  (t.val.toNat % 2 ^ fmtWidth (d.fmtOf i), t.psn || t.inv)

/-- The promotions of the group's steps (R225). -/
def Nd.promote (d : Nd) (x : MmX) (ea eb : W64) : Nd :=
  if x.steps.isEmpty then d
  else
    let g := d.ag
    let bad := x.steps.any (fun k => k.2 || teCols ea ≤ k.1 || teCols eb ≤ k.1)
    let rs := (List.range x.rows.length).zip x.rows
    let cs := (List.range x.cols.length).zip x.cols
    let (els, fl) := rs.foldl (fun (m : Assoc Acc × Flags) r => cs.foldl (fun (m : Assoc Acc × Flags) c =>
      let key := 16 * r.1 + c.1
      let t : Term := if bad || r.2.2 || c.2.2 || teRows ea ≤ r.2.1 || teRows eb ≤ c.2.1 then .invalid
        else (d.rg.bankFor none d.s.freeIx).term ea eb r.2.1 c.2.1 x.steps
      let (a, f) := Acc.promote (Assoc.get m.1 key {}) t
      (Assoc.put m.1 key a, m.2 ||| f)) m) (g.elems, 0)
    (d.setAg { g with elems := els }).raise fl

/-- The tile ends (R226). -/
def Nd.endTile (d : Nd) (x : MmX) (a b : TileSlot) : Nd :=
  let d := d.setAg { d.ag with tag := .full }
  let dk : BitVec 4 := 1#4 <<< d.v.bits 16 2
  let empty := fun (d : Nd) (slot : Nat) (t : TileSlot) =>
    { d with rg := d.rg.putTslot d.cfg.dune slot { t with full := false, dc := 0, scur := 0 } }
  let d := if d.v.flag 10 then empty d (d.v.bits 0 4) a else d
  let d := if d.v.flag 11 then empty d (d.v.bits 4 4) b else d
  (d.setMm {}).emit { mks := x.lastMk ||| dk }

/-- The tile starts: both index sets are consumed; indices beyond the tile are surplus (R223, R224). -/
def Nd.startTile (d : Nd) (ra rb : List Token) : Nd :=
  let n := mmTile d.v.fmt
  let idx := fun (i : Nat) (l : List Token) => (l.filter (fun t => !t.bub)).map (d.idxOf i)
  let rows := idx 0 ra
  let cols := idx 1 rb
  let extra := (rows.length - n) + (cols.length - n)
  if 0 < extra && d.blk.lmtrap && !d.st.lmOff then d.trap 7 0 (w64 d.rg.lmc.toNat)
  else
    let d := (ra.foldl (fun d _ => d.pop 0) d)
    let d := (rb.foldl (fun d _ => d.pop 1) d)
    let d := { d with rg := { d.rg with lmc := .ofNat 32 (min (2 ^ 32 - 1) (d.rg.lmc.toNat + extra)), lms := d.rg.lms || 0 < extra } }
    let x : MmX := { rows := rows.take n, cols := cols.take n, opened := true }
    (d.setAg { tag := .active, m := x.rows.length, n := x.cols.length }).setMm x

/-- One step of MM or MMPL: a tile starts, a step is taken, a group is promoted or the tile ends. -/
def Nd.mm (d : Nd) : Option Nd :=
  let x := d.mmx
  let dune := d.cfg.dune
  if d.st.ended then d.surplusOf (d.pairs [0, 1, 2])
  else if !d.room then none
  else match d.rg.tslot dune (d.v.bits 0 4), d.rg.tslot dune (d.v.bits 4 4) with
  | some a, some b =>
    if !x.opened then
      let sa := idxSet (d.v.bits 12 2) (d.slot 0).q
      let sb := idxSet (d.v.bits 14 2) (d.slot 1).q
      let none' := fun (s : Option (List Token × Bool)) =>
        match s with | some (l, true) => l.all (·.bub) | _ => false
      if none' sa || none' sb || (d.head 2).isEnded then
        let eat := fun (d : Nd) (i : Nat) (s : Option (List Token × Bool)) =>
          if none' s then (match s with | some (l, _) => l.foldl (fun d _ => d.pop i) d | none => d) else d
        some (eat (eat d 0 sa) 1 sb).finish
      else match sa, sb with
      | some (ra, _), some (rb, _) =>
        if !a.full || !b.full || d.ag.tag != .empty || (d.head 2).isMissing then none else some (d.startTile ra rb)
      | _, _ => none
    else if !a.full || !b.full || d.ag.tag != .active then none
    else
      let fin := fun (d : Nd) (x : MmX) => (d.promote x a.entry b.entry).endTile x a b
      match d.head 2 with
      | .missing => none
      | .ended => some (fin d x)
      | .tok t =>
        let ends := t.mks.getLsbD (d.v.bits 16 2)
        let d := d.consume [2]
        if t.bub then some (if ends then fin d x else d)
        else
          let x := { x with steps := x.steps ++ [d.idxOf 2 t], lastMk := t.mks }
          if ends then some (fin d x)
          else if x.steps.length < 128 then some (d.setMm x)
          else some ((d.promote x a.entry b.entry).setMm { x with steps := [] })
  | _, _ => none

/-! ### ACC and DRAIN (R228 to R230) -/

def Nd.regAcc (d : Nd) (n : Nat) : Acc := d.rg.accs.toList.getD n {}
/-- One token is promoted into a region accumulator. -/
def accTerm (f : Nat) (t : Token) : Term :=
  if t.psn then .poison
  else
    let v := fmtVal f 0 t.val.toNat
    if t.inv || !v.finite || t.s = 255 then .invalid
    else .add (v.dy.mul ⟨1, (t.s.toNat : Int) - 127⟩)
def Nd.acc (d : Nd) : Option Nd :=
  d.pairStep d.req (fun d ts =>
    let t := ts.getD 0 {}
    let d := d.consume d.req
    if t.bub then some d
    else
      let n := d.v.bits 0 4
      let (a, fl) := (d.regAcc n).promote (accTerm d.v.fmt t)
      some ({ d with rg := { d.rg with accs := d.rg.accs.set! n a } }.raise fl))

/-- The values a drain gives, with their drain status, rows and columns (R229, R51). -/
def Nd.drainAcc (d : Nd) (a : Acc) : Nat × Flags := a.drain d.v.fmt (d.v.bits 5 3) (Mode.ofAmf d.blk.amf.toNat) 0
def Nd.dGroup (d : Nd) : AccGroup := d.rg.ags.get (2 * d.cfg.dune + d.v.bits 1 1) {}
def Nd.setGroupEmpty (d : Nd) : Nd :=
  let k := 2 * d.cfg.dune + d.v.bits 1 1
  { d with rg := { d.rg with ags := d.rg.ags.put k { d.rg.ags.get k {} with tag := .empty } } }
def AccGroup.at (g : AccGroup) (i : Nat) : Acc := g.elems.get (16 * (i / g.n) + i % g.n) {}

/-- The bytes of `l` as sectors of the format: a sector of a 6-bit format holds 64 elements in its first 48
bytes (R33, R34). -/
def recValues (f : Nat) (flat : Bool) (l : List Nat) : List Byte :=
  let b := pack f l
  let pad := fun (n : Nat) (l : List Byte) => l ++ List.replicate ((n - l.length % n) % n) (0 : Byte)
  if fmtWidth f = 6 && flat then
    (List.range ((b.length + 47) / 48)).flatMap (fun i => pad 64 ((b.drop (48 * i)).take 48))
  else pad 64 b
/-- A drain record (R230). -/
def drainRecord (f rmd m n word : Nat) (flat : Bool) (l : List (Nat × Flags)) : List Byte :=
  let att := ((List.range l.length).zip l).foldl (fun s e =>
    if e.2.2 &&& (fPoison ||| fInvalid ||| fOverflow) != 0 then s + 2 ^ (16 * (e.1 / n) + e.1 % n) else s) 0
  leBytes 8 (n * 2 ^ 56 + m * 2 ^ 48 + rmd * 2 ^ 40 + f * 2 ^ 32 + word) ++ leBytes 32 att ++ List.replicate 24 0
    ++ recValues f flat (l.map (·.1))

/-- The dwords of a record that a poisoned value touches (R446). -/
def recBads (f : Nat) (flat : Bool) (l : List (Nat × Flags)) : List Nat :=
  let w := fmtWidth f
  ((List.range l.length).zip l).flatMap (fun (e : Nat × Nat × Flags) =>
    if e.2.2 &&& fPoison = 0 then []
    else
      let (o, k) := if w = 6 && flat then (64 + 64 * (e.1 / 64), e.1 % 64) else (64, e.1)
      [(o + k * w / 8) / 8, (o + ((k + 1) * w - 1) / 8) / 8])

/-- DRAIN in record mode takes an address: the record is formed, and its dwords then perform one by one; its
status reaches ACS with the first of them, so a position that traps before it leaves ACS as it was. -/
def Nd.drainMem (d : Nd) : Option Nd :=
  if d.st.skip then some d.skipped
  else
    d.pairStep d.memReq (fun d ts =>
      let t := ts.getD 0 {}
      let p := d.memPos ts
      let next := fun (d : Nd) (p : MemPos) =>
        some ((d.consume d.memReq).upd (fun st => { st with pend := st.pend ++ [p] })).flushed
      if p.done.isSome || t.bub then next d p
      else if d.v.flag 0 then
        let g := d.dGroup
        if g.tag != .full || !d.st.pend.isEmpty then none
        else
          let l := (List.range (g.m * g.n)).map (fun i => d.drainAcc (g.at i))
          let fl := l.foldl (fun f e => f ||| e.2) 0
          let b := drainRecord d.v.fmt (d.v.bits 5 3) g.m g.n fl.toNat (d.v.flag 9) l
          next d { p with bytes := b, bads := recBads d.v.fmt (d.v.flag 9) l }
      else
        let a := d.regAcc (d.v.bits 1 4)
        let (x, fl) := d.drainAcc a
        let l := [(x, fl)]
        let b := drainRecord d.v.fmt (d.v.bits 5 3) 1 1 (a.wordWith fl) (d.v.flag 9) l
        next d { p with bytes := b, bads := recBads d.v.fmt (d.v.flag 9) l })

/-- DRAIN in token mode: the next value of the tile in progress, or the next trigger. -/
def Nd.drainTok (d : Nd) : Option Nd :=
  match d.st.x with
  | .drain (some t) i =>
    let g := d.dGroup
    if !d.room then none
    else if g.m * g.n ≤ i then some ((d.setGroupEmpty).setX (.drain none 0))
    else
      let (x, fl) := d.drainAcc (g.at i)
      let mk : BitVec 4 := (if (i + 1) % g.n = 0 then 1 else 0) ||| (if i + 1 = g.m * g.n then 2 else 0)
      let d := (d.raise fl).emit { val := w64 x, mks := mk }
      some (if i + 1 = g.m * g.n then (d.setGroupEmpty).setX (.drain none 0) else d.setX (.drain (some t) (i + 1)))
  | _ =>
    d.pairStep d.req (fun d ts =>
      let t := ts.getD 0 {}
      if t.bub then some ((d.consume d.req).emit { mks := t.mks, bub := true })
      else if d.v.flag 0 then
        (if d.dGroup.tag != .full then none else some ((d.consume d.req).setX (.drain (some t) 0)))
      else
        let (x, fl) := d.drainAcc (d.regAcc (d.v.bits 1 4))
        some (((d.consume d.req).raise fl).emit { val := w64 x, mks := 3 }))
def Nd.drain (d : Nd) : Option Nd := if d.v.flag 8 then d.drainMem else d.drainTok

/-! ### Solver nodes (R243 to R245) -/

def svrPtc (x : W64) : Nat := fld x 32 32
/-- SVR after a reason to end: EXP or HALT, and the completed segments (R244). -/
def svrCol (x : W64) (segs : Nat) : W64 := putFld x 0 29 (min segs (2 ^ 29 - 1))

/-- A division of finite and infinite values rounded once, with PIVDIV's overflow (R243). -/
def pivQuot (mode : Nat) (x p : Val) : Nat × Flags :=
  let big := fun (n : Bool) => ((if n then 0xFF7FFFFF else 0x7F7FFFFF : Nat), fOverflow ||| fInexact)
  match x, p with
  | .nan, _ | _, .nan => (nanOr0 0x18, 0)
  | .inf _, .inf _ => (nanOr0 0x18, fInvalid)
  | .inf n, y => convert (.inf (n != y.neg)) 0x18 mode {} 0
  | y, .inf n => convert (.fin (y.neg != n) 0 0) 0x18 mode {} 0
  | .fin n m e, .fin n' m' e' =>
    let neg := n != n'
    if m' = 0 then (if m = 0 then (nanOr0 0x18, fInvalid) else big neg)
    else if m = 0 then convert (.fin neg 0 0) 0x18 mode {} 0
    else
      let (q, k) := quot m m'
      -- a magnitude above 2^128 − 2^104
      if (Dy.mk (2 ^ 24 - 1) 104).lt ⟨q, k + e - e'⟩ then big neg
      else convert (.fin neg q (k + e - e')) 0x18 mode {} 0

def Nd.piv (d : Nd) : Option W32 × Nat :=
  match d.st.x with
  | .piv p n _ => (p, n)
  | _ => (none, 0)
/-- The pivot in use came from data with an uncorrectable error (R183). -/
def Nd.pivPsn (d : Nd) : Bool :=
  match d.st.x with
  | .piv _ _ b => b
  | _ => false
/-- PCOL counts the completed segments (R244). -/
def Nd.pivCount (d : Nd) (segs : Nat) : Nd := { d with rg := { d.rg with svr := svrCol d.rg.svr segs } }
/-- end(reason) of R243: the node holds no pivot any more, and the tokens left are discarded, uncounted. -/
def Nd.pivEnd (d : Nd) (segs : Nat) (set : W64 → W64) : Nd :=
  let d := { d with rg := { d.rg with svr := svrCol (set d.rg.svr) segs } }
  ((d.emit { val := 0x7FC00000, ix := some (.ofNat 32 segs) }).finish).setX .none
/-- EXP of the lead's BUDGET (R149). -/
def Region.leadExp (rg : Region) : Bool := match rg.seqs with | q :: _ => bit q.budget 63 | [] => false

/-- The threshold on slot c: the magnitude of its standing token, else +0. -/
def Nd.pivTh (d : Nd) : Nat :=
  match (d.slot 2).standing with
  | some t => t.val.toNat % 2 ^ 31
  | none => 0
/-- The pivot of a segment is taken (R243). -/
def Nd.pivStart (d : Nd) (segs : Nat) : Option Nd :=
  if d.rg.leadExp then some (d.pivEnd segs (fun x => putFld x 31 1 1))
  else match d.head 1 with
  | .missing => none
  | .ended => some (d.pivEnd segs id)
  | .tok t =>
    let p := if t.psn then nanOr0 0x18 else if t.inv || t.bub then 0 else t.val.toNat % 2 ^ 32
    let v := fmtVal 0x18 0 p
    let th := d.pivTh
    let d := d.pop 1
    if v.abs.lt (fmtVal 0x18 0 th) || v.abs.eq (fmtVal 0x18 0 th) then
      if d.v.bits 0 2 = 0 then some (d.pivEnd segs (fun x => putFld x 30 1 1))
      else
        let s := putFld (putFld d.rg.svr 29 1 1) 32 32 (min (svrPtc d.rg.svr + 1) (2 ^ 32 - 1))
        some ({ d with rg := { d.rg with svr := s } }.setX (.piv (some (.ofNat 32 (p / 2 ^ 31 * 2 ^ 31 + th))) segs))
    else some (d.setX (.piv (some (.ofNat 32 p)) segs t.psn))

def Nd.pivdiv (d : Nd) : Option Nd :=
  let (p, segs) := d.piv
  let segm : BitVec 4 := .ofNat 4 (d.v.bits 6 4)
  if d.st.ended then
    match d.st.x with
    | .none => ([0, 1].find? (fun i => (d.slot i).standing.isNone && (d.head i).tok?.isSome)).map d.pop
    | _ => d.surplusOf (d.pairs [1])
  else if !d.room then none
  else match d.head 0 with
  | .missing => none
  | .ended => some (if p.isSome then d.pivCount (segs + 1) else d).finish
  | .tok t =>
    match p with
    | none => d.pivStart segs
    | some p =>
      let m := Mode.ofAmf d.blk.amf.toNat
      let rm := if d.v.flag 2 then d.v.bits 3 3 else m.rm
      let (u, fl) := propagate 0x18 [{ t with psn := t.psn || d.pivPsn }]
        (fun ts => pivQuot rm (fmtVal 0x18 0 (tval ts 0)) (fmtVal 0x18 0 p.toNat))
      let d' := ((d.consume [0]).raise fl).emit u
      some (if t.mks &&& segm != 0 then (d'.pivCount (segs + 1)).setX (.piv none (segs + 1))
        else d'.setX (.piv (some p) segs d.pivPsn))

/-- |x| of an F32 token for RESID; PSN counts as NaN. -/
def residMag (t : Token) : Nat :=
  let x := if t.psn then nanOr0 0x18 else if t.inv then 0 else t.val.toNat
  if fmtVal 0x18 0 x = .nan then nanOr0 0x18 else x % 2 ^ 31
def residMax (m x : Nat) : Nat :=
  if m = nanOr0 0x18 || x = nanOr0 0x18 then nanOr0 0x18 else max m x

/-- The end of a segment of RESID: its reference is taken, the lead's BEST is updated, the maximum is sent
(R245); `last` at end-of-stream. -/
def Nd.residEnd (d : Nd) (m : Nat) (any : Bool) (mk : BitVec 4) : Option Nd :=
  match d.head 1 with
  | .tok f =>
    let d := d.pop 1
    if !any then some ((d.emit { mks := mk, bub := true }).setX (.resid 0 false))
    else
      let d := { d with rg := { d.rg with seqs := listUpd d.rg.seqs 0 (fun q => (q.tryBest m f.val).1) } }
      some ((d.emit { val := w64 m, mks := mk }).setX (.resid 0 false))
  | _ => none
def Nd.resid (d : Nd) : Option Nd :=
  let segm : BitVec 4 := .ofNat 4 (d.v.bits 0 4)
  let (m, any, opened) : Nat × Bool × Bool := match d.st.x with
    | .resid m a o => (m.toNat, a, o)
    | _ => (0, false, false)
  if d.st.ended then d.surplusOf (d.pairs [1])
  else if !d.room then none
  else match d.head 0 with
  | .missing => none
  | .ended => if any || opened then (if (d.head 1).isEnded then some d.finish else d.residEnd m any 0) else some d.finish
  | .tok t =>
    -- a token with no reference left is surplus (R189)
    if (d.head 1).isEnded then d.surplusOf (d.pairs [0])
    else
    let m' := if t.bub then m else residMax m (residMag t)
    let any' := any || !t.bub
    if t.mks &&& segm = 0 then some ((d.consume [0]).setX (.resid (.ofNat 32 m') any' true))
    else match d.head 1 with
      | .tok _ => (d.consume [0]).residEnd m' any' t.mks
      | _ => none

end Sys2Proof.Machine
end

