-- ==== Sys2Proof/Machine/NodeReady.lean ====
section
/-! DEFINITION. What a node does when its dune grants it a firing, whatever its form, and which node the grant goes to: a node is
ready when a position of it can be taken (07 R186, R187; 16 R387). -/
namespace Sys2Proof.Machine

/-- One position of a node by its opcode, none where it is not ready. -/
def Nd.fire (d : Nd) : Option Nd :=
  let op := d.v.op
  match op with
  | 0x80 => d.ingr
  | 0x81 => d.egr
  | 0x82 => d.const
  | 0x90 => d.cmpNode
  | 0x91 => d.selNode
  | 0x92 => d.cvtNode
  | 0x98 => d.fcmpNode
  | 0x9D => d.unpk3
  | 0x9E => d.bmand
  | 0x9F => d.pfxpop
  | 0xA0 => d.six
  | 0xA1 => d.sun
  | 0xA2 => d.topk
  | 0xA3 | 0xA4 => d.mm
  | 0xA5 => d.acc
  | 0xA6 => d.drain
  | 0xA7 => d.cnt
  | 0xA8 => d.agen
  | 0xA9 => d.join
  | 0xAA => d.split
  | 0xAB => d.merge
  | 0xAC => d.steer
  | 0xAD => d.bartok
  | 0xAF => d.stn
  | 0xB2 => d.reln
  | 0xB5 => d.pivdiv
  | 0xB6 => d.resid
  | 0xB7 => d.shuf
  | 0xB8 => d.fibStream
  | 0xBC => d.finter
  | _ =>
    if 0x83 ≤ op && op ≤ 0x8F then d.intNode
    else if 0x93 ≤ op && op ≤ 0x97 then d.fltNode
    else if 0x99 ≤ op && op ≤ 0x9C then d.specialNode
    else if 0xAE ≤ op && op ≤ 0xB4 then d.begin
    else if isFibreOp op then d.fibNode
    else none

/-- Node `key` of region `r` can fire: it has neither been stopped nor saved, and a position of it can be taken. -/
def State.fires (s : State) (r key : Nat) : Bool :=
  (s.nodeAt r (key / 128) (key % 128)).any (fun d => d.st.stopped.isNone && !d.st.saved && d.fire.isSome)

/-- How far a node stands behind the one that its dune's lanes were granted to last, by index and wrapping (R187). -/
def Region.behind (rg : Region) (dune key : Nat) : Nat :=
  match rg.granted.find dune with
  | none => key
  | some k => (key + 2047 - k) % 2048
/-- Another node of the dune is ready and comes before this one in the dune's round (R187). -/
def State.outranked (s : State) (r : Nat) (rg : Region) (dune key : Nat) : Bool :=
  rg.allNodes.any (fun e => e.2.2.1.dune = dune && e.1 != key && rg.behind dune e.1 < rg.behind dune key && s.fires r e.1)

/-- The words of an installed node. -/
def NodeCfg.instr? (x : NodeCfg) : Option (Nat × Nat × Nat) :=
  match x.words with
  | [a] => some (a.toNat, 0, 0)
  | [a, b] => some (a.toNat, b.toNat, 0)
  | [a, b, c] => some (a.toNat, b.toNat, c.toNat)
  | _ => none

/-- A region's configuration can do nothing with the tokens it holds: no node can fire, and none waits for an access or an
operation of its own. -/
def State.still (s : State) (r : Nat) (rg : Region) : Bool :=
  rg.allNodes.all (fun e => !s.fires r e.1 && (rg.nodes.get e.1 {}).pend.isEmpty)
  && !s.fops.any (fun e => e.2.rid = r)

end Sys2Proof.Machine
end

