-- ==== Sys2Proof/Machine/Stop.lean ====
section
/-! DEFINITION. Stop, which ends all work of a context at once (13 R348, R350; 10 R278; 14 R367; 18 R412), and clone
sets' pages (15 R381). -/
namespace Sys2Proof.Machine

/-- The pages a residency's clone sets borrowed are Free again (R381, R412). -/
def State.freeClones (s : State) (r : Nat) : State :=
  match s.rg? r with
  | none => s
  | some rg =>
    let s := rg.cloneSets.foldl (fun (s : State) (x : Nat × Nat × List (Nat × Nat)) =>
      x.2.2.foldl (fun (s : State) (p : Nat × Nat) => s.freePages p.1 p.2 1) s) s
    s.updRg r (fun rg => { rg with cloneSets := [] })

/-- A residency ends without a save and without a record. -/
def State.stopRegion (s : State) (r : Nat) : State :=
  match s.rg? r with
  | none => s
  | some rg =>
    let s := (s.freeClones r).freeOpers rg
    let s := match rg.place with
      | none => s
      | some (core, first) => s.freePages core first (rg.pm1 + 1)
    let s : State := { s with cores := s.cores.map (fun (e : Nat × Core) =>
      if e.2.erg.owner = some r then (e.1, { e.2 with erg := {} }) else e) }
    s.setRg r { ctx := rg.ctx, st := .retired, pm1 := rg.pm1, member := rg.member, nmem := rg.nmem, gid := rg.gid }

/-- A command that waited for a state the context no longer reaches is answered with STATE (R423). -/
def Sent.refused : Sent → Option Sent
  | .response opc tag _ _ => some (.response opc tag 3 [])
  | _ => none

/-- The completion words of a residency's accepted engine commands, which end with CANCEL (R156, R350); one that has been
stored is not stored again, none is stored while a remote access it is to follow is outstanding, and Erg commands have no record of CANCEL (R282). -/
def Region.cancelled (rg : Region) : List DevStore :=
  rg.eqs.flatMap (fun q => q.entries.filterMap (fun e =>
    match e with
    | .cmd c =>
      let d := if c.link.isSome then c.outer else c.desc
      if c.cwa || c.op = .pref || c.op = .flush || !dCmpl d || !c.sent.isEmpty then none
      else some { who := 8192, ctx := rg.ctx, va := dw d 1, bytes := leBytes 8 c.seq }
    | _ => none))

/-- Stop (R350): the context's residencies, commands, launches and scans end; its queues are Lost, and the host is
told why. -/
def State.stop (s : State) (c : Nat) (st : CtxState) (why : StopWhy) : State :=
  match s.ctx? c with
  | none => s
  | some x =>
    let mine := (s.regions.filter (fun (e : Nat × Region) => e.2.ctx = c)).map (·.1)
    let words := s.regions.flatMap (fun (e : Nat × Region) => if e.2.ctx = c then e.2.cancelled else [])
    let s := s.dropMove mine.contains
    let s := mine.foldl State.stopRegion s
    let s : State := { s with
      groups := s.groups.map (fun (e : Nat × Group) => if e.2.members.any mine.contains then (e.1, { e.2 with st := .retired, req := none }) else e)
      fops := s.fops.filter (fun (e : Nat × FOp) => e.2.ctx != c)
      faults := s.faults.filter (fun (e : Nat × FaultRec) => e.2.ctx != c)
      remotes := s.remotes.filter (fun (e : Nat × Remote) => e.2.ctx != c)
      owed := s.owed.filter (fun x => x.ctx != c)
      contracts := s.contracts.map (fun (e : Nat × Contract) => if e.2.ctx = c then (e.1, { e.2 with acts := [] }) else e)
      queues := s.queues.map (fun (e : Nat × Queue) =>
        if e.2.ctx = c then (e.1, { e.2 with st := .lost, started := [], claimed := false }) else e)
      sent := s.sent ++ (s.queues.filter (fun (e : Nat × Queue) => e.2.ctx = c && e.2.st != .lost)).map (fun e => .queueLost c e.1)
                ++ x.note.filterMap Sent.refused ++ [.ctxStopped c why] }
    words.foldl State.devStore (s.setCtx c { x with st := st, becoming := none, note := [], heldRecs := [] })

/-- An uncorrectable error in a save, a restore or a context's own state: the context is Lost (R348, R392). -/
def State.lose (s : State) (c : Nat) (why : StopWhy) : State :=
  match s.ctx? c with
  | none => s
  | some x => if x.st = .lost || x.st = .destroying then s else s.stop c .lost why

/-- An uncorrectable error lies in an Erg array's planes, tables or wiring, which a save of it meets (R291, R445). -/
def Erg.failed (e : Erg) : Bool := !e.badPlane.isEmpty || !e.badTable.isEmpty || !e.badWire.isEmpty
/-- The error a save or a restore meets in a bank word, or has met in the Erg state, stands in the residency's image and loses
its context (R392, R394, R445). -/
def Region.unsaved (rg : Region) : Bool := rg.imageBad || !rg.bankPoison.isEmpty

end Sys2Proof.Machine
end

