-- ==== Sys2Proof/Machine/Queue.lean ====
section
/-! DEFINITION. Hardware work queues: records at the head, readiness and rank, completion, contracts' activations
(14 R354 to R367). -/
namespace Sys2Proof.Machine

/-! ### The head record (R355 to R358) -/

/-- Dword `i` of a record. -/
def rdw (r : QRec) (i : Nat) : W64 := r.dw.getD i 0
/-- Fields of a launch record (R357). -/
def QRec.cmd (r : QRec) : Nat := fld (rdw r 1) 0 8
def QRec.ord (r : QRec) : Bool := bit (rdw r 1) 9
def QRec.ndep (r : QRec) : Nat := fld (rdw r 1) 10 2
def QRec.depQueue (r : QRec) (i : Nat) : Nat := fld (rdw r 2) (16 * i) 13
def QRec.depSeq (r : QRec) (i : Nat) : W64 := rdw r (3 + i)
def QRec.cra (r : QRec) : W64 := rdw r 7
/-- A record that breaks R357; `more` tells that a record follows it in the appended range of a host-mode queue. -/
def QRec.bad (r : QRec) (host more : Bool) : Bool :=
  fld (rdw r 1) 12 52 != 0 || bit (rdw r 1) 8 || r.ndep = 3 || r.cmd = 0 || 3 < r.cmd
  || fld (rdw r 2) 13 3 != 0 || fld (rdw r 2) 29 35 != 0 || r.cra.toNat % 16 != 0
  || (r.cmd = 3 && (rdw r 5).toNat % 8 != 0)
  || (host && more && (rdw r 0 = 0 || (rdw r 0).toNat % 64 != 0))

/-- A queue stops with BADREC (R358). -/
def State.badRec (s : State) (qn : Nat) (q : Queue) : State :=
  (s.setQueue qn { q with st := .stopped, store := if q.dev then q.store else [] }).send (.queueStopped q.ctx qn)

/-- The head of an Enabled queue is read once; a launch queue's is checked (R357, R358). -/
def State.readHead (s : State) (qn : Nat) (q : Queue) : State :=
  if q.st != .enabled || q.taken = q.issued || (s.ctx? q.ctx).elim true (fun x => x.st != .active || x.becoming.isSome) then s
  else if q.consuming then
    if q.dev || !q.store.isEmpty then s else ((q.readHost s).map (fun x => (s.setQueue qn x).rouseVa q.ctx x.headVa 64)).getD s
  else if q.dev then
    match q.store with
    | [] => s
    | r :: _ => if r.bad false false then s.badRec qn q else s
  else if !q.store.isEmpty then s
  else match q.readHost s with
    | none => s.badRec qn q
    | some q' =>
      if q'.store.any (fun r => r.bad true (q.taken + 1 != q.issued)) then s.badRec qn q
      else (s.setQueue qn q').rouseVa q.ctx q'.headVa 64
def State.readHeads (s : State) : State := s.queues.foldl (fun s (e : Nat × Queue) => s.readHead e.1 ((s.queue? e.1).getD e.2)) s

/-! ### Readiness (R359, R361) -/

/-- The head record as read. -/
def Queue.head (q : Queue) : Option QRec :=
  if q.st != .enabled || q.consuming || q.taken = q.issued then none else q.store.head?

/-- What a dependence names: a queue, or the last one destroyed under the number. Its context, whether its DONE can
rise no more, and DONE (R361, R367). -/
def State.depOn (s : State) (qn : Nat) : Option (Nat × Bool × W64) :=
  match s.queue? qn with
  | some q => some (q.ctx, q.st = .lost, q.done)
  | none => (s.goneQ.find qn).map (fun x => (x.1, true, x.2))
/-- The status that ends a head for a dependence (R361), or none. -/
def State.depStatus (s : State) (c : Nat) (r : QRec) : Option Nat :=
  let ds := (List.range r.ndep).map (fun i => (s.depOn (r.depQueue i), r.depSeq i))
  if ds.any (fun (d : Option (Nat × Bool × W64) × W64) => d.1.elim true (fun x => x.1 != c)) then some 3
  else if ds.any (fun (d : Option (Nat × Bool × W64) × W64) => d.1.elim false (fun x => x.2.1 && !tailReached x.2.2 d.2)) then some 4
  else none
def State.depsMet (s : State) (r : QRec) : Bool :=
  (List.range r.ndep).all (fun i => (s.depOn (r.depQueue i)).elim false (fun x => tailReached x.2.2 (r.depSeq i)))
/-- The sequence number of the head record; numbers go round at 2^64 (R354). -/
def Queue.headNo (q : Queue) : Nat := (q.taken + 1).toNat
/-- The previous record has completed. -/
def Queue.prevDone (q : Queue) : Bool := !q.started.any (fun t => t.seq = q.taken.toNat && !t.reported)

/-- The group that stands at a queue's head: one that has been validated, abandoned or saved (R363, R393, R395). -/
def State.headGroup (s : State) (qn : Nat) : Option (Nat × Group × Nat) :=
  (s.groups.filterMap (fun (e : Nat × Group) =>
    match e.2.from_ with
    | some (q, n) => if q = qn && (e.2.st = .pending || e.2.st = .saved) then some (e.1, e.2, n) else none
    | none => none)).foldl (fun (b : Option (Nat × Group × Nat)) (x : Nat × Group × Nat) =>
      match b with
      | none => some x
      | some y => if tailReached (w64 x.2.2) (w64 y.2.2) then b else some x) none

/-- What stands at the head of a ready queue (R362). -/
inductive Ready where
  /-- a record whose start, or end, does not need pages -/
  | record (r : QRec)
  /-- a group to be placed, with its number -/
  | group (gid : Nat) (g : Group)

/-- The ready head of a queue (R359, R362). -/
def State.ready (s : State) (qn : Nat) (q : Queue) : Option Ready :=
  if (s.ctx? q.ctx).elim true (fun x => x.st != .active || x.becoming.isSome) || q.st = .lost then none
  else match s.headGroup qn with
    | some (gid, g, n) =>
      -- a validated record that has not left the head starts only while its queue is Enabled (R367)
      if n = q.headNo && q.st != .enabled then none else some (.group gid g)
    | none =>
      match q.head with
      | none => none
      | some r =>
        if (s.depStatus q.ctx r).isSome || (s.depsMet r && (!r.ord || q.prevDone)) then some (.record r) else none

/-! ### Rank (R362, R364) -/

/-- The sequence number of what stands at the head. -/
def State.headSeq (s : State) (qn : Nat) (q : Queue) : Nat :=
  match s.headGroup qn with
  | some (_, _, n) => n
  | none => q.headNo
def State.headSkip (s : State) (qn : Nat) (q : Queue) : Nat :=
  match s.headGroup qn with
  | some (_, g, n) => if n = q.headNo then q.skip else g.skip
  | none => q.skip
/-- Effective priority. -/
def ep (prio skip : Nat) : Nat := prio - skip / 64

/-- A ready queue with what decides its rank: arrival of its activation when it ranks as a contract's, effective
priority, distance from the queue last started at that priority, and number. -/
structure Rank where
  q : Nat
  what : Ready
  act : Option Nat
  ep : Nat
  dist : Nat
def State.rankOf (s : State) (qn : Nat) (q : Queue) (x : Ready) : Rank :=
  let e := ep q.prio (s.headSkip qn q)
  let act := match s.activation qn q (s.headSeq qn q) with
    | some (_, _, a) => if a.exh then none else some a.order
    | none => none
  { q := qn, what := x, act := act, ep := e, dist := (qn + 8192 - s.lastStart.getD e 0 - 1) % 8192 }
def Rank.before (a b : Rank) : Bool :=
  match a.act, b.act with
  | some x, some y => x < y || (x = y && a.q < b.q)
  | some _, none => true
  | none, some _ => false
  | none, none => a.ep < b.ep || (a.ep = b.ep && a.dist < b.dist)
def insertRank (x : Rank) : List Rank → List Rank
  | [] => [x]
  | y :: t => if x.before y then x :: y :: t else y :: insertRank x t
/-- The ready queues in the order of R362. -/
def State.ranking (s : State) : List Rank :=
  (s.queues.filterMap (fun (e : Nat × Queue) => (s.ready e.1 e.2).map (s.rankOf e.1 e.2))).foldl (fun l x => insertRank x l) []

/-! ### Placement of a group (R374, R414, R415) -/

/-- The places of a group's members one after another, none where one does not fit. `closed` are dies no command
ranked below a claim may take (R363). -/
def State.placeAll (s : State) (aff : Nat) (set : Nat → Bool) (ctr : Bool) (fresh : Bool) : List Nat → Option State
  | [] => some s
  | r :: rest =>
    match s.rg? r with
    | none => none
    | some rg =>
      if rg.st = .retired then s.placeAll aff set ctr fresh rest
      else
        let reserved := match s.move with
          | some (m, d) => if m = r then some (d / 12, d % 12) else none
          | none => none
        match (match reserved with
          | some p => if rg.erg && (s.core p.1).erg.st != .free then none else some p
          | none => s.bestRun (s.coresFor aff rg.erg set) (rg.pm1 + 1)) with
        | none => none
        | some (core, first) =>
          let s := if reserved.isSome then { s with move := none } else s
          ((s.takePlace r core first ctr fresh).updRg r (fun rg => { rg with st := if fresh then .loading else .restoring })).placeAll aff set ctr fresh rest

/-- Pages and save slots a group's live members need beyond what the context holds (R343, R346). -/
def State.groupFits (s : State) (g : Group) (fresh : Bool) : Bool :=
  match s.groupCtx g with
  | none => false
  | some c =>
    match s.ctx? c with
    | none => false
    | some x =>
      let live := (g.members.filterMap s.rg?).filter (fun rg => rg.st != .retired)
      let held := match s.move with
        | some (m, _) => if g.members.contains m then (s.rg? m).elim 0 (fun rg => rg.pm1 + 1) else 0
        | none => 0
      s.pagesOf c - held + (live.map (fun rg => rg.pm1 + 1)).sum ≤ x.pageq && (!fresh || s.slotsOf c + live.length ≤ x.slots)

/-- Whether a member's image still awaits a remote completion (R390). -/
def State.awaits (s : State) (r : Nat) : Bool :=
  s.remotes.any (fun (e : Nat × Remote) => e.2.rid = r && e.2.ctx = ((s.rg? r).elim e.2.ctx (·.ctx)) && e.2.result.isNone && !e.2.failed
    && e.2.kind != .dev)

/-- Where a group may be placed: as the record that launched it, or its task tree, says. -/
def State.groupBounds (s : State) (g : Group) : Bounds := s.boundsOf ((g.members.filterMap s.rg?).head?.bind (s.launchOf 64))
/-- The first live member of a group that finds no run once the members before it have been placed, and the state with
those placed. -/
def State.unplaced (s : State) (aff : Nat) (set : Nat → Bool) : List Nat → Option (Region × State)
  | [] => none
  | r :: rest =>
    match s.rg? r with
    | none => none
    | some rg =>
      if rg.st = .retired then s.unplaced aff set rest
      else match s.bestRun (s.coresFor aff rg.erg set) (rg.pm1 + 1) with
        | none => some (rg, s)
        | some (core, first) => (s.takePlace r core first true true).unplaced aff set rest

/-- A group placed, with its state: Loading a first time, Restoring when Saved. -/
def State.placeGroup (s : State) (gid : Nat) (g : Group) (dies : Nat) : Option State :=
  let fresh := g.st = .pending
  let w := s.groupBounds g
  if !s.groupFits g fresh || (!fresh && g.members.any s.awaits) then none
  else (s.placeAll (w.aff &&& dies) w.set w.ctr fresh g.members).map (fun s =>
    { s with groups := s.groups.put gid { g with st := if fresh then .loading else .restoring } })

/-- The first ready queue, where it is a group that cannot be placed: it holds the claim (R363). -/
def State.claim (s : State) : Option Rank :=
  match s.ranking with
  | [] => none
  | x :: _ =>
    match x.what with
    | .group gid g => if (s.placeGroup gid g 15).isNone then some x else none
    | .record _ => none
/-- Dies open to a queue: those of a claim that ranks above it are closed, but not to an activation. -/
def State.openDies (s : State) (x : Rank) : Nat :=
  match s.claim with
  | none => 15
  | some y => if x.q = y.q || x.act.isSome then 15 else 15 - (s.queue? y.q).elim 0 Queue.aff

/-- The first of the ranked heads that can start now. -/
def State.firstStart (s : State) : Option (Rank × Option State) :=
  (s.ranking.filterMap (fun (x : Rank) =>
    match x.what with
    | .record _ => some (x, none)
    | .group gid g => (s.placeGroup gid g (s.openDies x)).map (fun t => (x, some t)))).head?

/-- A queue starts: the ready queues not chosen age, the chosen one's own SKIP becomes 0 where it starts a record (R362),
and a claim that no longer ranks first has ended
(R363). -/
def State.age (s : State) (chosen : Rank) : State :=
  let s0 := s
  let up := fun (n : Nat) => min 448 (n + 1)
  let bump := fun (s : State) (x : Rank) =>
    if x.q = chosen.q then s
    else match x.what with
      | .group gid _ =>
        match s0.headGroup x.q, s0.queue? x.q with
        | some (_, _, n), some q =>
          if n = q.headNo then { s with queues := s.queues.upd x.q (fun q => { q with skip := up q.skip }) }
          else { s with groups := s.groups.upd gid (fun g => { g with skip := up g.skip }) }
        | _, _ => s
      | .record _ => { s with queues := s.queues.upd x.q (fun q => { q with skip := up q.skip }) }
  let s := s.ranking.foldl bump s
  { s with
    lastStart := listUpd s.lastStart chosen.ep (fun _ => chosen.q)
    queues := s.queues.map (fun (e : Nat × Queue) => (e.1, { e.2 with
      skip := if e.1 = chosen.q && s0.headSeq e.1 e.2 = e.2.headNo then 0 else e.2.skip
      claimed := e.2.claimed && (s0.claim.elim false (fun y => y.q = e.1)) })) }

/-! ### A contract's pages (R364, R384, R415) -/

def Contract.pages (k : Contract) : Nat := fld (dw k.desc 0) 0 4
/-- The groups with a member on pages `first` to `first + n − 1` of a core. -/
def State.groupsOn (s : State) (core first n : Nat) : List (Nat × Group) :=
  s.groups.filter (fun (g : Nat × Group) => g.2.members.any (fun m =>
    match s.rg? m with
    | some rg => rg.place.isSome && rg.core = core && rg.first < first + n && first ≤ rg.first + rg.pm1
    | none => false))
def State.groupPages (s : State) (g : Group) : Nat :=
  ((g.members.filterMap s.rg?).map (fun rg => if rg.place.isSome then rg.pm1 + 1 else 0)).sum
/-- The run of `n` pages whose release pre-empts the fewest pages; a page of a contract's residency, or one that no
group can give up, is never chosen (R415). -/
def State.cheapestRun (s : State) (core n : Nat) : Option Nat :=
  let ok := fun (first : Nat) => (List.range n).all (fun i =>
    let p := s.page core (first + i)
    !p.ctr && (p.st = .free || p.st = .spare || (p.rid.bind s.rg?).elim false (fun rg => rg.owns core (first + i))))
  (((List.range 12).filter (fun f => f + n ≤ 12 && ok f)).foldl (fun (b : Option (Nat × Nat)) f =>
    let cost := ((s.groupsOn core f n).map (fun (g : Nat × Group) => s.groupPages g.2)).sum
    match b with
    | none => some (f, cost)
    | some (_, c) => if cost < c then some (f, cost) else b) none).map (·.1)
/-- The runs of `p` pages that an activation makes room on, one on each core of its set with no such run Free (R384, R415). -/
def State.contractRuns (s : State) (k : Contract) (p : Nat) : List (Nat × Nat × Nat) :=
  k.cores.filterMap (fun core =>
    if (freeRuns (s.core core).pages).any (fun r => p ≤ r.2) then none
    else (s.cheapestRun core p).map (fun f => (core, f, p)))
/-- The groups on such runs are asked to give them up. -/
def State.makeRoom (s : State) (l : List (Nat × Nat × Nat)) : State :=
  l.foldl (fun (s : State) (e : Nat × Nat × Nat) =>
    let gs := (s.groupsOn e.1 e.2.1 e.2.2).map (·.1)
    { s with groups := s.groups.map (fun (g : Nat × Group) => if gs.contains g.1 then (g.1, g.2.ask .contract) else g) }) s
/-- The runs that the ranked activations whose groups cannot be placed make room on, for the member that finds none once
those before it have been placed. -/
def State.pressRuns (s : State) : List (Nat × Nat × Nat) :=
  s.ranking.flatMap (fun (x : Rank) =>
    match x.act, x.what, s.queue? x.q with
    | some _, .group gid g, some q =>
      if (s.placeGroup gid g 15).isSome then []
      else match s.activation x.q q (s.headSeq x.q q), s.unplaced (s.groupBounds g).aff (s.groupBounds g).set g.members with
        | some (_, k, _), some (rg, t) => t.contractRuns k (rg.pm1 + 1)
        | _, _ => []
    | _, _, _ => [])

/-! ### Starting and completing (R359, R361) -/

/-- The head record leaves the head. -/
def State.leaveHead (s : State) (qn : Nat) (t : Started) : State :=
  match s.queue? qn with
  | none => s
  | some q =>
    s.setQueue qn { q.pass with started := q.started ++ [t] }

/-- A context has pages for a whole group at most PAGEQ (R346). -/
def Ctx.mayHold (x : Ctx) (n : Nat) : Bool := n ≤ x.pageq

/-- The kernel descriptor and its members' residencies, each validated in order (R368, R373): a refusal names the
member. -/
def validateMembers (s : State) (c : Nat) (arg : W64) (nmem gid : Nat) : List (Nat × Nat) → Except (Nat × Nat × Nat) (List Region)
  | [] => .ok []
  | (m, a) :: rest =>
    match readResidency (devRead s c) (w64 a) with
    | .error (code, i) => .error (m, code, i)
    | .ok d =>
      let rg := (({ ctx := c, member := m, nmem := nmem, gid := some gid, arg := arg } : Region).ofDesc d)
      match loadImage (devRead s c) rg with
      | .error (code, i) => .error (m, code, i)
      | .ok _ =>
        match validateMembers s c arg nmem gid rest with
        | .error e => .error e
        | .ok l => .ok (rg :: l)
def validateKernel (s : State) (c gid : Nat) (kd arg : W64) : Except (Nat × Nat × Nat) (List Region) :=
  if kd.toNat % 8 != 0 then .error (0, 16, 0)
  else match ldRead (devRead s c) kd 8 with
    | .error _ => .error (0, 20, 0)
    | .ok h =>
      if h / 2 ^ 32 != 0 || h / 16 % 4096 != 0 then .error (0, 16, 0)
      else
        let n := h % 16 + 1
        match (ldReads (devRead s c) 8 (kd + 8) n).result with
        | .error (code, i) => .error (0, code, i)
        | .ok l => validateMembers s c arg n gid ((List.range n).zip l)

/-- The last n, modulo 2^64, for which every record up to n has completed (R354). -/
def prefixDone (d : W64) : Nat → List Started → W64
  | 0, _ => d
  | k + 1, l => if l.any (fun x => x.seq = (d + 1).toNat && x.reported) then prefixDone (d + 1) k l else d

/-- A command has completed: DONE rises over the completed prefix and is stored, and an activation whose last command has
completed has ended (R361, R364). -/
def State.reportDone (s : State) (qn : Nat) (q : Queue) (seq : Nat) : State :=
  let l := q.started.map (fun x => if x.seq = seq then { x with reported := true } else x)
  let d := prefixDone q.done l.length l
  let s := s.setQueue qn { q with done := d, started := l.filter (fun x => !tailReached d (w64 x.seq)) }
  let s : State := { s with contracts := s.contracts.map (fun (e : Nat × Contract) => (e.1, { e.2 with
    acts := e.2.acts.filter (fun a => !(a.queue = qn && tailReached d a.last)) })) }
  if d = q.done then s else s.storeDone qn

/-- What a finished record's next stage does: 0 a WRITE's own store, 1 dword 1 of the completion record, 2 dword 0, 3
nothing that is stored. -/
def Started.todo (t : Started) : Nat :=
  let n := if t.stage = 0 && !(t.status = 0 && t.rec_.cmd = 3) then 1 else t.stage
  if n != 0 && t.rec_.cra = 0 then 3 else n
/-- What a record that has stored nothing itself does as it ends waits for no store before it: it is no release, or it is
nothing that is stored (R359, R361). -/
def Started.atOnce (t : Started) : Bool := t.stage = 0 && (t.todo = 1 || t.todo = 3)
/-- Dword 1 of a completion record (R361). -/
def State.doneWord (s : State) (qn : Nat) (q : Queue) (t : Started) : W64 :=
  let (exh, miss) := match s.activation qn q t.seq with
    | some (_, _, a) => (a.exh, a.miss)
    | none => (false, false)
  w64 (t.index * 2 ^ 32 + t.code * 2 ^ 24 + (if miss then 2 ^ 9 else 0) + (if exh then 2 ^ 8 else 0) + t.status)
/-- The records a finished command's group has made have not all performed (R360). -/
def State.groupBusy (s : State) (t : Started) : Bool :=
  (t.gid.bind s.groups.find).elim false (fun g => g.members.any (fun r => s.devBusy (8192 + r)))
/-- The next stage of completing a finished command (R359, R361): a WRITE stores, dword 1 of the completion record is
written, then dword 0, and then the command has completed. Dword 0 and the WRITE are releases at SYS scope: what was stored
before them for the queue has performed (R333). -/
def State.recStage (s : State) (qn seq : Nat) : State :=
  match s.queue? qn with
  | none => s
  | some q =>
    match q.started.find? (fun t => t.seq = seq) with
    | none => s
    | some t =>
      if !t.finished || t.reported || q.st = .lost || (!t.atOnce && s.devBusy qn) || s.groupBusy t then s
      else
        let put := fun (va x : W64) =>
          (s.setQueue qn { q with started := q.started.map (fun x => if x.seq = seq then { x with stage := t.todo + 1 } else x) }).devStore
            { who := qn, ctx := q.ctx, va := va, bytes := leBytes 8 x.toNat }
        match t.todo with
        | 0 => put (rdw t.rec_ 5) (rdw t.rec_ 6)
        | 1 => put (t.rec_.cra + 8) (s.doneWord qn q t)
        | 2 => put t.rec_.cra (w64 t.seq)
        | _ => s.reportDone qn q seq
/-- A record that leaves the head finished completes at once, as far as its stores perform at once (R359, R361). -/
def State.endHead (s : State) (qn : Nat) (t : Started) : State :=
  (((s.leaveHead qn t).recStage qn t.seq).recStage qn t.seq).recStage qn t.seq

/-- A LAUNCH is validated at its head (R373): it ends there with a status, or a Pending group stands at the head
(R394). -/
def State.launch (s : State) (qn : Nat) (q : Queue) (r : QRec) : State :=
  let n := q.headNo
  let gid := s.nextId
  let t : Started := { seq := n, rec_ := r, gid := none, finished := true }
  match validateKernel s q.ctx gid (rdw r 5) (rdw r 6) with
  | .error (m, code, i) => s.endHead qn { t with status := 1, code := code, index := 2 ^ 24 * m + i }
  | .ok l =>
    if !(s.ctx? q.ctx).elim false (fun x => x.mayHold (l.map (fun rg => rg.pm1 + 1)).sum) then s.endHead qn { t with status := 2 }
    else
      let ids := (List.range l.length).map (fun i => gid + 1 + i)
      let s : State := { s with nextId := gid + 1 + l.length }
      let s := (ids.zip l).foldl (fun (s : State) (e : Nat × Region) =>
        s.setRg e.1 { e.2 with task := { tid := s.freshTid q.ctx } }) s
      { s with groups := s.groups.put gid { members := ids, from_ := some (qn, n), since := s.freeIx } }

/-- A command that starts does its work (R359). -/
def State.startRecord (s : State) (qn : Nat) (q : Queue) (r : QRec) : State :=
  let t : Started := { seq := q.headNo, rec_ := r, finished := true }
  match s.depStatus q.ctx r with
  | some st => s.endHead qn { t with status := st }
  | none =>
    match r.cmd with
    | 1 => s.launch qn q r
    | 3 => (s.leaveHead qn t).recStage qn t.seq
    | _ => s.endHead qn t

/-- A group is admitted or placed again: its record leaves the head where it still stands there. -/
def State.startGroup (s : State) (x : Rank) (gid : Nat) (t : State) : State :=
  match s.groups.find gid, s.queue? x.q with
  | some g, some q =>
    match g.from_ with
    | some (_, n) =>
      if n = q.headNo then
        match q.head with
        | some r => t.leaveHead x.q { seq := n, rec_ := r, gid := some gid }
        | none => t
      else t
    | none => t
  | _, _ => s

/-- DISPATCH_DECISION (R362): heads are read; the first ready head that can start does, if it is a record: a LAUNCH is
validated at the head, where its group then stands until it is admitted (R363). -/
def execDispatchDecision (s : State) : Out :=
  let s := s.readHeads
  let s := s.makeRoom s.pressRuns
  match s.firstStart with
  | some (x, none) =>
    match x.what, s.queue? x.q with
    | .record r, some q =>
      let t := s.startRecord x.q q r
      let starts := (t.queue? x.q).elim false (fun q' => q'.taken != q.taken)
      .next (if starts then (s.age x).startRecord x.q (((s.age x).queue? x.q).getD q) r else t)
    | _, _ => .next s
  | _ => .next s

/-- GROUP_ADMIT (R374): the group that stands first among the ready heads that can start is admitted, and its load
begins. -/
def execGroupAdmit (gid : Nat) (s : State) : Out :=
  let s := s.readHeads
  match s.firstStart with
  | some (x, some _) =>
    match x.what with
    | .group g gr =>
      if g != gid || gr.st != .pending then .next s
      else
        -- the group keeps the SKIP it had, for when it stands at its queue's head again (R393, R395)
        let a := s.age x
        match a.placeGroup gid { gr with skip := (s.queue? x.q).elim 0 (s.headSkip x.q) } (s.openDies x) with
        | some t => .next (a.startGroup x gid t)
        | none => .next s
    | .record _ => .next s
  | _ => .next s

/-- QUEUE_COMMAND_COMPLETE (R361): a finished command of a queue that is not Lost takes the next stage of its
completion. -/
def execQueueCommandComplete (qn seq : Nat) (s : State) : Out := .next (s.recStage qn seq)

end Sys2Proof.Machine
end

