-- ==== Sys2Proof/Machine/Nimale.lean ====
section
/-! DEFINITION. Nimale messages: the header, the checks made before a command, and responses (19 R418, R421 to R425;
21 R448, R452). -/
namespace Sys2Proof.Machine

/-! ### Status codes (R425) -/

def stOK : Nat := 0
def stBADDESC : Nat := 1
def stNORES : Nat := 2
def stSTATE : Nat := 3
def stINUSE : Nat := 4
def stQUOTA : Nat := 5
def stADMIT : Nat := 6
def stGEN : Nat := 7
def stAUTH : Nat := 8
def stBADCMD : Nat := 9
def stLOST : Nat := 10
def stXLATE : Nat := 11
def stEMPTY : Nat := 12

/-! ### Header (R423) -/

def msgOpc (m : Msg) : Nat := fld m.hdr 48 8
def msgCtx (m : Msg) : Nat := fld m.hdr 16 10
def msgPlen (m : Msg) : Nat := fld m.hdr 0 16
/-- Dword `i` of the payload. -/
def msgDw (m : Msg) (i : Nat) : W64 := m.payload.getD i 0
/-- Reserved bits set, a STATUS that is not 0, or a PLEN that is not the payload's length. -/
def msgBad (m : Msg) : Bool :=
  fld m.hdr 56 8 != 0 || fld m.hdr 40 8 != 0 || fld m.hdr 32 8 != 0 || fld m.hdr 26 6 != 0
  || msgPlen m != 8 * m.payload.length || 4080 < msgPlen m
/-- The opcodes of R424. -/
def nimaleOpcs : List Nat :=
  [0x01, 0x02, 0x10, 0x11, 0x12, 0x13, 0x14, 0x15, 0x16, 0x17, 0x20, 0x21, 0x22, 0x23, 0x24, 0x25, 0x26, 0x27,
   0x30, 0x31, 0x38, 0x39, 0x40, 0x41, 0x48, 0x50, 0x51, 0x52]
/-- Context, queue, contract and pool commands (R452). -/
def isTenantOp (op : Nat) : Bool := 0x10 ≤ op && op < 0x40
/-- Tenant commands are accepted in this lifecycle state (R452). -/
def Lifecycle.open (l : Lifecycle) : Bool := l = .deployed || l = .debugUnlocked

/-- The one response to a message (R423). -/
def response (m : Msg) (st : Nat) (res : List W64) : Sent := .response (msgOpc m) m.tag st res
def State.reply (s : State) (m : Msg) (st : Nat) (res : List W64) : State := s.send (response m st res)
def State.ok (s : State) (m : Msg) : State := s.reply m stOK []
/-- A refused access or window command is counted (R422). -/
def State.countRefused (s : State) : State := { s with tele := { s.tele with refused := s.tele.refused + 1 } }

/-- A message of a reserved opcode, whatever event brings it, receives BADCMD, in Decommissioned STATE (R452); a message of another command is not this
event's. -/
def State.otherOp (s : State) (m : Msg) : State :=
  if nimaleOpcs.contains (msgOpc m) then s
  else s.reply m (if s.sec.life = .decommissioned then stSTATE else stBADCMD) []

/-- The status that refuses a management command which names no context (R423, R425, R452), 0 for none. -/
def devGate (s : State) (m : Msg) (op : Nat) (fits : Bool) : Nat :=
  if msgBad m || !fits || m.at_ != .management || fld m.hdr 16 16 != 0 then stBADCMD
  else if s.sec.life = .decommissioned && op != 0x01 then stSTATE
  else if m.session != .management && op != 0x01 then stAUTH
  else if isTenantOp op && !s.sec.life.open then stSTATE
  else stOK

/-- A management command that names no context. Before Falim runs only the boot endpoint is open (R448). -/
def devCmd (op : Nat) (fits : Msg → Bool) (m : Msg) (s : State) (k : State → State) : Out :=
  if s.sec.boot != .running then .next s
  else if msgOpc m != op then .next (s.otherOp m)
  else match devGate s m op (fits m) with
    | 0 => .next (k s)
    | st => .next (s.reply m st [])

/-- Where a command belongs: the management endpoint or its context's queue window (R424). -/
def msgAt (m : Msg) (win : Bool) : Bool := if win then m.at_ = .window (msgCtx m) else m.at_ = .management
/-- The session a command requires (R425). -/
def msgAuth (m : Msg) (win : Bool) : Bool :=
  if win then m.session = .tenant (msgCtx m) (.ofNat 16 (fld (msgDw m 0) 0 16)) else m.session = .management

/-- The status that refuses a command which names a context (R422 to R425, R452), 0 for none. `lost` tells that the
command is for a Lost context to judge. -/
def ctxGate (s : State) (m : Msg) (op : Nat) (win lost fits : Bool) : Nat :=
  if msgBad m || !fits || !msgAt m win || fld (msgDw m 0) 16 48 != 0 then stBADCMD
  else if s.sec.life = .decommissioned then stSTATE
  else if !msgAuth m win then stAUTH
  else if isTenantOp op && !s.sec.life.open then stSTATE
  else if op = 0x11 && s.sec.life = .debugUnlocked then stAUTH
  else match s.ctx? (msgCtx m) with
    | none => stSTATE
    | some x =>
      if x.st = .destroying then stSTATE
      else if x.gen.toNat != fld (msgDw m 0) 0 16 then stGEN
      else if x.st = .lost && !lost then stLOST
      else stOK

/-- A command that names a context by number and generation. -/
def ctxCmd (op : Nat) (win lost : Bool) (fits : Msg → Bool) (m : Msg) (s : State) (k : State → Nat → Ctx → State) : Out :=
  if s.sec.boot != .running then .next s
  else if msgOpc m != op then .next (s.otherOp m)
  else match ctxGate s m op win lost (fits m), s.ctx? (msgCtx m) with
    | 0, some x => .next (k s (msgCtx m) x)
    | st, _ =>
      let s := if win && (st = stSTATE || st = stGEN || st = stLOST) then s.countRefused else s
      .next (s.reply m st [])

/-- Bytes of the device's reserved memory in use (R341, R353): the save areas and fibre storage of the contexts, and the
record stores of queues in device mode. -/
def State.reserved (s : State) : Nat :=
  (s.ctxs.map (fun (e : Nat × Ctx) => fld (e.2.desc.getD 0 0) 19 8 * 2 ^ 23 + fld (e.2.desc.getD 7 0) 0 16 * 2 ^ 20)).sum
  + (s.queues.map (fun (e : Nat × Queue) => if bit (e.2.desc.getD 0 0) 8 then 64 * fld (e.2.desc.getD 0 0) 16 16 else 0)).sum
/-- Whether it can hold `n` bytes more. -/
def State.reservable (s : State) (n : Nat) : Bool := s.reserved + n ≤ Config.reservedBytes

/-- A payload of `n` dwords. -/
def dwords (n : Nat) (m : Msg) : Bool := m.payload.length = n

end Sys2Proof.Machine
end

