-- ==== Sys2Proof/Machine/Link.lean ====
section
/-! DEFINITION. The ports (19 R424, R426, R427). An event that its rule does not enable changes nothing (00 R10). -/
namespace Sys2Proof.Machine

def LinkSt.code : LinkSt → Nat
  | .down => 0 | .training => 1 | .up => 2 | .degraded => 3 | .isolated => 4
/-- A port carries traffic (R427). -/
def Port.carries (p : Port) : Bool := p.st = .up || p.st = .degraded
/-- The port trains; no lane is trained, and what was unacknowledged goes by other ports. -/
def Port.train (p : Port) (tries : Nat) : Port := { p with st := .training, lanes := 0, tries := min 255 tries, timer := false, low := false }
/-- A port is isolated: it trains no lane and waits for no timer; the losses of its last millisecond can still be read (R426). -/
def Port.isolate (p : Port) : Port := { p with st := .isolated, lanes := 0, timer := false, low := false }
/-- A port whose millisecond of losses may be over, a free choice. -/
def Port.aged (p : Port) (past : Bool) : Port := if past then { p with ferr := 0, llrr := 0 } else p
/-- A port changes, where it exists. -/
def State.setPort (s : State) (n : Nat) (p : Port) : State := { s with ports := listUpd s.ports n (fun _ => p) }

/-- The link status word of a port (R426), with these counts of replays and lost frames. -/
def Port.word (p : Port) (ll fe : Nat) : W64 :=
  w64 (min ll 65535 * 2 ^ 48 + min fe 65535 * 2 ^ 32 + p.lanes % 256 * 2 ^ 16 + p.tries % 256 * 2 ^ 8 + p.st.code)
/-- The link status word as LINK_STAT reads it. Losses and replays counted earlier may already lie more than a millisecond back. -/
def State.linkWord (s : State) (p : Port) : W64 :=
  let ll := if Config.choice (s.freeIx * 65536) then p.llrr else Config.pick (s.freeIx * 65536) % (p.llrr + 1)
  let fe := if Config.choice (s.freeIx * 65536 + 1) then p.ferr else Config.pick (s.freeIx * 65536 + 1) % (p.ferr + 1)
  p.word ll fe

/-- A LINK command on a port: its number is the only dword. -/
def portCmd (op : Nat) (m : Msg) (s : State) (k : State → Nat → Port → State) : Out :=
  devCmd op (dwords 1) m s (fun s =>
    match s.ports[(msgDw m 0).toNat]? with
    | none => s.reply m stBADDESC []
    | some p => k s (msgDw m 0).toNat p)

/-- LINK_STAT. -/
def execLinkStat (m : Msg) (s : State) : Out := portCmd 0x50 m s (fun s _ p => s.reply m stOK [s.linkWord p])
/-- LINK_ISOLATE (R427). -/
def execLinkIsolate (m : Msg) (s : State) : Out :=
  portCmd 0x51 m s (fun s n p =>
    if p.st = .isolated then s.reply m stSTATE [] else (s.setPort n p.isolate).ok m)
/-- LINK_RESTORE (R427). -/
def execLinkRestore (m : Msg) (s : State) : Out :=
  portCmd 0x52 m s (fun s n p => if p.st != .isolated then s.reply m stSTATE []
    else (s.setPort n ((p.aged (Config.choice (s.freeIx * 65536))).train 1)).ok m)

/-- A device event on a port: none where the row does not apply. -/
def portEvent (n : Nat) (s : State) (f : Port → Option Port) : Out :=
  match s.ports[n]? with
  | none => .next s
  | some p =>
    match f p with
    | none => .next s
    | some q => .next (s.setPort n q)

/-- LINK_ENABLE: Falim, which runs, enables a Down port at boot. -/
def execLinkEnable (port : Nat) (s : State) : Out :=
  if s.sec.boot != .running then .next s
  else portEvent port s (fun p => if p.st = .down && !p.timer then some (p.train (p.tries + 1)) else none)
/-- LINK_RETRY_TIMER: the 100 ms of a Down port have passed. -/
def execLinkRetryTimer (port : Nat) (s : State) : Out :=
  portEvent port s (fun p => if p.st = .down && p.timer then some (p.train (p.tries + 1)) else none)
/-- LINK_TRAINING_END. -/
def execLinkTrainingEnd (port lanes : Nat) (s : State) : Out :=
  portEvent port s (fun p =>
    if p.st != .training || 8 < lanes then none
    else if lanes = 8 then some { p with st := .up, lanes := 8, tries := 0 }
    else if 4 ≤ lanes then some { p with st := .degraded, lanes := lanes }
    else if p.tries < 3 then some (p.train (p.tries + 1))
    else some { p with st := .down, timer := true })
/-- LINK_LANE_FAIL: `lanes` remain. -/
def execLinkLaneFail (port lanes : Nat) (s : State) : Out :=
  portEvent port s (fun p =>
    if !p.carries || p.lanes ≤ lanes then none
    else if p.st = .up && 4 ≤ lanes then some { p with st := .degraded, lanes := lanes }
    else some (p.train p.tries))
/-- LINK_FERR_ISOLATE: more than 16 frames lost in one millisecond. -/
def execLinkFerrIsolate (port : Nat) (s : State) : Out :=
  portEvent port s (fun p =>
    if p.st = .isolated || p.ferr ≤ 16 then none else some p.isolate)
/-- LINK_LEVEL_RETRY (R426): a frame is replayed, or lost after retry. The counts are those of a millisecond: where it has
passed, which is a free choice, they begin anew. -/
def execLinkLevelRetry (port : Nat) (lost : Bool) (s : State) : Out :=
  portEvent port s (fun p =>
    let p := p.aged (Config.choice (s.freeIx * 65536))
    if !p.carries then none
    else if lost then some { p with ferr := min 65535 (p.ferr + 1) } else some { p with llrr := min 65535 (p.llrr + 1) })
/-- LINK_EQUALISATION (R427, R457): runs within Up and Degraded and changes no state. -/
def execLinkEqualisation (_port : Nat) (s : State) : Out := .next s

end Sys2Proof.Machine
end

