-- ==== Sys2Proof/Machine/SeqErg.lean ====
section
/-! DEFINITION. The Erg lookup-cell fabric: the instructions that issue to the Erg queue and the events of its
pipes (10 R274 to R293). -/
namespace Sys2Proof.Machine

/-! ### The array (R274 to R277) -/

def planeCount : Nat := 8192
def Erg.plane (e : Erg) (n : Nat) : BitVec 512 := e.planes.get (n % planeCount) 0
def Erg.bad (e : Erg) (n : Nat) : Bool := e.poison.contains (n % planeCount) || e.badPlane.contains (n % planeCount)
/-- A plane is written; clean data clear its poison bit (R291). -/
def Erg.setPlane (e : Erg) (n : Nat) (v : BitVec 512) (bad : Bool) : Erg :=
  let k := n % planeCount
  let rest := e.poison.filter (· != k)
  { e with planes := e.planes.store k v 0, poison := if bad then k :: rest else rest, badPlane := e.badPlane.filter (· != k) }
/-- The reset wiring entry: OFF = 1 (R276). -/
def wireReset : BitVec 128 := 1#128 <<< 127
def Erg.wire (e : Erg) (slot c : Nat) : BitVec 128 := e.wiring.get (4096 * slot + c) wireReset
def Erg.table (e : Erg) (slot c : Nat) : W64 := e.tables.get (4096 * slot + c) 0

def wfld (x : BitVec 128) (lo w : Nat) : Nat := x.toNat / 2 ^ lo % 2 ^ w
def wireOff (x : BitVec 128) : Bool := x.getLsbD 127
def wireNin (x : BitVec 128) : Nat := wfld x 112 3
def wireOut (x : BitVec 128) : Nat := wfld x 96 13
def wireIn (x : BitVec 128) (k : Nat) : Nat := wfld x (16 * k) 13
/-- A bad wiring entry: a reserved bit, NIN = 7, or an unused input that is not zero (R276). -/
def wireBad (x : BitVec 128) : Bool :=
  wfld x 115 12 != 0 || wfld x 109 3 != 0 || wireNin x = 7
  || (List.range 6).any (fun k => wfld x (16 * k + 13) 3 != 0 || (wireNin x ≤ k && wireIn x k != 0))

/-- A cell's output plane: for every input combination j whose table bit is 1, the samples that show it (R275). -/
def cellOut (t : W64) (ins : List (BitVec 512)) : BitVec 512 :=
  (List.range (2 ^ ins.length)).foldl (fun o j =>
    if t.getLsbD j then
      o ||| ((List.range ins.length).zip ins).foldl (fun (m : BitVec 512) (e : Nat × BitVec 512) =>
        m &&& (if j / 2 ^ e.1 % 2 = 1 then e.2 else ~~~ e.2)) (BitVec.allOnes 512)
    else o) 0

/-- The plane whose sample x is `f x`. -/
def planeOf (f : Nat → Bool) : BitVec 512 :=
  BitVec.ofNat 512 ((List.range 512).foldl (fun a x => if f x then a + 2 ^ x else a) 0)

/-! ### Issue (R278, R279, R283 to R290) -/

/-- Whether a region owns its core's array (R278). -/
def State.ownsErg (s : State) (r : Nat) (rg : Region) : Bool :=
  let e := (s.core rg.core).erg
  rg.place.isSome && e.owner = some r && (e.st = .owned || e.st = .clearing || e.st = .restoring)

/-- An Erg command is accepted with the next number, or refused (R279). -/
def Run.ergPut (v0 : Run) (d : Reg) (op : ErgOp) (desc : List W64) : Except TrapRec State :=
  if 32 ≤ v0.rg.ergq.entries.length then v0.refuse d 1
  else
    let v := v0.drained
    let n := v.rg.ergq.next
    .ok (v.setIn (v.s.updRg v.r (fun rg => { rg with
        ergq := { next := n + 1, entries := rg.ergq.entries ++ [{ op := op, seq := n, desc := desc, page := v.pg }] } }))
      (v.q.setG d (w64 n)))

def ergDlen : ErgOp → Nat
  | .ethr => 5
  | _ => 4
/-- The formats a command takes (R285, R288 to R290). -/
def ergFmtOk (op : ErgOp) (f : Nat) : Bool :=
  match op with
  | .eload | .ewire => f = 0
  | .ethr => f = 0x01 || f = 0x02 || f = 0x12 || f = 0x19 || f = 0x1A
  | .epop => f = 0x12
  | _ => f = 0x01 || f = 0x02 || f = 0x03 || f = 0x04 || f = 0x12 || f = 0x11 || f = 0x10 || f = 0x19 || f = 0x1A || f = 0x18

/-- The fields word of a command, and the fields (R285, R288 to R290). -/
def ergW (op : ErgOp) (d : List W64) : W64 := if op = .ethr then dw d 4 else dw d 3
def ergP0 (op : ErgOp) (d : List W64) : Nat := fld (ergW op d) 0 13
def ergF (op : ErgOp) (d : List W64) : Nat := fld (ergW op d) 24 8 + 1
def ergRstr (op : ErgOp) (d : List W64) : Nat := if op = .epop then fld (dw d 3) 48 16 else fld (ergW op d) 32 16
/-- NT or NB: planes of a feature. -/
def ergK (op : ErgOp) (d : List W64) : Nat := if op = .ethr then fld (dw d 4) 16 4 else fld (dw d 3) 16 6
def ergG (d : List W64) : Nat := fld (dw d 3) 16 13 + 1
def ergNG (d : List W64) : Nat := fld (dw d 3) 32 8 + 1
def ergFirst (d : List W64) : Nat := fld (dw d 3) 4 12
def ergCount (d : List W64) : Nat := fld (dw d 3) 16 12 + 1
def ergZ (d : List W64) : Nat := max 1 (fmtWidth (dFmt d) / 8)

/-- The bank areas a command touches, as address and length (R284). -/
def ergAreas (op : ErgOp) (d : List W64) : List (W64 × Nat) :=
  match op with
  | .eload => [(dw d 2, 8 * ergCount d)]
  | .ewire => [(dw d 2, 16 * ergCount d)]
  | .epop => [(dw d 2, 511 * ergRstr op d + 2 * ergNG d)]
  | .ethr => [(dw d 2, 511 * ergRstr op d + ergF op d * ergZ d), (dw d 3, 4 * ergF op d * ergK op d)]
  | _ => [(dw d 2, 511 * ergRstr op d + ergF op d * ergZ d)]
/-- One past the last plane a command touches, before any wrap (R284). -/
def ergTop (op : ErgOp) (d : List W64) : Nat :=
  match op with
  | .eload | .ewire => 0
  | .epop => ergP0 op d + ergNG d * ergG d
  | _ => ergP0 op d + ergF op d * ergK op d

/-- A reserved field or a broken alignment rule: DESC (R284 to R290). -/
def ergDesc (op : ErgOp) (d : List W64) : Bool :=
  let h := dw d 0
  let w := ergW op d
  let z := ergZ d
  fld h 8 3 != 0 || fld h 24 24 != 0 || !ergFmtOk op (dFmt d) || (dCmpl d && (dw d 1).toNat % 16 != 0)
  || match op with
  | .eload => fld w 2 2 != 0 || fld w 28 36 != 0 || (dw d 2).toNat % 8 != 0
  | .ewire => fld w 2 2 != 0 || fld w 28 36 != 0 || (dw d 2).toNat % 16 != 0
  | .epop => fld w 13 3 != 0 || fld w 30 2 != 0 || fld w 40 8 != 0 || (dw d 2).toNat % 2 != 0 || ergRstr op d % 2 != 0
      || ergRstr op d < 2 * ergNG d
  | .ethr => fld w 13 3 != 0 || fld w 20 4 != 0 || fld w 48 16 != 0 || (dw d 3).toNat % 4 != 0
      || (dw d 2).toNat % z != 0 || ergRstr op d % z != 0
  | .exb => fld w 13 3 != 0 || fld w 22 2 != 0 || fld w 48 16 != 0 || (dw d 2).toNat % z != 0 || ergRstr op d % z != 0
      || ergRstr op d < ergF op d * z
  | _ => fld w 13 3 != 0 || fld w 22 2 != 0 || fld w 48 16 != 0 || (dw d 2).toNat % z != 0 || ergRstr op d % z != 0
/-- A count or shape outside its limits: LIMIT (R284 to R290). -/
def ergLimit (op : ErgOp) (pm1 : Nat) (d : List W64) : Bool :=
  (match op with
   | .eload | .ewire => 4096 < ergFirst d + ergCount d
   | .ethr => ergK op d = 0
   | .exf | .exb => ergK op d = 0 || fmtWidth (dFmt d) < ergK op d
   | _ => false)
  || (ergAreas op d).any (fun a => 8 * (pm1 + 1) ≤ a.1.toNat / 65536 || 65536 < a.1.toNat % 65536 + a.2)
  || planeCount < ergTop op d
/-- Refusal code of an Erg descriptor, or 0. A bank address above bit 22 breaks its layout. -/
def ergCode (op : ErgOp) (pm1 : Nat) (d : List W64) : Nat :=
  if ergDesc op d || (ergAreas op d).any (fun a => a.1.toNat / 2 ^ 23 != 0) then 2
  else if ergLimit op pm1 d then 3 else 0

/-- Issue of a descriptor command (R154, R284). -/
def Run.ergIssue (v : Run) (d : Reg) (a : W64) (op : ErgOp) : Except TrapRec State :=
  if !v.s.ownsErg v.r v.rg then v.refuse d 5
  else match v.readDws a 1 with
  | .error t => .error t
  | .ok h =>
    if fld (dw h 0) 0 8 != ergDlen op || headBad (dw h 0) then v.refuse d 2
    else match v.readDws a (ergDlen op) with
      | .error t => .error t
      | .ok desc =>
        match ergCode op v.rg.pm1 desc with
        | 0 => v.ergPut d op desc
        | c => v.refuse d c
/-- Issue of ESEL and EEVAL, whose operands are words (R283). -/
def Run.ergWords (v : Run) (d : Reg) (op : ErgOp) (l : List W64) : Except TrapRec State :=
  if !v.s.ownsErg v.r v.rg then v.refuse d 5 else v.ergPut d op l
/-- EEVAL's operands: FIRST, COUNT − 1, NSL − 1, PSTR. -/
def Run.eeval (v : Run) (d : Reg) (x : W64) (nsl pstr : Nat) : Except TrapRec State :=
  if !v.s.ownsErg v.r v.rg then v.refuse d 5
  else if 4096 < fld x 0 12 + fld x 12 12 + 1 then v.refuse d 3
  else v.ergPut d .eeval [w64 (fld x 0 12), w64 (fld x 12 12 + 1), w64 nsl, w64 pstr]

/-- R285 ELOAD. -/
def execEload (g : Guard) (d a : Reg) (s : State) : Out := runSeq 1 g [a] s (fun v => v.ergIssue d (v.q.getG a) .eload)
/-- R285 ELOAD with a displacement. -/
def execEloadSi (g : Guard) (d a : Reg) (imm : Imm) (s : State) : Out :=
  runSeq 2 g [a] s (fun v => v.ergIssue d (v.q.getG a + sext64 imm) .eload)
/-- R285 EWIRE. -/
def execEwire (g : Guard) (d a : Reg) (s : State) : Out := runSeq 1 g [a] s (fun v => v.ergIssue d (v.q.getG a) .ewire)
/-- R285 EWIRE with a displacement. -/
def execEwireSi (g : Guard) (d a : Reg) (imm : Imm) (s : State) : Out :=
  runSeq 2 g [a] s (fun v => v.ergIssue d (v.q.getG a + sext64 imm) .ewire)
/-- R288 ETHR. -/
def execEthr (g : Guard) (d a : Reg) (s : State) : Out := runSeq 1 g [a] s (fun v => v.ergIssue d (v.q.getG a) .ethr)
/-- R288 ETHR with a displacement. -/
def execEthrSi (g : Guard) (d a : Reg) (imm : Imm) (s : State) : Out :=
  runSeq 2 g [a] s (fun v => v.ergIssue d (v.q.getG a + sext64 imm) .ethr)
/-- R289 EXF. -/
def execExf (g : Guard) (d a : Reg) (s : State) : Out := runSeq 1 g [a] s (fun v => v.ergIssue d (v.q.getG a) .exf)
/-- R289 EXF with a displacement. -/
def execExfSi (g : Guard) (d a : Reg) (imm : Imm) (s : State) : Out :=
  runSeq 2 g [a] s (fun v => v.ergIssue d (v.q.getG a + sext64 imm) .exf)
/-- R290 EPOP. -/
def execEpop (g : Guard) (d a : Reg) (s : State) : Out := runSeq 1 g [a] s (fun v => v.ergIssue d (v.q.getG a) .epop)
/-- R290 EPOP with a displacement. -/
def execEpopSi (g : Guard) (d a : Reg) (imm : Imm) (s : State) : Out :=
  runSeq 2 g [a] s (fun v => v.ergIssue d (v.q.getG a + sext64 imm) .epop)
/-- R289 EXB. -/
def execExb (g : Guard) (d a : Reg) (s : State) : Out := runSeq 1 g [a] s (fun v => v.ergIssue d (v.q.getG a) .exb)
/-- R289 EXB with a displacement. -/
def execExbSi (g : Guard) (d a : Reg) (imm : Imm) (s : State) : Out :=
  runSeq 2 g [a] s (fun v => v.ergIssue d (v.q.getG a + sext64 imm) .exb)
/-- R286 ESEL. -/
def execEsel (g : Guard) (d a : Reg) (s : State) : Out :=
  runSeq 1 g [a] s (fun v => v.ergWords d .esel [w64 (fld (v.q.getG a) 0 2), w64 (fld (v.q.getG a) 2 2)])
/-- R286 ESEL with immediate selectors. -/
def execEselSi (g : Guard) (d : Reg) (w t : BitVec 2) (s : State) : Out :=
  runSeq 2 g [] s (fun v => v.ergWords d .esel [w.setWidth 64, t.setWidth 64])
/-- R287 EEVAL. -/
def execEeval (g : Guard) (d a b : Reg) (s : State) : Out :=
  runSeq 1 g [a, b] s (fun v => v.eeval d (v.q.getG a) (fld (v.q.getG a) 24 6 + 1) (fld (v.q.getG b) 0 13))
/-- R287 EEVAL of one slice over an immediate range. -/
def execEevalSi (g : Guard) (d : Reg) (first cm1 : BitVec 12) (s : State) : Out :=
  runSeq 2 g [] s (fun v => v.eeval d (w64 (first.toNat + 4096 * cm1.toNat)) 1 0)

/-! ### What the commands do (R285 to R291) -/

/-- A command's work in progress: the region's banks, the array, its status, units and index. -/
structure ErgWork where
  rg : Region
  e : Erg
  status : Nat := 0
  units : Nat := 0
  idx : Nat := 0
  stop : Bool := false
/-- The first status that arises stands. -/
def ErgWork.note (w : ErgWork) (st : Nat) : ErgWork := { w with status := if w.status = 0 then st else w.status }
def ErgWork.unit (w : ErgWork) : ErgWork := { w with units := w.units + 1 }
def repeatN {α : Type} (n : Nat) (f : α → Nat → α) (a : α) : α := (List.range n).foldl f a
def mark (l : List Nat) (k : Nat) (bad : Bool) : List Nat := if bad then k :: l.filter (· != k) else l.filter (· != k)

/-- ELOAD and EWIRE (R285, R291). -/
def ErgWork.load (w : ErgWork) (op : ErgOp) (d : List W64) : ErgWork :=
  let slot := fld (dw d 3) 0 2
  let sz := if op = .eload then 8 else 16
  repeatN (ergCount d) (fun (w : ErgWork) i =>
    let c := ergFirst d + i
    let a := (dw d 2).toNat + sz * i
    let x := leNat (bankPeek w.rg.bank a sz)
    let bad := w.rg.bankBad a sz
    let k := 4096 * slot + c
    let w1 := if bad then w.note 3 else w
    if w.stop then w
    else if op = .eload then
      ({ w1 with e := { w1.e with tables := w1.e.tables.store k (w64 x) 0, badTable := mark w1.e.badTable k bad } } : ErgWork).unit
    else if !bad && wireBad (.ofNat 128 x) then { w1.note 12 with idx := c, stop := true }
    else ({ w1 with e := { w1.e with wiring := w1.e.wiring.store k (.ofNat 128 x) wireReset, badWire := mark w1.e.badWire k bad } } : ErgWork).unit) w

/-- What one cell writes in a slice: its plane, the value, whether it is poisoned. -/
def Erg.cell (e : Erg) (c off : Nat) (tainted : Bool) : Option (Nat × BitVec 512 × Bool) :=
  let x := e.wire e.aw c
  if wireOff x then none
  else
    let ns := (List.range (wireNin x)).map (fun k => wireIn x k + off)
    let badT := e.badTable.contains (4096 * e.at_ + c)
    some (wireOut x + off, if badT then 0 else cellOut (e.table e.at_ c) (ns.map e.plane), badT || tainted || ns.any e.bad)
/-- One slice of EEVAL: cells read the planes as they were before it; `tainted` says that an earlier wiring entry
had an error (R287, R291). -/
def Erg.slice (old : Erg) (first count off : Nat) (t : Bool) : Erg × Bool :=
  repeatN count (fun (a : Erg × Bool) i =>
    if old.badWire.contains (4096 * old.aw + first + i) then (a.1, true)
    else match old.cell (first + i) off a.2 with
      | none => a
      | some (n, v, b) => (a.1.setPlane n v b, a.2)) (old, t)
/-- EEVAL (R287). -/
def Erg.eval (e : Erg) (first count nsl pstr : Nat) : Erg :=
  (repeatN nsl (fun (a : Erg × Bool) sl => a.1.slice first count (sl * pstr) a.2) (e, false)).1

/-- The bank address of element (x, j). -/
def ergElemAddr (op : ErgOp) (d : List W64) (x j z : Nat) : Nat := (dw d 2).toNat + x * ergRstr op d + j * z
/-- Whether an error lies in a byte of feature j. -/
def ErgWork.badFeature (w : ErgWork) (op : ErgOp) (d : List W64) (j : Nat) : Bool :=
  (List.range 512).any (fun x => w.rg.bankBad (ergElemAddr op d x j (ergZ d)) (ergZ d))
/-- A plane is written from bank data (R291). -/
def ErgWork.plane (w : ErgWork) (n : Nat) (f : Nat → Bool) (bad : Bool) : ErgWork :=
  ({ (if bad then w.note 3 else w) with e := w.e.setPlane n (planeOf f) bad } : ErgWork).unit

/-- ETHR (R288). -/
def ErgWork.thr (w : ErgWork) (d : List W64) : ErgWork :=
  let f := dFmt d
  let signed := f = 0x01 || f = 0x12 || f = 0x19
  let z := ergZ d
  let nt := ergK .ethr d
  repeatN (ergF .ethr d) (fun (w : ErgWork) j =>
    let bad := w.badFeature .ethr d j
    repeatN nt (fun (w : ErgWork) q =>
      let ta := (dw d 3).toNat + 4 * (j * nt + q)
      let t := leNat (bankPeek w.rg.bank ta 4)
      let tv : Int := if signed then sval 32 t else t
      let bank := w.rg.bank
      w.plane (ergP0 .ethr d + j * nt + q)
        (fun x => decide (tv ≤ elemVal f (leNat (bankPeek bank (ergElemAddr .ethr d x j z) z)))) (bad || w.rg.bankBad ta 4)) w) w

/-- EXF (R289). -/
def ErgWork.xf (w : ErgWork) (d : List W64) : ErgWork :=
  let z := ergZ d
  let nb := ergK .exf d
  repeatN (ergF .exf d) (fun (w : ErgWork) j =>
    let bad := w.badFeature .exf d j
    let bank := w.rg.bank
    repeatN nb (fun (w : ErgWork) b =>
      w.plane (ergP0 .exf d + j * nb + b)
        (fun x => leNat (bankPeek bank (ergElemAddr .exf d x j z) z) / 2 ^ b % 2 = 1) bad) w) w

/-- An element is written; a poisoned plane makes it 0 (R291). -/
def ErgWork.elem (w : ErgWork) (a z : Nat) (bad : Bool) (x : Int) : ErgWork :=
  ({ (if bad then w.note 3 else w) with rg := w.rg.bankPut true a (leBytes z (if bad then 0 else ubits (8 * z) x)) } : ErgWork).unit
/-- EXB (R289). -/
def ErgWork.xb (w : ErgWork) (d : List W64) : ErgWork :=
  let f := dFmt d
  let z := ergZ d
  let nb := ergK .exb d
  let e := w.e
  repeatN 512 (fun (w : ErgWork) x =>
    repeatN (ergF .exb d) (fun (w : ErgWork) j =>
      let ns := (List.range nb).map (fun b => ergP0 .exb d + j * nb + b)
      let v := ((List.range nb).zip ns).foldl (fun (v : Nat) (n : Nat × Nat) => v + (if (e.plane n.2).getLsbD x then 2 ^ n.1 else 0)) 0
      w.elem (ergElemAddr .exb d x j z) z (ns.any e.bad) (if f = 0x01 || f = 0x12 || f = 0x19 then sval nb v else v)) w) w
/-- EPOP (R290). -/
def ErgWork.pop (w : ErgWork) (d : List W64) : ErgWork :=
  let g := ergG d
  let e := w.e
  repeatN 512 (fun (w : ErgWork) x =>
    repeatN (ergNG d) (fun (w : ErgWork) k =>
      let ns := (List.range g).map (fun i => ergP0 .epop d + k * g + i)
      let n := (ns.filter (fun m => (e.plane m).getLsbD x)).length
      w.elem (ergElemAddr .epop d x k 2) 2 (ns.any e.bad) (if bit (dw d 3) 29 then 2 * (n : Int) - g else n)) w) w

/-- A command's whole effect. -/
def ErgWork.run (w : ErgWork) (c : ErgCmd) : ErgWork :=
  let n := fun (i : Nat) => (dw c.desc i).toNat
  match c.op with
  | .eload | .ewire => w.load c.op c.desc
  | .esel => { w with e := { w.e with aw := n 0, at_ := n 1 } }
  | .eeval => { w with e := w.e.eval (n 0) (n 1) (n 2) (n 3) }
  | .ethr => w.thr c.desc
  | .exf => w.xf c.desc
  | .epop => w.pop c.desc
  | .exb => w.xb c.desc

/-- Dword 1 of a completion record (R282). -/
def ErgWork.word (w : ErgWork) : W64 :=
  w64 (w.units % 2 ^ 32 * 2 ^ 32 + (if w.status = 12 then w.idx * 2 ^ 8 else 0) + w.status)
/-- The commands that write bank bytes. -/
def ErgOp.writes : ErgOp → Bool
  | .epop | .exb => true
  | _ => false
/-- A command's effect (R281): a bank byte that another access wrote since it started is read old or new, and one that the
command writes too is left to either. -/
def ergEffect (ix : Nat) (rg : Region) (e : Erg) (c : ErgCmd) : ErgWork :=
  let seen := rg.bankSeen false c.since ix
  if c.op.writes then
    let w := ({ rg := rg, e := e } : ErgWork).run c
    { w with rg := { w.rg with bank := rg.bankOld.foldl (fun b o =>
        if !o.erg && c.since ≤ o.at_ && Config.choice (ix * 65536 + o.addr % 65536) then b.store o.addr (rg.bank.get o.addr 0) 0 else b) w.rg.bank } }
  else { ({ rg := seen, e := e } : ErgWork).run c with rg := rg }

/-! ### The pipes (R278, R280, R282, R293) -/

def ErgOp.loads : ErgOp → Bool
  | .eload | .ewire => true
  | _ => false
def ErgOp.descs : ErgOp → Bool
  | .esel | .eeval => false
  | _ => true
/-- The slots a command uses or targets, given the active pair: (wiring?, slot). -/
def ErgCmd.slots (c : ErgCmd) (aw at_ : Nat) : List (Bool × Nat) :=
  match c.op with
  | .eload => [(false, fld (dw c.desc 3) 0 2)]
  | .ewire => [(true, fld (dw c.desc 3) 0 2)]
  | .esel => [(true, aw), (false, at_), (true, (dw c.desc 0).toNat), (false, (dw c.desc 1).toNat)]
  | .eeval => [(true, aw), (false, at_)]
  | _ => []
/-- The active pair after the commands ahead. -/
def activeAfter (e : Erg) (l : List ErgCmd) : Nat × Nat :=
  l.foldl (fun (a : Nat × Nat) (c : ErgCmd) =>
    if c.op = .esel then ((dw c.desc 0).toNat, (dw c.desc 1).toNat) else a) (e.aw, e.at_)
/-- Whether a command ahead on the other pipe shares a slot with `c` (R280). -/
def ergBlocked (e : Erg) (ahead : List ErgCmd) (c : ErgCmd) : Bool :=
  let p := activeAfter e ahead
  let mine := c.slots p.1 p.2
  (List.range ahead.length).any (fun i =>
    match ahead[i]? with
    | none => false
    | some o =>
      let q := activeAfter e (ahead.take i)
      o.op.loads != c.op.loads && (o.slots q.1 q.2).any mine.contains)

/-- The array of a resident region, once it is Owned (R278). -/
def State.ergOf (s : State) (r : Nat) : Option (Region × Erg) :=
  match s.rg? r with
  | none => none
  | some rg =>
    let e := (s.core rg.core).erg
    if rg.resident && e.owner = some r && e.st = .owned then some (rg, e) else none
def State.setErg (s : State) (core : Nat) (e : Erg) : State := s.setCore core { s.core core with erg := e }

/-- ERG_COMMAND_START (R280): a pipe starts its next command. -/
def execErgCommandStart (r : Nat) (load : Bool) (s : State) : Out :=
  match s.ergOf r with
  | none => .next s
  | some (rg, e) =>
    let l := rg.ergq.entries
    match l.findIdx? (fun c => c.op.loads = load && !c.started) with
    | none => .next s
    | some i =>
      match l[i]? with
      | none => .next s
      | some c =>
        if ergBlocked e (l.take i) c then .next s
        else .next (s.setRg r { rg with ergq := { rg.ergq with entries := listUpd l i (fun c => { c with started := true, since := rg.bankStamp }) } })

def Region.ergHead (rg : Region) (c : ErgCmd) : Region := { rg with ergq := { rg.ergq with entries := listUpd rg.ergq.entries 0 (fun _ => c) } }
/-- The head command is done with. What it overwrote stays for the engine commands accepted before it did, which are not ordered
with it; what others overwrote, while another command is started (R281). -/
def Region.ergPop (rg : Region) : Region :=
  let l := rg.ergq.entries.tail
  { rg with
    ergq := { rg.ergq with entries := l }
    bankOld := rg.bankOld.filter (fun o =>
      if o.erg then rg.eqs.any (fun x => x.cmds.any (fun c => c.since ≤ o.at_)) else l.any (·.started)) }

/-- A dword of the completion record: dword 1, an ordinary write, then dword 0 as a release (R282, R324). -/
def State.ergRecord (s : State) (r : Nat) (rg : Region) (c : ErgCmd) (w : W64) : State :=
  let base := dw c.desc 1
  let va := if c.half then base else base + 8
  let x := if c.half then w64 c.seq else w
  match xlate s rg.core rg.ctx va .write with
  | .error f =>
    if !f.recoverable then s.setRg r rg.ergPop
    else
      let (s, n) := s.pause r rg va f .write (.engine c.page 0) { cause := 3 }
      s.updRg r (fun rg => rg.ergHead { c with paused := some n })
  | .ok t =>
    -- a quiesced stack's accesses wait (R457)
    if t.local?.any s.quiesced then s else
    let s := s.cache rg.core rg.ctx va
    let s := if c.half then s.bump r else s
    match t with
    | .loc pa uchk =>
      let s := s.settle1 r pa uchk
      let s := s.write (s.keyOf rg.ctx) pa (leBytes 8 x.toNat)
      let s := if uchk then s else s.setTag (sectorOf pa) (s.tagOf r)
      s.updRg r (fun rg => if c.half then rg.ergPop else rg.ergHead { c with half := true })
    | .rem rn ch rod a _ =>
      let (s, n) := s.sendRemote { kind := .ergRec, ctx := rg.ctx, rid := r, pg := c.page, rnode := rn, chan := ch, rod := rod
                                   addr := a, va := va, bytes := leBytes 8 x.toNat }
      s.updRg r (fun rg => rg.ergHead { c with remote := some n })

/-- ERG_COMMAND_COMPLETE (R279, R282): the started command at the head of the queue has its effect, then writes its
record and leaves the queue. -/
def execErgCommandComplete (r : Nat) (s : State) : Out :=
  match s.ergOf r with
  | none => .next s
  | some (rg, e) =>
    match rg.ergq.entries with
    | [] => .next s
    | c :: _ =>
      if !c.started || c.paused.isSome || c.remote.isSome then .next s
      else match c.word with
        | some w => .next (if dCmpl c.desc then s.ergRecord r rg c w else s.setRg r rg.ergPop)
        | none =>
          let w := ergEffect s.freeIx rg e c
          let rg2 := if c.op.writes || (c.op.descs && dCmpl c.desc) then w.rg.ergHead { c with word := some w.word } else w.rg.ergPop
          .next ((s.setRg r rg2).setErg rg.core w.e)

/-- The array of an owner that is being snapshotted goes on to be saved. -/
def State.ergReady (s : State) (e : Erg) : Erg :=
  { e with st := if (e.owner.bind s.rg?).elim false (·.snap) then .saving else .owned }
/-- ERG_CLEAR_DONE (R278): a cleared array is Owned. -/
def execErgClearDone (core : Nat) (s : State) : Out :=
  let e := (s.core core).erg
  if e.st = .clearing then .next (s.setErg core (s.ergReady e)) else .next s
/-- ERG_RESTORE_DONE (R278). -/
def execErgRestoreDone (core : Nat) (s : State) : Out :=
  let e := (s.core core).erg
  if e.st = .restoring then .next (s.setErg core (s.ergReady e)) else .next s
/-- ERG_SAVE_DONE (R278): the array is free; an uncorrectable error in the save poisons the image, which its member
then fails to restore from (R394). -/
def execErgSaveDone (core : Nat) (bad : Bool) (s : State) : Out :=
  let e := (s.core core).erg
  if e.st != .saving then .next s
  else
    let s := s.setErg core {}
    match e.owner with
    | none => .next s
    | some r => .next (s.updRg r (fun rg => { rg with ergImage := some { e with st := .free, owner := none }, imageBad := rg.imageBad || bad || e.failed }))

end Sys2Proof.Machine
end

