-- ==== Sys2Proof/Machine/SeqFlow.lean ====
section
/-! DEFINITION. Loads, stores, atomics, fences, transfers, the monitor and sleeping (05 R125 to R135). -/
namespace Sys2Proof.Machine

/-! ### Memory -/

/-- R125, R126 LD: a checked load, extended by its type. -/
def execLd (g : Guard) (ty : MTy) (d : Reg) (m : MemRef) (s : State) : Out :=
  runSeq 2 g (memRegs m) s (fun v =>
    let ea := v.q.ea v.pc m
    match v.target ea (tySize ty) .read with
    | .error t => .error t
    | .ok (.loc pa uchk) =>
      match v.load ea pa (tySize ty) (!uchk) with
      | .error t => .error t
      | .ok x => .ok (v.setIn (v.cached ea) { v.q.setG d (tyExtend ty x.val) with
          lastTag := some (if uchk then {} else x.tag), armed := none })
    | .ok (.rem rn ch rod a _) =>
      .ok (v.await (v.remote .ld rn ch rod a ea []) (fun id => .ld id d ty 2)))

/-- R125, R126 ST: the low bytes of g[D]. -/
def execSt (g : Guard) (ty : MTy) (d : Reg) (m : MemRef) (s : State) : Out :=
  runSeq 2 g (d :: memRegs m) s (fun v =>
    .ok (v.store (v.q.ea v.pc m) (leBytes (tySize ty) (v.q.getG d).toNat)))

/-- A local atomic performs (R127, R317, R327): no race check; a release advances C and, when it writes,
leaves its tag. -/
def State.amoAt (s : State) (r : Nat) (c pa n : Nat) (release uchk writes : Bool) (new : Nat) : State :=
  let s := if release then s.bump r else s
  if writes then
    let s := if release then s.settle1 r pa uchk else s
    let s := s.write (s.keyOf c) pa (leBytes n new)
    if release && !uchk then s.setTag (sectorOf pa) (s.tagOf r) else s
  else s

/-- R127 AMO: performs after every earlier access of the sequencer (R319). -/
def execAmo (g : Guard) (op : Aop) (ty : MTy) (d a b : Reg) (disp : BitVec 24) (s : State) : Out :=
  runSeq 2 g (if op = .cas then [a, b, d] else [a, b]) s (fun v0 =>
    let v := v0.drained
    let ea := v.q.getG a + disp.signExtend 64
    let n := tySize ty
    let x := (v.q.getG b).toNat % 2 ^ (8 * n)
    let c := (v.q.getG d).toNat % 2 ^ (8 * n)
    match v.target ea n .atomic with
    | .error t => .error t
    | .ok (.loc pa uchk) =>
      match v.bytes ea pa n with
      | .error t => .error t
      | .ok l =>
        let old := leNat l
        let s1 := (v.cached ea).amoAt v.r v.rg.ctx pa n v.q.releases uchk (amoWrites op old c)
          (amoNew op n old x c)
        .ok (v.setIn s1 { v.q.setG d (tyExtend ty old) with
          lastTag := some (if uchk then {} else (v.s.sideAt (sectorOf pa)).tag), armed := none })
    | .ok (.rem rn ch rod ad _) =>
      let v := if v.q.releases then { v with s := v.s.bump v.r } else v
      .ok (v.await { v.remote .amo rn ch rod ad ea (leBytes n x) with op := some { code := aopCode op, cmp := w64 c } }
        (fun id => .amo id d ty 2)))

/-- R128, R317, R320 FENCE: earlier accesses perform; from REGION on, the access just before becomes an
acquire and the next one a release; SYS waits for the acknowledgements of earlier remote stores. -/
def execFence (g : Guard) (sc : Scope) (s : State) : Out :=
  runSeq 1 g [] s (fun v0 =>
    let v := v0.drained
    let wide := 2 ≤ scopeCode sc
    let s1 := match v.q.lastTag with
      | some t => if wide then v.s.acquire v.r t else v.s
      | none => v.s
    let arm := if !wide then v.q.armed
      else match v.q.armed with
        | some o => if scopeCode o < scopeCode sc then some sc else some o
        | none => some sc
    .ok (v.setIn s1 { v.q with
      armed := arm
      wait := if sc = .sys && !v.q.remotes.isEmpty then some (.fenceSys v.q.remotes) else none }))

/-! ### Transfers (R129, R130) -/

/-- R129 BR, form SB: pc + 4 × OFF. -/
def execBr (g : Guard) (off : BitVec 15) (s : State) : Out :=
  runSeq 1 g [] s (fun v => .ok (v.set (v.q.goto (v.pc + off.signExtend 64 <<< 2))))
/-- R129 BR, form SBL: pc + OFF32. -/
def execBrSbl (g : Guard) (off : Imm) (s : State) : Out :=
  runSeq 2 g [] s (fun v => .ok (v.set (v.q.goto (v.pc + sext64 off))))

/-- A transfer to a register's target (R129): one that is not a multiple of 4 traps at the transfer. -/
def Run.jump (v : Run) (t : W64) (q : Seq) : Except TrapRec State :=
  if t.toNat % 4 != 0 then .error (alignTrap t) else .ok (v.set (q.goto t))

/-- R129 JMP, register target. -/
def execJmp (g : Guard) (a : Reg) (s : State) : Out :=
  runSeq 1 g [a] s (fun v => v.jump (v.q.getG a) v.q)
/-- R129 JMP, form SBL. -/
def execJmpSbl (g : Guard) (off : Imm) (s : State) : Out :=
  runSeq 2 g [] s (fun v => .ok (v.set (v.q.goto (v.pc + sext64 off))))
/-- R129 CALL, register target: the link is the address after the instruction. -/
def execCall (g : Guard) (d a : Reg) (s : State) : Out :=
  runSeq 1 g [a] s (fun v => v.jump (v.q.getG a) (v.q.setG d (v.pc + 4)))
/-- R129 CALL, form SBL. -/
def execCallSbl (g : Guard) (d : Reg) (off : Imm) (s : State) : Out :=
  runSeq 2 g [] s (fun v => .ok (v.set ((v.q.setG d (v.pc + 8)).goto (v.pc + sext64 off))))
/-- R129 RET. -/
def execRet (g : Guard) (a : Reg) (s : State) : Out :=
  runSeq 1 g [a] s (fun v => v.jump (v.q.getG a) v.q)
/-- R130 LOOP: counts down and branches while the count is not zero. -/
def execLoop (g : Guard) (d : Reg) (off : Imm) (s : State) : Out :=
  runSeq 2 g [d] s (fun v =>
    let x := v.q.getG d - 1
    let q := v.q.setG d x
    .ok (v.set (if x = 0 then q else q.goto (v.pc + sext64 off))))

/-! ### The monitor and sleeping (R131 to R134; 17 R404) -/

/-- A core's "clear" reply reaches a bank, which clears the core's bit of the bucket (R405). -/
def State.watchClear (s : State) (core sec : Nat) : State :=
  { s with
    clears := s.clears.erase (core, sec)
    watch := s.watch.store (watchKey sec) (s.watch.get (watchKey sec) 0 &&& ~~~ (1#192 <<< core)) 0 }
/-- The core is registered in the watch table of a sector's home bank (R404), after the messages it sent that bank
before. -/
def State.register (s : State) (core sec : Nat) : State :=
  let before := s.clears.filter (fun (x : Nat × Nat) => x.1 = core && watchKey x.2 / 1024 = watchKey sec / 1024)
  let s := before.foldl (fun (s : State) (x : Nat × Nat) => s.watchClear x.1 x.2) s
  { s with watch := s.watch.store (watchKey sec) (s.watch.get (watchKey sec) 0 ||| (1#192 <<< core)) 0 }

/-- R131 MONARM: arms the sector of a 1-byte access. A remote address has no sector here
(notes/assumptions/11.md). -/
def execMonarm (g : Guard) (a : Reg) (s : State) : Out :=
  runSeq 1 g [a] s (fun v =>
    let ea := v.q.getG a
    match v.target ea 1 .read with
    | .error t => .error t
    | .ok (.loc pa _) =>
      .ok (v.setIn ((v.cached ea).register v.rg.core (sectorOf pa))
        { v.q with filter := v.q.filter ||| filterBits pa })
    | .ok (.rem _ _ _ _ _) => .ok (v.setIn (v.cached ea) v.q))
/-- R131 MONARM.CLR. -/
def execMonarmClr (g : Guard) (s : State) : Out :=
  runRegs 1 g [] s (fun q => { q with filter := 0, clrs := q.clrs + 1, stat := putFld q.stat 0 1 0 })

/-- SLEEP with limit L (R134). -/
def Seq.doSleep (q : Seq) (p : PReg) (l : Nat) : Seq :=
  if q.wp then { q.setP p true with stat := putFld q.stat 0 1 0 }
  else if l = 0 then q.setP p false
  else { q with sleep := some (l, p) }
/-- R134 SLEEP. -/
def execSleep (g : Guard) (p : PReg) (a : Reg) (s : State) : Out :=
  runRegs 1 g [a] s (fun q => q.doSleep p (q.getG a).toNat)
/-- R134 SLEEP with an immediate limit, zero-extended. -/
def execSleepSi (g : Guard) (p : PReg) (imm : Imm) (s : State) : Out :=
  runRegs 2 g [] s (fun q => q.doSleep p imm.toNat)
/-- R134: the cycles left of a sleep pass without a wake, and it returns false. -/
def execSleepExpiry (r pg : Nat) (s : State) : Out :=
  match s.rg? r with
  | none => .next s
  | some rg =>
    match s.seq? r pg with
    | none => .next s
    | some q =>
      match q.sleep with
      | none => .next s
      | some (l, p) =>
        if rg.resident then
          .next ((s.pass rg.core l).updSeq r pg (fun q => { q.setP p false with sleep := none }))
        else .next s

/-! ### TESTSEQ (R135) -/

/-- The test: whether s has reached v, wrap-safe (R135). -/
def reached (s v : W64) : Bool := (s - v).toNat < 2 ^ 63

/-- TESTSEQ at an address, the instruction being `len` words (R135, R317): a true result acquires. -/
def Run.testseq (v : Run) (p : PReg) (ea val : W64) (len : Nat) : Except TrapRec State :=
  match v.target ea 8 .read with
  | .error t => .error t
  | .ok (.loc pa uchk) =>
    match v.load ea pa 8 false with
    | .error t => .error t
    | .ok x =>
      let ok := reached (w64 x.val) val
      let s1 := if ok then (v.cached ea).acquire v.r (if uchk then {} else x.tag) else v.cached ea
      .ok (v.setIn s1 { v.q.setP p ok with lastTag := none, armed := none })
  | .ok (.rem rn ch rod a _) =>
    .ok (v.await (v.remote .ld rn ch rod a ea []) (fun id => .testseq id p val len))

/-- R135 TESTSEQ. -/
def execTestseq (g : Guard) (p : PReg) (a b : Reg) (s : State) : Out :=
  runSeq 1 g [a, b] s (fun v => v.testseq p (v.q.getG a) (v.q.getG b) 1)
/-- R135 TESTSEQ with a displacement. -/
def execTestseqSi (g : Guard) (p : PReg) (a b : Reg) (imm : Imm) (s : State) : Out :=
  runSeq 2 g [a, b] s (fun v => v.testseq p (v.q.getG a + sext64 imm) (v.q.getG b) 2)

end Sys2Proof.Machine
end

