-- ==== Sys2Proof/Machine/SeqBarchan.lean ====
section
/-! DEFINITION. The Barchan instructions: SPAWN, VDECL, TEND, TSYNC, TRESUME and TINFO (11 R294 to R296, R306 to
R313). -/
namespace Sys2Proof.Machine

/-! ### SPAWN (R310) -/

/-- Views of a child being made: where bank space stands, and what has been taken. -/
structure Making where
  s : State
  off : Option Nat
  views : Assoc View := []
  accs : Assoc View := []
  taken : List (Nat × Nat) := []
  ks : List Nat := []

def Making.took (m : Making) (w : View) (s : State) : Making :=
  { m with
    s := s
    taken := (match w.span? with | some x => [x] | none => []) ++ m.taken
    ks := (match w.loc with | .fibre a => [fibreIndex a % 1024] | _ => []) ++ m.ks }
/-- The child's own view of declared view `w` (R300). -/
def Making.own (m : Making) (rg : Region) (dune v : Nat) (w : View) : Option Making :=
  let w := { w with inherited := true, page := none }
  let fits := match m.off with | some o => o + w.size ≤ 65536 | none => false
  if w.op != 12 && fits then
    let o := m.off.getD 0
    some { m with off := some (o + w.size)
                  views := m.views.put v { w with loc := .bank (dune * 65536 + o), status := 0, entry := some rg.core, pool := 0 } }
  else
    match m.s.newView rg.ctx rg.core w m.taken m.ks (m.s.freeIx * 65536 + v) with
    | none => none
    | some (x, s) => some { (m.took x s) with views := m.views.put v x, off := if w.op = 12 then m.off else none }
/-- The accumulated view of `w`, unless the epoch has it (R295). -/
def Making.acc (m : Making) (rg : Region) (v : Nat) (w : View) : Option Making :=
  if (rg.task.epoch.accs.find v).isSome then some m
  else
    match m.s.newView rg.ctx rg.core w m.taken m.ks (m.s.freeIx * 65536 + 16 + v) with
    | none => none
    | some (x, s) => some { (m.took x s) with accs := m.accs.put v x }
/-- Every view of VMASK, in ascending number: the child's, then the accumulated ones. -/
def makeViews (s : State) (rg : Region) (vb : Bool) (vbank : Nat) (vs : List (Nat × View)) : Option Making :=
  let held := (s.heldViews.filter (fun (e : Nat × View) => e.1 = rg.ctx)).filterMap (fun (e : Nat × View) => e.2.span?)
  let m0 : Making := { s := s, off := if vb then some (vbank % 65536) else none, taken := held }
  let m1 := vs.foldl (fun (m : Option Making) (e : Nat × View) => m.bind (fun m => m.own rg (vbank / 65536) e.1 e.2)) (some m0)
  vs.foldl (fun (m : Option Making) (e : Nat × View) => m.bind (fun m => m.acc rg e.1 e.2)) m1

/-- The views VMASK names; none where one is undeclared. -/
def namedViews (t : Task) (vmask : Nat) : Option (List (Nat × View)) :=
  ((List.range 16).filter (fun v => vmask / 2 ^ v % 2 = 1)).foldr (fun v (l : Option (List (Nat × View))) =>
    match t.views.find v, l with
    | some w, some l => some ((v, w) :: l)
    | _, _ => none) (some [])

def Run.spawnFail (v : Run) (p : PReg) (f : Nat) : Except TrapRec State :=
  .ok (v.setIn (v.s.updRg v.r (fun rg => { rg with task := { rg.task with sfail := f } })) (v.q.setP p false))

/-- Whether a spawn descriptor's VBANK lies outside the child's shape or breaks its alignment. -/
def Run.vbankBad (v : Run) (d : List W64) : Except TrapRec Bool :=
  if !bit (dw d 2) 23 then .ok false
  else if (dw d 0).toNat % 64 != 0 || fld (dw d 2) 0 6 != 0 then .ok true
  else match v.readDws (dw d 0) 1 with
    | .error t => .error t
    | .ok k => .ok (8 * (fld (dw k 0) 0 4 + 1) ≤ fld (dw d 2) 16 7)

/-- A child is created under R306. Its accesses come after every access the issuer performed before: the issuer's
count C advances, so that they do not race (R310, R325). -/
def Run.spawnChild (v : Run) (p : PReg) (d : List W64) (m : Making) : State :=
  let rg := v.rg
  let c : Child := { tid := m.s.freshTid rg.ctx, kdesc := dw d 0, arg := dw d 1
                     views := m.views, core := rg.core }
  let s := m.s.updRg v.r (fun rg =>
    let e := rg.task.epoch
    { rg with task := { rg.task with
        sfail := 0
        epoch := { e with children := e.children ++ [c], accs := m.accs.foldl (fun (l : Assoc View) (x : Nat × View) => l.put x.1 x.2) e.accs } } })
  v.setIn (s.bump v.r) (v.q.setP p true)

/-- SPAWN with its descriptor at `a`. -/
def Run.spawn (v0 : Run) (p : PReg) (a : W64) : Except TrapRec State :=
  match v0.readDws a 4 with
  | .error t => .error t
  | .ok d =>
    let v := v0.drained
    let t := v.rg.task
    match namedViews t (fld (dw d 2) 48 16) with
    | none => v.spawnFail p 6
    | some vs =>
      if !v.lead || fld (dw d 2) 24 24 != 0 || dw d 3 != 0 then v.spawnFail p 6
      else match v.vbankBad d with
      | .error t => .error t
      | .ok vb =>
        if vb then v.spawnFail p 6
        else if t.epoch.fm != .none then v.spawnFail p 4
        else if 4096 ≤ t.epoch.children.length || 63 ≤ t.depth then v.spawnFail p 5
        else if 256 ≤ v.s.pendingOn v.rg.core none then v.spawnFail p 1
        else if ((v.s.ctx? v.rg.ctx).elim 0 (·.spq)) ≤ v.s.pendingOn v.rg.core (some v.rg.ctx) then v.spawnFail p 2
        else
          let new := vs.length + (vs.filter (fun (e : Nat × View) => (t.epoch.accs.find e.1).isNone)).length
          if 1024 < v.s.entriesOf v.rg.core + new then v.spawnFail p 3
          else match makeViews v.s v.rg (bit (dw d 2) 23) (fld (dw d 2) 0 23) vs with
            | none => v.spawnFail p 3
            | some m => .ok (v.spawnChild p d m)

/-- R310 SPAWN. -/
def execSpawn (g : Guard) (p : PReg) (a : Reg) (s : State) : Out := runSeq 1 g [a] s (fun v => v.spawn p (v.q.getG a))
/-- R310 SPAWN with a displacement. -/
def execSpawnSi (g : Guard) (p : PReg) (a : Reg) (imm : Imm) (s : State) : Out :=
  runSeq 2 g [a] s (fun v => v.spawn p (v.q.getG a + sext64 imm))

/-! ### VDECL (R311) -/

/-- The block of a custom operator, where its image is fit; it is read as a configuration load is (R112, R311). -/
def Run.operator (v : Run) (f : Nat) (a : W64) : Except TrapRec (Option Block) :=
  match loadBlock v.rdLoad 0 0 [] [] a with
  | .error (.read t) => .error t
  | .error (.refuse _ _) => .ok none
  | .ok (b, ns) =>
    let has := fun (o : Nat) (p : Nat) => ns.any (fun (n : NodeV × Nat) => n.1.op = o && n.1.bits 0 6 = p && n.1.fmt = f)
    .ok (if has 0x80 0 && has 0x80 1 && has 0x81 2 then some b else none)

/-- A tile of view `w` at `t` lies over a view that has bytes of its own (R311). -/
def View.meets (x w : View) (t : Nat) : Bool :=
  match x.loc with
  | .fibre _ => false
  | _ => x.addr.toNat < t + w.size && t < x.addr.toNat + x.size
/-- The causes DESC that look at the target and the view pool, and a target over one of the task's inherited views. -/
def Run.vdeclDesc (v : Run) (d : List W64) (t : W64) : Bool :=
  let w : View := { d0 := dw d 0, ident := dw d 1, cblk := dw d 2, loc := .flat t }
  let inh := v.rg.task.views.any (fun (e : Nat × View) => e.2.inherited && (e.2.addr = t || (w.op != 12 && e.2.meets w t.toNat)))
  if fld (dw d 0) 48 4 = 12 then
    let n := fld (dw d 0) 16 12
    match v.s.poolAt v.rg.ctx t, v.s.pools.find (4096 * v.rg.ctx + n) with
    | some p, some vp =>
      !fibreSpace t || inh || fld (dw d 0) 40 8 != p.fmt || vp.fmt != p.fmt || vp.c64 != p.c64 || vp.segc != p.segc || vp.fibres < 196608
    | _, _ => true
  else t.toNat % 64 != 0 || inh

/-- VDECL of descriptor at `a` over tile `t`, with view number `vid` where one is given. -/
def Run.vdecl (v : Run) (rd : Reg) (a t : W64) (vid : Option Nat) : Except TrapRec State :=
  let tk := v.rg.task
  if !v.lead then v.refuse rd 5
  else if !tk.epoch.children.isEmpty || tk.epoch.fm != .none then v.refuse rd 6
  else if a.toNat % 8 != 0 then v.refuse rd 2
  else match v.readDws a 4 with
  | .error e => .error e
  | .ok d =>
    if viewDescBad d || v.vdeclDesc d t then v.refuse rd 2
    else
      let custom := fld (dw d 0) 48 4 = 13
      match (if custom then v.operator (fld (dw d 0) 40 8) (dw d 2) else .ok none) with
      | .error e => .error e
      | .ok blk =>
        if custom && blk.isNone then v.refuse rd 2
        else match (match vid with
          | some x => if (tk.views.find x).isSome then none else some x
          | none => (List.range 16).find? (fun x => (tk.views.find x).isNone)) with
        | none => v.refuse rd 3
        | some x =>
          if 1024 ≤ v.s.entriesOf v.rg.core then v.refuse rd 4
          else
            let loc : ViewLoc := if fld (dw d 0) 48 4 = 12 then .fibre t else .flat t
            let w : View := { d0 := dw d 0, ident := dw d 1, cblk := dw d 2, loc := loc, oper := blk }
            let put := fun (s : State) (w : View) =>
              v.setIn (s.updRg v.r (fun rg => { rg with task := { rg.task with views := rg.task.views.put x w } })) (v.q.setG rd (w64 x))
            if !custom then .ok (put v.s w)
            else
              let quota := (v.s.ctx? v.rg.ctx).elim 0 (·.pageq)
              match (if quota ≤ v.s.pagesOf v.rg.ctx then none else v.s.bestRun (List.range coreCount) 1) with
              | none => v.refuse rd 4
              | some (c, pg) =>
                .ok (put ((v.s.holdPage c pg .reserved v.r v.rg).wakeCore c) { w with page := some (c, pg) })

/-- R311 VDECL. -/
def execVdecl (g : Guard) (d a b : Reg) (s : State) : Out :=
  runSeq 1 g [a, b] s (fun v => v.vdecl d (v.q.getG a) (v.q.getG b) none)
/-- R311 VDECL with a view number. -/
def execVdeclSi (g : Guard) (d a b : Reg) (vid : BitVec 4) (s : State) : Out :=
  runSeq 2 g [a, b] s (fun v => v.vdecl d (v.q.getG a) (v.q.getG b) (some vid.toNat))

/-! ### TEND, TSYNC, TRESUME (R312) -/

/-- R312 TEND. -/
def execTend (g : Guard) (p : PReg) (s : State) : Out :=
  runSeq 1 g [] s (fun v0 =>
    let v := v0.drained
    let t := v.rg.task
    if !v.lead || !t.epoch.children.isEmpty || t.epoch.fm != .none then .ok (v.set (v.q.setP p false))
    else
      .ok (v.setIn (v.s.updRg v.r (fun rg => { rg with task := { rg.task with ended := rg.task.ended || rg.task.parent.isSome } }))
        (v.q.setP p true)))

/-- R312 TEND.CHILD: it waits until every access of the issuer has performed; remote ones are awaited. -/
def execTendChild (g : Guard) (p : PReg) (a : Reg) (s : State) : Out :=
  runSeq 1 g [a] s (fun v0 =>
    let v := v0.drained
    let i := (v.q.getG a).toNat
    if !v.lead || (v.rg.task.epoch.children[i]?).elim true (fun c => c.st != .taken) then .ok (v.set (v.q.setP p false))
    else if !v.q.remotes.isEmpty then .ok (v.set { v.q with pc := v.pc, wait := some (.fenceSys v.q.remotes) })
    else .ok (v.setIn (v.s.updChild v.r i (fun c => { c with st := .ended })) (v.q.setP p true)))

def TaskState.settled : TaskState → Bool
  | .merged | .discarded => true
  | _ => false

/-- R312 TSYNC. -/
def execTsync (g : Guard) (p : PReg) (s : State) : Out :=
  runSeq 1 g [] s (fun v0 =>
    let v := v0.drained
    let e := v.rg.task.epoch
    if !v.lead || e.fm != .none then .ok (v.set (v.q.setP p false))
    else if e.children.isEmpty then .ok (v.setIn (v.s.acquireAll v.r) (v.q.setP p true))
    else if e.children.any (fun c => !c.st.settled) then .ok (v.set (v.q.setP p false))
    else .ok (v.setIn (v.s.updRg v.r (fun rg => rg.setEpoch { rg.task.epoch with fm := .running })) (v.q.setP p false)))

/-- The highest-indexed Pending child. -/
def Epoch.lastPending (e : Epoch) : Option Nat :=
  ((List.range e.children.length).filter (fun i => (e.children[i]?).elim false (fun c => c.st = .pending))).getLast?

/-- R312 TSYNC.TAKE. A bank view of a Taken child lies in the parent's own banks, filled there. -/
def execTsyncTake (g : Guard) (d : Reg) (s : State) : Out :=
  runSeq 1 g [] s (fun v0 =>
    let v := v0.drained
    match (if v.lead then v.rg.task.epoch.lastPending else none) with
    | none => v.refuse d 6
    | some i =>
      let s := v.s.updChild v.r i (fun c => { c with st := .taken })
      let ws := (v.rg.task.epoch.children[i]?).elim [] (fun c => c.views)
      .ok (v.setIn (s.updRg v.r (fun rg => ws.foldl (fun (rg : Region) (w : Nat × View) => rg.fillBank w.2) rg)) (v.q.setG d (w64 i))))

/-- The target view of a region's merge changes. -/
def Region.updTarget (rg : Region) (m : Merge) (f : View → View) : Region :=
  match m.src with
  | some _ => rg.setEpoch { rg.task.epoch with accs := rg.task.epoch.accs.upd m.v f }
  | none => { rg with task := { rg.task with views := rg.task.views.upd m.v f } }
/-- A faulted merge continues at MIDX, or past the skipped element (R304, R312). -/
def Region.resumeMerge (rg : Region) (m : Merge) (skip : Bool) : Region :=
  let x := if skip then m.x + 1 else m.x
  let e := rg.task.epoch
  let e : Epoch := { e with
    merge := some { m with faulted := false, x := x, fed := x, gave := [], remote := none, rec_ := none }
    fm := if m.src.isNone then .running else e.fm
    children := match m.src with
      | some i => listUpd e.children i (fun c => { c with st := .merging, midx := x })
      | none => e.children }
  let rg := rg.setEpoch e
  let rg := if m.src.isNone then { rg with task := { rg.task with midx := x } } else rg
  if skip then rg.updTarget m (fun w => { w with status := w.status ||| fPoison }) else rg
/-- The identifier of the task whose merge this is: the child's, or the parent's own (R304). -/
def Region.mergeTid (rg : Region) (m : Merge) : Nat :=
  match m.src with
  | some i => (rg.task.epoch.children[i]?).elim 0 (·.tid)
  | none => rg.task.tid
/-- The region whose faulted merge is that of task `t`. -/
def State.faultedMerge (s : State) (c : Nat) (t : W64) : Option (Nat × Region × Merge) :=
  (s.regions.filterMap (fun (e : Nat × Region) =>
    if e.2.ctx != c || e.2.st = .retired then none
    else match e.2.task.epoch.merge with
      | some m => if m.faulted && t = w64 (e.2.mergeTid m) then some (e.1, e.2, m) else none
      | none => none)).head?

def Run.tresume (v0 : Run) (p : PReg) (t : W64) (skip : Bool) : State :=
  let v := v0.drained
  match v.s.faultedMerge v.rg.ctx t with
  | none => v.set (v.q.setP p false)
  | some (r, _, m) =>
    let s := v.s.updRg r (fun rg => rg.resumeMerge m skip)
    -- the retry joins no record of before (R441)
    v.setIn (m.rec_.elim s (fun id => s.leave id (waiterOf r .merge { cause := 3 }))) (v.q.setP p true)
/-- R312 TRESUME. -/
def execTresume (g : Guard) (p : PReg) (a : Reg) (s : State) : Out :=
  runSeq 1 g [a] s (fun v => .ok (v.tresume p (v.q.getG a) false))
/-- R312 TRESUME.SKIP. -/
def execTresumeSkip (g : Guard) (p : PReg) (a : Reg) (s : State) : Out :=
  runSeq 1 g [a] s (fun v => .ok (v.tresume p (v.q.getG a) true))

/-! ### TINFO (R313) -/

def TaskState.code : TaskState → Nat
  | .pending => 0 | .running => 1 | .ended => 2 | .merging => 3 | .faulted => 4 | .merged => 5 | .taken => 6 | .discarded => 7

/-- What TINFO reports of a task. -/
structure TaskView where
  tid : Nat
  index : W64
  parent : Nat
  depth : Nat
  epoch : Epoch
  arg : W64
  views : Assoc View
  /-- the view number a faulted merge targets -/
  bad : Option Nat
  sfail : Nat
  st : TaskState
  midx : Nat
def TaskView.field (t : TaskView) (f w : Nat) : W64 :=
  match f with
  | 0 => w64 t.tid
  | 1 => t.index
  | 2 => w64 t.parent
  | 3 => w64 t.depth
  | 4 => w64 t.epoch.children.length
  | 5 => w64 (t.epoch.children.filter (fun c => c.st.settled)).length
  | 6 => t.arg
  | 7 => (t.views.find w).elim 0 View.addr
  | 8 => (t.views.find w).elim 0 (fun x => w64 (x.status.toNat + (if t.bad = some w then 32 else 0)))
  | 9 => w64 t.sfail
  | 10 => w64 t.st.code
  | 11 => w64 t.midx
  | _ => refused 3

/-- The view of a task that a faulted final merge targets. -/
def Task.badView (t : Task) : Option Nat :=
  match t.epoch.merge with
  | some m => if m.faulted && m.src.isNone then some m.v else none
  | none => none
/-- The issuer's own task. -/
def Region.ownTask (rg : Region) : TaskView :=
  let t := rg.task
  { tid := t.tid, index := (t.parent.elim (refused 6) (fun p => w64 p.2)), parent := t.ptid, depth := t.depth, epoch := t.epoch
    arg := if t.parent.isSome then t.arg else 0, views := t.views, bad := t.badView, sfail := t.sfail, st := .running, midx := t.midx }
/-- Child `i` of the issuer's epoch. -/
def State.childTask (s : State) (rg : Region) (i : Nat) : Option TaskView :=
  (rg.task.epoch.children[i]?).map (fun c =>
    let own := if c.st = .running then (c.rid.bind s.rg?).map (·.task) else none
    { tid := c.tid, index := w64 i, parent := rg.task.tid, depth := rg.task.depth + 1, epoch := own.elim {} (·.epoch)
      arg := c.arg, views := s.childViews c, bad := own.bind Task.badView, sfail := 0, st := c.st
      midx := own.elim c.midx (·.midx) })

/-- R313 TINFO. -/
def execTinfo (g : Guard) (d b : Reg) (s : State) : Out :=
  runSeq 1 g [b] s (fun v =>
    let x := v.q.getG b
    .ok (v.set (v.q.setG d (v.rg.ownTask.field (fld x 0 5) (fld x 5 4)))))
/-- R313 TINFO with immediate field and view. -/
def execTinfoSi (g : Guard) (d : Reg) (field : BitVec 5) (view : BitVec 4) (s : State) : Out :=
  runSeq 2 g [] s (fun v => .ok (v.set (v.q.setG d (v.rg.ownTask.field field.toNat view.toNat))))
/-- TINFO.CH: SFAIL is refused, an index that is no child's gives 2^63 + 6. -/
def Run.tinfoCh (v : Run) (d : Reg) (i : W64) (f w : Nat) : State :=
  let x := if f = 9 || 12 ≤ f then refused 3
    else match v.s.childTask v.rg i.toNat with
      | none => refused 6
      | some t => t.field f w
  v.set (v.q.setG d x)
/-- R313 TINFO.CH. -/
def execTinfoCh (g : Guard) (d a b : Reg) (s : State) : Out :=
  runSeq 1 g [a, b] s (fun v =>
    let x := v.q.getG b
    .ok (v.tinfoCh d (v.q.getG a) (fld x 0 5) (fld x 5 4)))
/-- R313 TINFO.CH with immediate field and view. -/
def execTinfoChSi (g : Guard) (d a : Reg) (field : BitVec 5) (view : BitVec 4) (s : State) : Out :=
  runSeq 2 g [a] s (fun v => .ok (v.tinfoCh d (v.q.getG a) field.toNat view.toNat))

end Sys2Proof.Machine
end

