-- ==== Sys2Proof/Machine/ViewMerge.lean ====
section
/-! DEFINITION. The view-merge engine and the placement of a child (11 R301 to R307, R314; 20 R441, R445; 15 R373,
R375). An event that its rule does not enable changes nothing (00 R10). -/
namespace Sys2Proof.Machine

/-! ### A merge at work -/

/-- A merge of region `r`: the view merged, its target, and the state. -/
structure Mw where
  r : Nat
  rg : Region
  m : Merge
  s : State
  v : View
  x : View

def Mw.done (w : Mw) : State := w.s.updRg w.r (fun rg => rg.setEpoch { rg.task.epoch with merge := some w.m })
/-- The child merged. -/
def Region.mergeChild (rg : Region) (m : Merge) : Option Child := m.src.bind (fun i => rg.task.epoch.children[i]?)
/-- The views a merge goes through: the child's, or the accumulated ones. -/
def Region.mergeFrom (rg : Region) (m : Merge) : Assoc View :=
  match m.src with
  | some _ => (rg.mergeChild m).elim [] (·.views)
  | none => rg.task.epoch.accs
def Region.mergeTo (rg : Region) (m : Merge) : Assoc View :=
  match m.src with
  | some _ => rg.task.epoch.accs
  | none => rg.task.views
/-- The number that stands for "no view left". -/
def viewsDone : Nat := 16
def nextView (l : Assoc View) (v : Nat) : Nat := (l.find? (fun (e : Nat × View) => v ≤ e.1)).elim viewsDone (·.1)

/-- The merge of region `r` at its view, where one is in progress and neither suspended nor waiting (R304, R314). -/
def State.mergeAt (s : State) (r : Nat) : Option Mw :=
  match s.rg? r with
  | none => none
  | some rg =>
    match rg.task.epoch.merge with
    | none => none
    | some m =>
      if m.faulted || m.remote.isSome || !rg.resident then none
      else match (rg.mergeFrom m).find m.v, (rg.mergeTo m).find m.v with
        | some v, some x => some { r := r, rg := rg, m := m, s := s, v := v, x := x }
        | _, _ => none

/-- Status bits are ORed into the target's word, and, for a final merge into the root's tile, into the region's
ACS (R302). -/
def Region.mergeStatus (rg : Region) (m : Merge) (f : Flags) : Region :=
  let rg := rg.updTarget m (fun x => { x with status := x.status ||| f })
  if m.src.isNone && rg.task.parent.isNone then rg.raise f else rg
def Mw.raise (w : Mw) (f : Flags) : Mw :=
  { w with s := w.s.updRg w.r (fun rg => rg.mergeStatus w.m f), x := { w.x with status := w.x.status ||| f } }

/-- A merge suspends at its element (R304): the merging task is Faulted, the trap is raised on the lead of the
target's task. -/
def State.mergeFault (s : State) (r : Nat) (m : Merge) (kind : Nat) (addr : W64) : State :=
  match s.rg? r with
  | none => s
  | some rg =>
    let e := rg.task.epoch
    let e : Epoch := { e with
      merge := some { m with faulted := true, remote := none }
      fm := if m.src.isNone then .faulted else e.fm
      children := match m.src with
        | some i => listUpd e.children i (fun c => { c with st := .faulted, midx := m.x })
        | none => e.children }
    let rg2 := rg.setEpoch e
    let rg3 := if m.src.isNone then { rg2 with task := { rg2.task with midx := m.x } } else rg2
    let t : TrapRec := { cause := 9, eaddr := addr
                         einfo := w64 (rg.mergeTid m % 2 ^ 32 * 2 ^ 32 + m.x % 2 ^ 24 * 2 ^ 8 + m.v % 16 * 2 ^ 4 + kind) }
    (s.setRg r rg3).raise r t .merge
/-- The region that runs a custom operator's block, freshly started on its page. -/
def operRegion (c : Nat) (b : Block) (pg : Nat × Nat) : Region :=
  ((({ ctx := c, nmem := 0, place := some pg } : Region).install ⟨[b], []⟩).start [1, 1, 1, 1])
/-- The residency whose task declared view `v` of region `r` (R311). -/
def State.declarer (s : State) : Nat → Nat → Nat → Option (Nat × Region)
  | 0, _, _ => none
  | n + 1, r, v =>
    match s.rg? r with
    | none => none
    | some rg =>
      match rg.task.views.find v with
      | none => none
      | some w => if w.inherited then rg.task.parent.bind (fun p => s.declarer n p.1 v) else some (r, rg)
/-- The page that the custom operator of a merge's target has (R311). -/
def Mw.page (w : Mw) : Option (Nat × Nat) :=
  (w.s.declarer 64 w.r w.m.v).bind (fun d => (d.2.task.views.find w.m.v).bind (·.page))
/-- A custom operator's block is stopped at a fault, and starts afresh when the merge continues. -/
def Mw.restOper (w : Mw) : Mw :=
  match w.m.cust, w.page, w.x.oper with
  | some id, some pg, some b => { w with s := w.s.setRg id { operRegion w.rg.ctx b pg with live := false } }
  | _, _, _ => w
def Mw.fault (w : Mw) (kind : Nat) (addr : W64) : State := w.restOper.done.mergeFault w.r w.m kind addr

/-! ### Elements -/

/-- The region whose banks hold the bank view of a merge: the child's own, or the parent's for a Taken child and for
the parent's own view. -/
def Mw.bankOf (w : Mw) (target : Bool) : Nat :=
  if target then w.r else ((w.rg.mergeChild w.m).bind (·.rid)).getD w.r

/-- What stops an element's access: the state it leaves. -/
abbrev MergeM (α : Type) := Except State α

/-- A translation of a merge's access: a fault suspends the merge, and a recoverable one writes its record first (R304,
R441; chapter 26). -/
def Mw.target (w : Mw) (va : W64) (k : AccK) : MergeM (Target × Mw) :=
  match xlate w.s w.rg.core w.rg.ctx va k with
  | .ok t =>
    -- a quiesced stack's accesses wait (R457)
    if t.local?.any w.s.quiesced then .error w.s else .ok (t, { w with s := w.s.cache w.rg.core w.rg.ctx va })
  | .error f =>
    if !f.recoverable then .error (w.fault 1 va)
    else
      let (s, id) := w.s.pause w.r w.rg va f k .merge { cause := 3 }
      .error (({ w with s := s, m := { w.m with rec_ := some id } } : Mw).fault 1 va)

/-- Element `i` of a view is read; an uncorrectable error suspends the merge. -/
def Mw.read (w : Mw) (target : Bool) (i : Nat) : MergeM (Nat × Mw) :=
  let v := if target then w.x else w.v
  let n := v.z
  match v.loc with
  | .bank a =>
    match w.s.rg? (w.bankOf target) with
    | none => .error (w.fault 3 (w64 (2 ^ 62 + a + i * n)))
    | some rg =>
      if rg.bankBad (a + i * n) n then .error (w.fault 3 (w64 (2 ^ 62 + a + i * n)))
      else .ok (leNat (bankPeek rg.bank (a + i * n) n), w)
  | .flat a =>
    let va := a + w64 (i * n)
    match w.target va (if target then .atomic else .read) with
    | .error s => .error s
    | .ok (.loc pa _, w) =>
      if w.s.poisonedAt pa n then .error (w.fault 3 va) else .ok (leNat (w.s.peekN (w.s.keyOf w.rg.ctx) pa n), w)
    | .ok (.rem _ _ _ _ _, w) =>
      let j := w.s.freeIx * 65536 + i % 32768 + (if target then 32768 else 0)
      if Config.choice j then .error (w.fault 1 va) else .ok ((Config.remoteWord j).toNat % 2 ^ (8 * n), w)
  | .fibre a => .error (w.fault 2 a)

/-- Element `x` of the target is written; on a remote node the update is sent and awaited (R302, R390). -/
def Mw.write (w : Mw) (val : Nat) : MergeM Mw :=
  let n := w.x.z
  let next := fun (w : Mw) => { w with m := { w.m with x := w.m.x + 1, gave := w.m.gave.tail } }
  match w.x.loc with
  | .bank a => .ok (next { w with s := w.s.updRg w.r (fun rg => rg.bankWrite (a + w.m.x * n) (leBytes n val)) })
  | .flat a =>
    let va := a + w64 (w.m.x * n)
    match w.target va .atomic with
    | .error s => .error s
    | .ok (.loc pa _, w) => .ok (next { w with s := w.s.write (w.s.keyOf w.rg.ctx) pa (leBytes n val) })
    | .ok (.rem rn ch rod ra _, w) =>
      let (s, id) := w.s.sendRemote { kind := .merge, ctx := w.rg.ctx, rid := w.r, rnode := rn, chan := ch, rod := rod
                                      addr := ra, va := va, bytes := leBytes n val }
      .error ({ w with s := s, m := { w.m with remote := some id } } : Mw).done
  | .fibre a => .error (w.fault 2 a)

/-- A view whose elements are all done gives way to the next; its own status bits go into the target's word. -/
def Mw.settle (w : Mw) : State :=
  if w.m.x < w.v.count || w.m.cust.isSome then w.done
  else
    let w := w.raise w.v.status
    ({ w with m := { w.m with v := nextView (w.rg.mergeFrom w.m) (w.m.v + 1), x := 0, fed := 0 } } : Mw).done
/-- A value is written at the element, and the merge goes on; the status bits of an update sent away wait for its answer. -/
def Mw.put (w : Mw) (val : Nat) (f : Flags) : State :=
  match ({ w with m := { w.m with owe := f } } : Mw).write val with
  | .error s => s
  | .ok w => (w.raise f).settle

/-- An operator of R298 on one element. -/
def Mw.combineOne (w : Mw) : State :=
  match w.read false w.m.x with
  | .error s => s
  | .ok (v, w) =>
    match w.read true w.m.x with
    | .error s => s
    | .ok (e, w) =>
      let (x, f) := combine w.x.fmt w.x.op e v
      w.put x f

/-! ### Fibre merge (R302, R266) -/

/-- No operation waits at or scans a fibre. -/
def State.fibreIdle (s : State) (key : Nat) : Bool :=
  !s.fops.any (fun e => e.2.key = key && (e.2.st = .waiting || e.2.st = .held || e.2.st = .scanning))
/-- One FMERGE of the view's pairs into the target fibre, then FCLEAR of the view fibre. -/
def Mw.fibre (w : Mw) : State :=
  match w.v.loc, w.x.loc with
  | .fibre va, .fibre xa =>
    let c := w.rg.ctx
    let vf := w.s.fibreAt c va
    if !w.s.fibreIdle (fibreKey c va) || !w.s.fibreIdle (fibreKey c xa) then w.done
    else if vf.bad || vf.segs.any (·.bad) then w.fault 3 va
    else match w.s.poolAt c xa with
      | none => w.fault 2 0
      | some p =>
        let st := homeStackOf (fibrePoolNo xa) (fibreIndex xa)
        let xf := w.s.fibreAt c xa
        let r := fibrePlan p.fmt p.op p.cap (p.perStack - p.used.get st 0) (p.nextSeg.get st 0) xf.segs (vf.segs.flatMap (·.pairs)) false
        if r.status != 0 || xf.bad then w.fault 2 0
        else
          let s : State := { w.s with pools := w.s.pools.upd (poolKey c xa) (fun p =>
            { p with nextSeg := p.nextSeg.put st (p.nextSeg.get st 0 + r.fresh) }) }
          let w : Mw := { w with s := (s.setChain c xa r.segs r.touched).setChain c va [] [], m := { w.m with x := w.m.x + 1 } }
          (w.raise r.flags).settle
  | _, _ => w.fault 2 0

/-! ### Custom operators (R302, R311) -/

/-- An operator whose page has been withdrawn, or given up in a snapshot, is reserved another as VDECL does, once there is
one within the quota (R311, R412; notes/assumptions/137.md). -/
def Mw.findPage (w : Mw) : State :=
  match w.s.declarer 64 w.r w.m.v with
  | none => w.done
  | some (d, rg) =>
    match (if (w.s.ctx? rg.ctx).elim 0 (·.pageq) ≤ w.s.pagesOf rg.ctx then none else w.s.bestRun (List.range coreCount) 1) with
    | none => w.done
    | some (c, pg) =>
      let s := ((w.s.holdPage c pg .reserved d rg).wakeCore c).updRg d (fun rg => { rg with task := { rg.task with
        views := rg.task.views.upd w.m.v (fun x => { x with page := some (c, pg) }) } })
      ({ w with s := s } : Mw).done
/-- The operator's page is taken and its block started; while another merge runs on the page, or its core wakes, nothing
happens. -/
def Mw.openOper (w : Mw) : State :=
  match w.page, w.x.oper with
  | none, some _ => w.findPage
  | some pg, some b =>
    if (w.s.page pg.1 pg.2).st != .reserved || (w.s.core pg.1).waking then w.done
    else
      let id := w.s.nextId
      let s : State := { w.s with nextId := id + 1, regions := w.s.regions.put id (operRegion w.rg.ctx b pg) }
      let s := s.setPage pg.1 pg.2 { s.page pg.1 pg.2 with st := .running }
      ({ w with s := s, m := { w.m with cust := some id, fed := w.m.x, gave := [] } } : Mw).done
  | _, _ => w.fault 2 0
/-- The operator has ended: its page is Reserved again (R412). -/
def Mw.closeOper (w : Mw) (id : Nat) : Mw :=
  let s : State := { w.s with regions := w.s.regions.del id }
  let s := match w.page with
    | some pg => if (s.page pg.1 pg.2).st = .running then s.setPage pg.1 pg.2 { s.page pg.1 pg.2 with st := .reserved } else s
    | none => s
  { w with s := s, m := { w.m with cust := none } }
/-- Reading an element to stream waits until the elements before it are applied, so that a fault finds them so; and one is
streamed once the block has done all it can with those before it, so that the status bits it raises are that element's
(R302). -/
def Mw.feedOper (w : Mw) (cr : Region) (id : Nat) : State :=
  let send := fun (s : State) (a b : Token) => s.updRg id (fun rg => (rg.feed 0 a).feed 1 b)
  if !(cr.inPort 0).room || !(cr.inPort 1).room || !w.s.still id cr then w.done
  else if w.m.fed = w.v.count then ({ w with s := send w.s eosToken eosToken, m := { w.m with fed := w.m.fed + 1 } } : Mw).done
  else if w.v.count < w.m.fed then w.done
  else
    match w.read false w.m.fed with
    | .error s => if w.m.fed = w.m.x then s else w.done
    | .ok (v, w1) =>
      match w1.read true w.m.fed with
      | .error s => if w.m.fed = w.m.x then s else w.done
      | .ok (e, w2) => ({ w2 with s := send w2.s { val := w64 e } { val := w64 v }, m := { w2.m with fed := w2.m.fed + 1, gave := w2.m.gave ++ [e] } } : Mw).done

/-- The block starts again at the element where the merge stands (R304). -/
def Mw.again (w : Mw) (id : Nat) : State :=
  match w.page, w.x.oper with
  | some pg, some b => ({ w with s := w.s.setRg id (operRegion w.rg.ctx b pg), m := { w.m with fed := w.m.x, gave := [] } } : Mw).done
  | _, _ => w.fault 2 0
/-- The target's element still holds what the block was given of it, so that reading and writing it is one update (R302);
a remote node sees to that itself. -/
def Mw.unchanged (w : Mw) : Bool :=
  match w.x.loc, w.m.gave.head? with
  | .bank a, some e => e = (w.s.rg? w.r).elim e (fun rg => leNat (bankPeek rg.bank (a + w.m.x * w.x.z) w.x.z))
  | .flat a, some e =>
    match xlate w.s w.rg.core w.rg.ctx (a + w64 (w.m.x * w.x.z)) .atomic with
    | .ok (.loc pa _) => e = leNat (w.s.peekN (w.s.keyOf w.rg.ctx) pa w.x.z)
    | _ => true
  | _, _ => true
/-- One step of a custom merge: a token the block has emitted is written back, else an element is streamed. Where another
agent has stored to the element since it was streamed, that store comes before the update, which is made again (R302). A
trap in the block suspends the merge once the tokens ahead of it have been written back (R304, R430); an element past the
last that TRESUME skips ends the view (R312). -/
def Mw.custom (w : Mw) : State :=
  match w.m.cust with
  | none => if w.v.count < w.m.x then w.settle else w.openOper
  | some id =>
    if w.v.count < w.m.x then (w.closeOper id).settle
    else match w.s.rg? id with
    | none => w.openOper
    | some cr =>
      if !cr.live && !cr.faulted then w.again id
      else
        let out := cr.outPort 2
        match out.q with
        | [] => if !cr.faulted then w.feedOper cr id else if w.s.still id cr then w.fault 2 0 else w.done
        | t :: rest =>
          let took : Mw := { w with s := w.s.setRg id { cr.setOut 2 { out with q := rest } with acs := 0 } }
          if t.eos then
            (if w.m.x = w.v.count then ((took.raise cr.acs).closeOper id).settle else w.fault 2 0)
          else if w.v.count ≤ w.m.x || t.psn then w.fault 2 0
          else if t.bub then (({ took with m := { took.m with x := took.m.x + 1, gave := took.m.gave.tail } } : Mw).raise cr.acs).settle
          else if !w.unchanged then w.again id
          else took.put (if t.inv then 0 else t.val.toNat) (cr.acs ||| (if t.inv then fInvalid else 0))

/-! ### The events -/

/-- The child whose turn it is (R301): the first that is not Merged or Discarded. -/
def Epoch.turn (e : Epoch) : Option (Nat × Child) :=
  ((List.range e.children.length).zip e.children).find? (fun (x : Nat × Child) => !x.2.st.settled)

/-- VIEW_MERGE_START (R301): the first unsettled child, when Ended, starts to merge; with none left, a final merge that
TSYNC asked for does. -/
def execViewMergeStart (r : Nat) (s : State) : Out :=
  match s.rg? r with
  | none => .next s
  | some rg =>
    let e := rg.task.epoch
    if e.merge.isSome || !rg.resident then .next s
    else match e.turn with
      | some (i, c) =>
        if c.st != .ended then .next s
        else .next (s.setRg r (rg.setEpoch { e with
          children := listUpd e.children i (fun c => { c with st := .merging })
          merge := some { src := some i, v := nextView c.views 0 } }))
      | none =>
        if e.fm != .running then .next s
        else .next (s.setRg r (rg.setEpoch { e with merge := some { src := none, v := nextView e.accs 0 } }))

/-- VIEW_MERGE_ELEMENT (R302): one element of the view at hand is merged. -/
def execViewMergeElement (r : Nat) (s : State) : Out :=
  match s.mergeAt r with
  | none => .next s
  | some w =>
    if w.v.count ≤ w.m.x && w.m.cust.isNone then .next w.settle
    else match w.x.op with
      | 12 => .next w.fibre
      | 13 => .next w.custom
      | _ => .next w.combineOne

/-- The lead of a region takes the wake that TASK names (R132, R303). -/
def Region.taskWake (rg : Region) : Region :=
  { rg with seqs := listUpd rg.seqs 0 (fun q => if bit q.monmask 1 then q.wake else q) }

/-- VIEW_MERGE_COMPLETE (R303): with no view left the merge completes as a release; a final merge closes the epoch
(R295). -/
def execViewMergeComplete (r : Nat) (s : State) : Out :=
  match s.rg? r with
  | none => .next s
  | some rg =>
    match rg.task.epoch.merge with
    | none => .next s
    | some m =>
      if m.faulted || m.remote.isSome || !rg.resident || m.v < viewsDone then .next s
      else
        let e := rg.task.epoch
        let e2 : Epoch := match m.src with
          | some i => { e with merge := none, children := listUpd e.children i (fun c => { c with st := .merged, views := [] }) }
          | none => {}
        .next ((s.bump r).updRg r (fun rg => (rg.setEpoch e2).taskWake))

/-! ### The answer to a remote update (R390, R420) -/

/-- A remote view-merge update is acknowledged: the element is done, and the status bits it raised count. -/
def State.mergeAck (s : State) (r : Nat) : State :=
  match s.rg? r with
  | none => s
  | some rg =>
    match rg.task.epoch.merge with
    | none => s
    | some m =>
      let m := { m with remote := none, x := m.x + 1, gave := m.gave.tail }
      match (rg.mergeFrom m).find m.v, (rg.mergeTo m).find m.v with
      | some v, some x =>
        (({ r := r, rg := rg, m := m, s := s, v := v, x := x } : Mw).raise m.owe).settle
      | _, _ => s
/-- A remote update has failed: the merge suspends with KIND 1. -/
def State.mergeLost (s : State) (r : Nat) (va : W64) : State :=
  match s.rg? r with
  | none => s
  | some rg =>
    match rg.task.epoch.merge with
    | none => s
    | some m => s.mergeFault r m 1 va

/-! ### Placement of a child (R296, R306) -/

/-- The residency of a placed child, before its load. -/
def childRegion (rg : Region) (r i : Nat) (c : Child) (d : List W64) (id : Nat) : Region :=
  { ((({ ctx := rg.ctx, st := .loading } : Region)).ofDesc d) with
    arg := c.arg, gid := some id
    task := { tid := c.tid, depth := rg.task.depth + 1, parent := some (r, i), ptid := rg.task.tid, arg := c.arg, views := c.views } }

/-- A child's load is refused: it is Discarded, and a retire record of its own carries the refusal (R306, R373). -/
def State.refuseChild (s : State) (c : Nat) (r i : Nat) (rra : W64) (code idx : Nat) : State :=
  let s := s.updChild r i (fun x => { x with st := .discarded, views := [] })
  if rra = 0 then s
  else
    let l := ({ ctx := c } : Region).retireRec 1 code idx
    (s.storeRetireTail 0 c rra l).storeRetireHead 0 c rra l

/-- RRA of a residency descriptor, where it can be read and keeps R369; else 0. -/
def readRra (rd : Rd Unit) (a : W64) : W64 :=
  if a.toNat % 64 != 0 then 0
  else match rd (a + 32) 8 with
    | .ok x => if x % 64 = 0 then w64 x else 0
    | .error _ => 0

/-- CHILD_PLACED (R306): the allocator places Pending child `i` of region `r`, and its load begins, in a group of its own; a
residency descriptor that R369 refuses makes it Discarded at once. Where the load is refused, its residency retires and the
child is Discarded (R373, R376). -/
def execChildPlaced (r i : Nat) (s : State) : Out :=
  match s.rg? r with
  | none => .next s
  | some rg =>
    match rg.task.epoch.children[i]?, s.ctx? rg.ctx with
    | some c, some x =>
      if c.st != .pending || x.st != .active || x.becoming.isSome then .next s
      else match readResidency (devRead s rg.ctx) c.kdesc with
        | .error (code, idx) => .next (s.refuseChild rg.ctx r i (readRra (devRead s rg.ctx) c.kdesc) code idx)
        | .ok d =>
          let id := s.nextId
          let nr := { childRegion rg r i c d (id + 1) with st := .loading }
          let w := s.boundsOf (s.launchOf 64 rg)
          match s.bestRun (s.coresFor w.aff nr.erg w.set) (nr.pm1 + 1) with
          | none => .next s
          | some (core, first) =>
            if x.pageq < s.pagesOf rg.ctx + nr.pm1 + 1 || x.slots ≤ s.slotsOf rg.ctx then .next s
            else
              let g : Group := { st := .loading, members := [id], from_ := none, since := s.freeIx }
              let s : State := { s with nextId := id + 2, regions := s.regions.put id nr, groups := s.groups.put (id + 1) g }
              .next ((s.takePlace id core first w.ctr true).updChild r i (fun c => { c with st := .running, rid := some id }))
    | _, _ => .next s

end Sys2Proof.Machine
end

