-- ==== Sys2Proof/Machine/Remote.lean ====
section
/-! DEFINITION. The outcome of a remote access reaches the agent that waits for it (12 R333; 16 R390; 19 R420; 20 R438,
R441). -/
namespace Sys2Proof.Machine

/-- The walk detail's reason of a remote access that failed (R438). -/
def remoteFault : XFault := ⟨8, 0, 0⟩

/-! ### Sequencers -/

/-- The sequencer goes on past the instruction it waited at. -/
def Seq.resume (q : Seq) (len : Nat) : Seq := { q with wait := none, pc := q.pc + w64 (4 * len) }
/-- The numbers of the remote accesses a sequencer's wait names. -/
def SeqWait.ids : SeqWait → List Nat
  | .ld id _ _ _ | .amo id _ _ _ | .testseq id _ _ _ | .barinit id _ _ _ | .bararr id _ _ | .bartest id _ _ _
  | .chaint id _ _ | .qpop id _ _ => [id]
  | .fenceSys l => l
/-- How a wait reads or writes, for the walk detail. -/
def SeqWait.acc : SeqWait → AccK
  | .ld _ _ _ _ | .testseq _ _ _ _ | .bartest _ _ _ _ => .read
  | .fenceSys _ | .qpop _ _ _ => .write
  | .amo _ _ _ _ | .barinit _ _ _ _ | .bararr _ _ _ | .chaint _ _ _ => .atomic

/-- The old or loaded value `x` reaches the waiting instruction (R127, R135, R179, R182, R390): the registers it leaves,
and whether it acquires (R317). -/
def Seq.receive (q : Seq) (w : SeqWait) (x : W64) : Seq × Bool :=
  match w with
  | .ld _ d ty n | .amo _ d ty n =>
    ({ (q.resume n).setG d (tyExtend ty (x.toNat % 2 ^ (8 * tySize ty))) with lastTag := some {}, armed := none }, false)
  | .testseq _ p v n => ({ (q.resume n).setP p (reached x v) with lastTag := none, armed := none }, reached x v)
  | .barinit _ p k n => ((barinitStep p k x (q.resume n)).q, false)
  | .bararr _ d n => ((bararrStep d x (q.resume n)).q, false)
  | .bartest _ p ph n => ((q.resume n).setP p (barPassed ph x), barPassed ph x)
  | .chaint _ p n => ((chaintStep p 0 x (q.resume n)).q, false)
  | .qpop _ p n => ((q.resume n).setP p true, false)
  | .fenceSys _ => (q, false)

/-- Whether the step of a remote object that has answered with the old dword `x` was a release (R317, R401). -/
def SeqWait.releases (w : SeqWait) (x : W64) : Bool :=
  match w with
  | .chaint _ _ _ => true
  | .bararr _ _ _ => barCnt x != 0
  | _ => false

/-- A remote store has been acknowledged, or given up: a FENCE at SYS that waited for it and no other completes, and so does
the QPOP that sent it (R128, R180, R333, R420). -/
def Seq.acked (q : Seq) (id : Nat) : Seq :=
  match q.wait with
  | some (.qpop i p n) => if i = id then (q.receive (.qpop i p n) 0).1 else { q with remotes := q.remotes.filter (· != id) }
  | _ =>
  { q with
    remotes := q.remotes.filter (· != id)
    wait := match q.wait with
      | some (.fenceSys l) => if (l.filter (· != id)).isEmpty then none else some (.fenceSys (l.filter (· != id)))
      | w => w }

/-- The outcome of an access that a sequencer waits for: its value, or the translation trap at the instruction. -/
def State.seqReply (s : State) (id : Nat) (x : Remote) : State :=
  match s.seq? x.rid x.pg with
  | none => s
  | some q =>
    match q.wait with
    | none => s
    | some w =>
      if !w.ids.contains id then s
      else match x.result with
        | some v =>
          let (q2, acq) := q.receive w v
          let s := if acq then s.acquireAll x.rid else s
          let s := if w.releases v then s.bump x.rid else s
          s.setSeq x.rid x.pg q2
        | none => (s.setSeq x.rid x.pg { q with wait := none }).trap x.rid x.pg q.pc (xlateTrap x.va remoteFault w.acc)

/-! ### Records of failed stores -/

/-- A KIND 0x02 record of a store that failed (R420, R442). -/
def State.storeLost (s : State) (x : Remote) (t : TrapRec) (src : Src) : State :=
  match s.rg? x.rid with
  | none => s
  | some rg => (s.faultRecord rg.ctx
      (s.recordOf rg 2 3 remoteFault.reason AccK.write.code x.va t.ecause (remoteFault.detail .write) src 0 0)).1

/-! ### Delivery -/

def State.dropRemote (s : State) (id : Nat) : State := { s with remotes := s.remotes.del id }

/-- A node takes the outcome of its position: a value or an acknowledgement; the failure of a load or atomic traps at
the position, once the earlier ones have completed; that of a store is recorded. -/
def State.nodeReply (s : State) (id : Nat) (x : Remote) : State :=
  match s.nodeAt x.rid x.blk x.nidx with
  | none => s.dropRemote id
  | some d =>
    match x.result with
    | some v => (d.answerPos x.i v).done.dropRemote id
    | none =>
      if x.kind = .nodeSt then
        let t : TrapRec := { cause := 3, node := true, blk := x.blk, nidx := x.nidx, dune := d.cfg.dune, iter := x.i }
        ((d.answerPos x.i 0).done.storeLost x t (.node (d.cfg.dune / 8))).dropRemote id
      else match d.st.pend.findIdx? (fun p => p.num = x.i && p.remote.isSome) with
        | none => s.dropRemote id
        | some i =>
          if d.st.stopped.isSome then s
          else match d.trapPos i 3 x.va (remoteFault.detail d.v.memKind.acc) with
            | none => s
            | some d => (d.updPos i (fun p => { p with remote := none })).done.dropRemote id

/-- A fibre operation's record dword stands on the remote node, or its write has failed, as one whose address does not
translate (R441). -/
def State.fopReply (s : State) (id : Nat) (x : Remote) : State :=
  match s.fops.find x.i with
  | none => s.dropRemote id
  | some o =>
    if x.failed then
      let s2 := (s.putFop x.i { o with remote := none }).trapFop x.i { o with remote := none } 3 x.va (remoteFault.detail .write)
      if ((s2.fops.find x.i).elim false (·.trapped)) then s2.dropRemote id else s
    else (s.putFop x.i { o with remote := none, stage := o.stage + 1 }).dropRemote id

/-- An Erg record's dword stands, or its write has failed and the record is dropped (R282). -/
def State.ergReply (s : State) (id : Nat) (x : Remote) : State :=
  (s.updRg x.rid (fun rg =>
    match rg.ergq.entries with
    | [] => rg
    | c :: _ =>
      if c.remote != some id then rg
      else if x.failed || c.half then rg.ergPop
      else rg.ergHead { c with remote := none, half := true })).dropRemote id

/-- A resolved remote access is delivered, when its residency is resident (R390). Engines take theirs at their next
element. -/
def State.deliver (s : State) (id : Nat) : State :=
  match s.remotes.find id with
  | none => s
  | some x =>
    if x.result.isNone && !x.failed then s
    else if x.kind = .dev then (s.dropRemote id).payOwed x.blk (s.owed.length + 1)
    else if x.kind = .engine then s
    else match s.rg? x.rid with
      | none => s.dropRemote id
      | some rg =>
        if rg.st = .retired then s.dropRemote id
        else if !rg.resident then s
        else match x.kind with
          | .ld | .amo | .barrier => (s.dropRemote id).seqReply id x
          | .st =>
            let s := (s.dropRemote id).updSeq x.rid x.pg (fun q => q.acked id)
            if x.failed then s.storeLost x { cause := 3 } (.seq x.pg) else s
          | .nodeLd | .nodeSt | .nodeAtom => s.nodeReply id x
          | .merge => if x.failed then (s.dropRemote id).mergeLost x.rid x.va else (s.dropRemote id).mergeAck x.rid
          | .fibreRec => s.fopReply id x
          | .ergRec => s.ergReply id x
          | .engine | .dev => s

/-- Every resolved access of a residency that has been restored is delivered (R390). -/
def State.deliverAll (s : State) (r : Nat) : State :=
  s.remotes.foldl (fun (s : State) (e : Nat × Remote) => if e.2.rid = r then s.deliver e.1 else s) s

/-- REMOTE_ACK (R333, R390, R421): the target's acknowledgement or reply arrives, once, by a port that carries traffic
(R427). One that could not be delivered
when it came is delivered now. -/
def execRemoteAck (id : Nat) (value : W64) (s : State) : Out :=
  match s.remotes.find id with
  | none => .next s
  | some x =>
    if x.result.isSome || x.failed then .next (s.deliver id)
    else if !s.ports.any Port.carries then .next s
    else .next (({ s with remotes := s.remotes.put id { x with result := some value } } : State).deliver id)

/-- REMOTE_RETRY_EXHAUSTED (R420): the channel's retry budget is spent, and the access has failed. -/
def execRemoteRetryExhausted (id : Nat) (s : State) : Out :=
  match s.remotes.find id with
  | none => .next s
  | some x =>
    if x.result.isSome || x.failed then .next (s.deliver id)
    else .next (({ s with remotes := s.remotes.put id { x with failed := true } } : State).deliver id)

end Sys2Proof.Machine
end

