-- ==== Sys2Proof/Machine/Group.lean ====
section
/-! DEFINITION. Residencies and groups: load, drain, retirement, clone sets, haboob snapshot and restore (15 R373 to
R381; 16 R383 to R395; 10 R278; 13 R349). An event that its rule does not enable changes nothing (00 R10). -/
namespace Sys2Proof.Machine

def State.group? (s : State) (gid : Nat) : Option Group := s.groups.find gid
def State.updGroup (s : State) (gid : Nat) (f : Group → Group) : State := { s with groups := s.groups.upd gid f }
/-- The members that have not retired (R383). -/
def State.liveOf (s : State) (g : Group) : List (Nat × Region) :=
  g.members.filterMap (fun m => match s.rg? m with
    | some rg => if rg.st = .retired then none else some (m, rg)
    | none => none)

/-! ### Load (R374 to R376) -/

/-- The loads of a group's members, validated at `t0`, in order: images, or the first refusal with its member; each word
is what it was then or newer (R112, R374). -/
def loadAll (s : State) (t0 : Nat) : List (Nat × Region) → Except (Nat × Nat × Nat) (List (Nat × Image))
  | [] => .ok []
  | (r, rg) :: t =>
    match loadImage (devReadSince s rg.ctx t0) rg with
    | .error (c, i) => .error (r, c, i)
    | .ok im =>
      match loadAll s t0 t with
      | .error e => .error e
      | .ok l => .ok ((r, im) :: l)

/-- A child's bank views hold their identity before it starts (R300). -/
def Region.fillViews (rg : Region) : Region := rg.task.views.foldl (fun (n : Region) (w : Nat × View) => n.fillBank w.2) rg

/-- LOAD_COMPLETE (R376, R394): every member's load has completed; the sequencers start, or, where one is refused,
every member ends without running, with that refusal in its record (R379). -/
def execLoadComplete (gid : Nat) (s : State) : Out :=
  match s.group? gid with
  | none => .next s
  | some g =>
    if g.st != .loading || g.members.any s.asleep then .next s
    else match loadAll s g.since (s.liveOf g) with
      | .error (bad, c, i) =>
        let s1 := s.updGroup gid (fun g => { g with refused := g.members.findIdx? (· = bad) })
        let s' := g.members.foldl (fun (s : State) r => s.retire r 1 c i) s1
        .next (match s.groupCtx g with | some x => s'.settle x | none => s')
      | .ok l =>
        let s := l.foldl (fun (s : State) (e : Nat × Image) => (s.startMember e.1 e.2).updRg e.1 Region.fillViews) s
        .next ({ s with selfRefresh := [] }.updGroup gid (fun g => { g with st := .running }))

/-! ### Draining and retirement (R376 to R379) -/

/-- CONFIG_DRAINED (R376, R381): a running configuration that has drained gives up its clone sets and leaves the region
Armed, or goes on Draining. -/
def execConfigDrained (r : Nat) (s : State) : Out :=
  match s.rg? r with
  | none => .next s
  | some rg =>
    if !rg.live || !rg.resident || !s.drained r rg then .next s
    else .next ((s.setRg r { rg with live := false, st := if rg.st = .draining then .draining else .armed }).freeClones r)

/-- A remote access that a residency has sent has neither been answered nor failed. -/
def State.unperformed (s : State) (r : Nat) : Bool :=
  s.remotes.any (fun (e : Nat × Remote) => e.2.rid = r && e.2.kind != .dev && e.2.result.isNone && !e.2.failed)
/-- The retire condition (R378), with every access the residency has made performed (R397). One that a trap abandoned waits
for nothing else but its epoch: what is left of its configuration, commands and operations ends with it (R307, R376, R433).
One may retire while other members of its group are snapshotted (R395). -/
def State.mayRetire (s : State) (r : Nat) (rg : Region) : Bool :=
  rg.st = .draining
  && (rg.resident || (rg.snap && (rg.gid.bind s.groups.find).elim false (fun g =>
    g.members.any (fun m => m != r && (s.rg? m).elim false (fun x => x.st != .retired)))))
  && (rg.faulted || (!rg.live && rg.eqs.all (fun q => q.entries.isEmpty) && rg.ergq.entries.isEmpty
    && !s.fops.any (fun (e : Nat × FOp) => e.2.rid = r)))
  && rg.cloneSets.isEmpty && !s.unperformed r
  && rg.task.epoch.children.isEmpty && rg.task.epoch.fm = .none
  && rg.seqs.all (fun q => q.remotes.isEmpty && q.stores.isEmpty && q.wait.isNone)

/-- RESIDENCY_RETIRE (R378, R379): dwords 1 to 7 of the record first, then dword 0, with which the residency retires. -/
def execResidencyRetire (r : Nat) (s : State) : Out :=
  match s.rg? r with
  | none => .next s
  | some rg =>
    if !s.mayRetire r rg || s.devBusy (8192 + r) then .next s
    else if rg.rra != 0 && !rg.recHalf then
      .next ((s.storeRetireTail r rg.ctx rg.rra (rg.retireRec (if rg.faulted then 6 else 0) 0 0)).updRg r (fun rg => { rg with recHalf := true }))
    else
      let left := ((List.range 8).zip rg.eqs).flatMap (fun q => q.2.cmds.map (fun c => (q.1, c.seq)))
      let s : State := { s with
        fops := s.fops.filter (fun (e : Nat × FOp) => e.2.rid != r)
        regions := s.regions.map (fun (e : Nat × Region) => (e.1, left.foldl (fun (g : Region) x => g.gone r x.1 x.2) e.2)) }
      let s := s.retire r (if rg.faulted then 6 else 0) 0 0
      .next (s.settle rg.ctx)

/-! ### Clone sets (R380, R381) -/

/-- CLONE_WINDOW (R380): a node whose count has reached 49,152 in its window gets a clone set, on pages borrowed from
its core, and a window of 65,536 cycles that has passed gives way to the next. The copies compute what the node computes
(R188), so only their pages are state. -/
def execCloneWindow (r b n : Nat) (s : State) : Out :=
  match s.rg? r with
  | none => .next s
  | some rg =>
    let st := rg.nodes.get (128 * b + n) {}
    if !rg.live || !rg.resident || (st.win < windowLen && st.press < 49152) then .next s
    else
      let s1 := if st.win < windowLen then s
        else s.setRg r { rg with nodes := rg.nodes.put (128 * b + n) { st with win := 0, press := 0 } }
      let free := (List.range 12).filter (fun p => (s.page rg.core p).st = .free)
      let quota := (s.ctx? rg.ctx).elim 0 (fun x => x.pageq - s.pagesOf rg.ctx)
      let most := min 3 (min free.length quota)
      if st.press < 49152 || rg.cloneSets.any (fun (x : Nat × Nat × List (Nat × Nat)) => x.1 = b && x.2.1 = n)
          || 4 ≤ rg.cloneSets.length || most = 0 then .next s1
      else
        let k := 1 + Config.pick (s.freeIx * 65536) % most
        let ps := (free.take k).map (fun p => (rg.core, p))
        let s2 := ps.foldl (fun (s : State) (p : Nat × Nat) => s.holdPage p.1 p.2 .spare r rg) s1
        .next (s2.updRg r (fun rg => { rg with cloneSets := rg.cloneSets ++ [(b, n, ps)], clones := min 255 (rg.clones + 1) }))

/-- A page that a residency has borrowed for its clone sets. -/
def Region.borrows (rg : Region) (core p : Nat) : Bool := rg.cloneSets.any (fun (x : Nat × Nat × List (Nat × Nat)) => x.2.2.contains (core, p))
/-- The allocator needs a page that a residency has borrowed: a group that holds the claim, or an activation's, would be placed
on one were every clone set dissolved, or an activation makes room on one (R363, R381, R415). -/
def State.wantsBorrowed (s : State) (rg : Region) : Bool :=
  let free := (s.regions.map (·.1)).foldl State.freeClones s
  let takes := fun (x : Rank) => match x.what with
    | .group gid g =>
      (s.placeGroup gid g (s.openDies x)).isNone && (free.placeGroup gid g (free.openDies x)).any (fun t =>
        (t.liveOf g).any (fun e => e.2.place.isSome && (List.range (e.2.pm1 + 1)).any (fun i => rg.borrows e.2.core (e.2.first + i))))
    | .record _ => false
  s.ranking.any (fun x => (x.act.isSome || s.claim.any (fun y => y.q = x.q)) && takes x)
  || s.pressRuns.any (fun e => (List.range e.2.2).any (fun i => rg.borrows e.1 (e.2.1 + i)))

/-- CLONE_DISSOLVE (R381): the clone sets of a configuration that has stopped or is being snapshotted, or of which the
allocator needs a page, are dissolved. -/
def execCloneDissolve (r : Nat) (s : State) : Out :=
  match s.rg? r with
  | none => .next s
  | some rg =>
    if rg.live && !rg.faulted && !rg.snap && !s.wantsBorrowed rg then .next s else .next (s.freeClones r)

/-! ### The snapshot (R385 to R388, R394, R395) -/

/-- What pre-emption does to a sequencer that waits (R115, R390): a load that has been sent is abandoned and
executes again, its reply discarded; a store, an atomic and a barrier step stay pending. -/
def Seq.interrupt (q : Seq) : Seq × List Nat :=
  let q := q.endSleep
  match q.wait with
  | some (.ld id _ _ _) | some (.testseq id _ _ _) => ({ q with wait := none }, [id])
  | _ => (q, [])

/-- The pages that a residency's custom operators hold (R311). -/
def Region.operPages (rg : Region) : List (Nat × Nat) :=
  rg.task.views.filterMap (fun (e : Nat × View) => if e.2.inherited then none else e.2.page)
/-- The snapshot of a member begins: its sequencers stop, the Erg array starts to be saved, a page on which a custom operator
of its runs is Snapshotting or, for a move, Moving (R412). -/
def State.beginSnap (s : State) (r : Nat) (why : Preempt) : State :=
  match s.rg? r with
  | none => s
  | some rg =>
    let s := rg.operPages.foldl (fun (s : State) (p : Nat × Nat) =>
      if (s.page p.1 p.2).st = .running then s.setPage p.1 p.2 { s.page p.1 p.2 with st := if why = .move then .moving else .snapshotting }
      else s) s
    let s := s.drainAll r rg.seqs.length
    let qs := ((s.rg? r).elim [] (·.seqs)).map Seq.interrupt
    let s := s.updRg r (fun rg => { rg with snap := true, recHalf := false, back := rg.st, seqs := qs.map (·.1) })
    let s : State := { s with
      remotes := s.remotes.filter (fun (e : Nat × Remote) => !(qs.any (fun q => q.2.contains e.1)))
      cores := s.cores.map (fun (e : Nat × Core) =>
        if e.2.erg.owner = some r && e.2.erg.st = .owned then (e.1, { e.2 with erg := { e.2.erg with st := .saving } }) else e) }
    s

/-- A child whose load is abandoned is Pending again; its residency is made anew when it is placed (R376). -/
def State.unplaceChild (s : State) (r : Nat) (rg : Region) : State :=
  match rg.task.parent with
  | none => s
  | some (p, i) => (s.updChild p i (fun c => { c with st := .pending, rid := none })).updRg r (fun rg => { rg with st := .retired })
/-- A load or a restore is abandoned for a contract's activation (R395): pages and arrays are freed. -/
def State.abandonPlace (s : State) (gid : Nat) (g : Group) : State :=
  let st : ResState := if g.st = .loading then .pending else .saved
  let s := (s.liveOf g).foldl (fun (s : State) (e : Nat × Region) => (s.leavePlace e.1).updRg e.1 (fun rg => { rg with st := st })) s
  if g.st = .loading && g.from_.isNone then
    ((s.liveOf g).foldl (fun (s : State) (e : Nat × Region) => s.unplaceChild e.1 e.2) s).updGroup gid (fun g => { g with st := .retired, req := none })
  else s.updGroup gid (fun g => { g with st := if g.st = .loading then .pending else .saved, req := none })

/-- Only wear asks for the remaps that a group's pre-emption waits for; such a one pauses while a window is open (R458). -/
def State.wearOnly (s : State) (g : Group) : Bool :=
  s.cores.all (fun (c : Nat × Core) => ((List.range 12).zip c.2.pages).all (fun (p : Nat × Page) =>
    p.2.want.all p.2.wear.contains || !(s.holder c.1 p.1).any g.members.contains))
/-- PREEMPT_REQUEST (R384, R385, R395): a request made for a group reaches its members' cores. -/
def execPreemptRequest (gid : Nat) (why : Preempt) (s : State) : Out :=
  match s.group? gid with
  | none => .next s
  | some g =>
    if g.req != some why then .next s
    else match g.st with
      | .running =>
        if why = .remap && s.windowOpen && s.wearOnly g then .next s
        else
        let s := (s.liveOf g).foldl (fun (s : State) (e : Nat × Region) => s.beginSnap e.1 why) s
        .next (s.updGroup gid (fun g => { g with st := .snapshotting }))
      | .loading | .restoring =>
        if why != .contract then .next s
        else
          let s := s.abandonPlace gid g
          .next (match s.groupCtx g with | some c => s.settle c | none => s)
      | _ => .next s

/-- A node saves and sends a marker on each consumer edge. -/
def Region.saveNode (rg : Region) (b n : Nat) (v : NodeV) : Region :=
  let rg := { rg with nodes := rg.nodes.put (128 * b + n) { rg.nodes.get (128 * b + n) {} with saved := true } }
  v.cons.foldl (fun (rg : Region) (c : Nat × Nat) =>
    let k := 128 * b + c.1
    { rg with nodes := rg.nodes.put k ((rg.nodes.get k {}).updSlot c.2 (fun sl => { sl with mark := true })) }) rg

/-- NODE_SNAPSHOT_SAVE (R386): a node on all of whose marker inputs markers have arrived saves; a source has none. -/
def execNodeSnapshotSave (r b n : Nat) (s : State) : Out :=
  match s.rg? r with
  | none => .next s
  | some rg =>
    match rg.nodeCfg b n with
    | none => .next s
    | some (bl, x) =>
      let st := rg.nodes.get (128 * b + n) {}
      if !rg.snap || !rg.live || !rg.cloneSets.isEmpty || st.saved || !(bl.markerSlots n).all (fun i => (st.slot i).mark) then .next s
      else .next (s.setRg r (rg.saveNode b n x.view))

/-- HABOOB_QUIESCENCE (R387): when no unsaved node has all its markers or can fire, every unsaved node saves, with the
tokens on its inputs. -/
def execHaboobQuiescence (r : Nat) (s : State) : Out :=
  match s.rg? r with
  | none => .next s
  | some rg =>
    let due := fun (e : Nat × Block × NodeCfg × NodeV) =>
      let st := rg.nodes.get e.1 {}
      !st.saved && ((e.2.1.markerSlots (e.1 % 128)).all (fun i => (st.slot i).mark) || s.fires r e.1)
    if !rg.snap || !rg.live || !rg.cloneSets.isEmpty || rg.allNodes.any due then .next s
    else .next (s.setRg r { rg with nodes := rg.allNodes.map (fun e => (e.1, { rg.nodes.get e.1 {} with saved := true })) })

/-- A member's image is complete: its nodes have saved, its clone sets are gone and its Erg array has been read. -/
def State.imaged (s : State) (r : Nat) (rg : Region) : Bool :=
  rg.cloneSets.isEmpty
  && (!rg.live || rg.allNodes.all (fun (e : Nat × Block × NodeCfg × NodeV) => (rg.nodes.get e.1 {}).saved))
  && !s.cores.any (fun (e : Nat × Core) => e.2.erg.owner = some r)

/-- Once the image is written, a page on which a custom operator ran is Free, and one whose remap is asked for is withdrawn; the
operator has no page then, and a merge on it begins again at its element (R412, R416). -/
def State.withdrawOpers (s : State) (r : Nat) (rg : Region) : State :=
  rg.operPages.foldl (fun (s : State) (p : Nat × Nat) =>
    let x := s.page p.1 p.2
    if x.want.isEmpty && x.st != .snapshotting && x.st != .moving then s
    else
      let s := (s.freePages p.1 p.2 1).updRg r (fun rg => { rg with task := { rg.task with
        views := rg.task.views.map (fun e => if !e.2.inherited && e.2.page = some p then (e.1, { e.2 with page := none }) else e) } })
      { s with regions := s.regions.filter (fun e => !(e.2.nmem = 0 && e.2.place = some p)) }) s

/-- SNAPSHOT_COMPLETE (R392, R394): every live member's image is written, pages are freed; an uncorrectable error that the
save meets, in an Erg array, a bank or elsewhere, loses the context at once. -/
def execSnapshotComplete (gid : Nat) (bad : Bool) (s : State) : Out :=
  match s.group? gid with
  | none => .next s
  | some g =>
    let l := s.liveOf g
    if g.st != .snapshotting then .next s
    else match s.groupCtx g with
      | none => .next s
      | some c =>
        if bad || l.any (fun e => e.2.unsaved) then .next (s.lose c .save)
        else if !l.all (fun e => s.imaged e.1 e.2) then .next s
        else
          let s := l.foldl (fun (s : State) (e : Nat × Region) =>
            ((s.leavePlace e.1).withdrawOpers e.1 e.2).updRg e.1 (fun rg => { rg with st := .saved, snap := false })) s
          .next ((s.updGroup gid (fun g => { g with st := .saved, req := none })).spoilMove.settle c)

/-! ### Restore (R393, R394) -/

/-- Who of a region waits on which fault record. -/
def State.waitersOf (s : State) (r : Nat) (rg : Region) : List (Nat × Nat × W64 × W64 × W64) :=
  let at_ := fun (b n num : Nat) =>
    let dune := (rg.nodeCfg b n).elim 0 (·.2.dune)
    (dune, ({ cause := 3, node := true, blk := b, nidx := n, dune := dune, iter := num } : TrapRec))
  ((List.range 8).zip rg.eqs).flatMap (fun q => q.2.cmds.filterMap (fun c =>
    c.paused.map (fun id => (id, waiterOf r (.engine c.page q.1) { cause := 3 }))))
  ++ rg.ergq.entries.filterMap (fun c => c.paused.map (fun id => (id, waiterOf r (.engine c.page 0) { cause := 3 })))
  ++ rg.nodes.flatMap (fun (e : Nat × NodeSt) => e.2.pend.filterMap (fun p => p.paused.map (fun id =>
    let x := at_ (e.1 / 128) (e.1 % 128) p.num
    (id, waiterOf r (.node (x.1 / 8)) x.2))))
  ++ (s.fops.filter (fun (e : Nat × FOp) => e.2.rid = r)).filterMap (fun (e : Nat × FOp) => e.2.paused.map (fun id =>
    let x := at_ e.2.blk e.2.nidx e.2.num
    (id, waiterOf r (.mergeUnit (x.1 / 8)) x.2)))
/-- Faults that waited travel in the image, and each retries once after the restore; one that faults again writes a new record
(R441). -/
def State.wakeRegion (s : State) (r : Nat) : State :=
  let ws := (s.rg? r).elim [] (s.waitersOf r)
  let s := s.updRg r (fun rg => { rg with
    eqs := rg.eqs.map (fun q => { q with entries := q.entries.map (fun e => match e with
      | .cmd c => .cmd { c with paused := none }
      | y => y) })
    ergq := { rg.ergq with entries := rg.ergq.entries.map (fun c => { c with paused := none }) }
    nodes := rg.nodes.map (fun (e : Nat × NodeSt) => (e.1, { e.2 with pend := e.2.pend.map (fun p => { p with paused := none }) })) })
  let s : State := { s with fops := s.fops.map (fun (e : Nat × FOp) => if e.2.rid = r then (e.1, { e.2 with paused := none }) else e) }
  ws.foldl (fun (s : State) w => s.leave w.1 w.2) s

/-- A member resumes where its image stands; after a double trap it retires with FAULT instead (R434), once its epoch has
closed (R307). -/
def State.resumeMember (s : State) (r : Nat) : State :=
  match s.rg? r with
  | none => s
  | some rg =>
    let s := (s.setRg r { rg with
      st := rg.back, snap := false, quiet := 0, ergImage := none
      seqs := rg.seqs.map (fun q => { q with dups := [], dupParity := 0 })
      nodes := rg.nodes.map (fun (e : Nat × NodeSt) => (e.1, { e.2 with
        saved := false, a := { e.2.a with mark := false }, b := { e.2.b with mark := false }
        c := { e.2.c with mark := false }, d := { e.2.d with mark := false } })) }).wakeRegion r
    if !rg.doomed then s.deliverAll r
    else if rg.task.epoch.children.isEmpty && rg.task.epoch.fm = .none then s.retire r 6 0 0
    else (s.updRg r (fun rg => { rg.abandon with
      st := .draining, live := false, seqs := rg.seqs.map (fun q => { q with halted := true }) })).deliverAll r

/-- GROUP_RESTORE (R393): a Saved group is placed again. One launched from a queue stands at its head; a spawned
task's is placed whenever it can be. -/
def execGroupRestore (gid : Nat) (s : State) : Out :=
  let s := s.readHeads
  match s.group? gid with
  | none => .next s
  | some g =>
    if g.st != .saved then .next s
    else match g.from_ with
      | none =>
        let open_ := (s.groupCtx g).elim false (fun c => (s.ctx? c).elim false (fun x => x.st = .active && x.becoming.isNone))
        if !open_ then .next s else .next ((s.placeGroup gid g 15).getD s)
      | some _ =>
        match s.firstStart with
        | some (x, some _) =>
          match x.what with
          | .group k _ =>
            if k != gid then .next s
            else .next (((s.age x).placeGroup gid g (s.openDies x)).getD s)
          | .record _ => .next s
        | _ => .next s

/-- RESTORE_COMPLETE (R392, R394): the images are read and the members resume together; an error in an image loses the
context. -/
def execRestoreComplete (gid : Nat) (bad : Bool) (s : State) : Out :=
  match s.group? gid with
  | none => .next s
  | some g =>
    if g.st != .restoring || g.members.any s.asleep then .next s
    else match s.groupCtx g with
      | none => .next s
      | some c =>
        if bad || (s.liveOf g).any (fun e => e.2.unsaved) then .next (s.lose c .restore)
        else
          let s := s.updGroup gid (fun g => { g with st := .running })
          .next (((s.liveOf g).foldl (fun (s : State) (e : Nat × Region) => s.resumeMember e.1) s).settle c)

end Sys2Proof.Machine
end

