-- ==== Sys2Proof/Machine/PageAlloc.lean ====
section
/-! DEFINITION. Fabric pages: the state word, a move for a claim, spare dunes (18 R411, R412, R415, R416). -/
namespace Sys2Proof.Machine

/-! ### The page state word (R411) -/

/-- STATE of a page: a page of a region's run shows what the region does (R412). -/
def State.pageState (s : State) (core p : Nat) : Nat :=
  let x := s.page core p
  let own := match x.st with
    | .free => 0 | .reserved => 1 | .loading => 2 | .armed => 3 | .running => 4 | .snapshotting => 5 | .moving => 6
    | .quarantined => 7 | .spare => 8
  match x.rid.bind s.rg? with
  | none => own
  | some rg =>
    if !rg.owns core p then own
    else if rg.snap then
      (match rg.gid.bind s.groups.find with
       | some g => if g.req = some .move then 6 else 5
       | none => 5)
    else match rg.st with
      | .loading | .restoring => if (s.core core).waking then 1 else 2
      | .running => 4
      | .draining => if rg.live then 4 else 3
      | .unarmed | .armed => 3
      | _ => own
def State.pageWord (s : State) (core p : Nat) : W64 :=
  let x := s.page core p
  let st := s.pageState core p
  let held := st != 0 && st != 7
  w64 ((if held then x.ctx % 1024 * 2 ^ 38 + x.member % 16 * 2 ^ 34 + x.first % 16 * 2 ^ 30 + x.pm1 % 16 * 2 ^ 26
        + (if x.erg then 2 ^ 25 else 0) + (if x.ctr then 2 ^ 24 else 0) else 0)
    + x.remap.toNat * 2 ^ 16 + (s.core core).spLeft % 4 * 2 ^ 8 + st)

/-- A page's state word or a port's status has changed since telemetry was last told: a record of it is due (R411, R457). -/
def State.notePage (s : State) (core p : Nat) : State :=
  let w := s.pageWord core p
  if s.tele.pages.get (12 * core + p) 512 = w then s
  else ({ s with tele := { s.tele with pages := s.tele.pages.store (12 * core + p) w 512 } } : State).report (.page core p w)
def State.noteLink (s : State) (n : Nat) (p : Port) : State :=
  let w := p.word p.llrr p.ferr
  if s.tele.links.get n 0 = w then s
  else ({ s with tele := { s.tele with links := s.tele.links.store n w 0 } } : State).report (.link n w)
/-- What telemetry is told between turns. -/
def State.observed (s : State) : State :=
  let s := s.cores.foldl (fun (s : State) (c : Nat × Core) => (List.range 12).foldl (fun (s : State) p => s.notePage c.1 p) s) s
  ((List.range s.ports.length).zip s.ports).foldl (fun (s : State) (e : Nat × Port) => s.noteLink e.1 e.2) s

/-! ### A move for a claim (R415) -/

/-- The pages of a core after those from `f` to `f + m − 1` have gone to `d`. -/
def afterMove (pages : List Page) (f m d : Nat) : List Page :=
  ((List.range pages.length).zip pages).map (fun (e : Nat × Page) =>
    if d ≤ e.1 && e.1 < d + m then { e.2 with st := .reserved }
    else if f ≤ e.1 && e.1 < f + m then { e.2 with st := .free } else e.2)
/-- The claim's group finds every place once a residency of a core has moved from `f` to `d`. -/
def State.sufficient (s : State) (aff : Nat) (g : Group) (core f m d : Nat) : Bool :=
  ((s.setCore core { s.core core with pages := afterMove (s.core core).pages f m d }).unplaced aff (s.groupBounds g).set g.members).isNone
/-- Where a residency of a core may go so that the claim's group can be placed: the shortest run, then the lower page. -/
def State.moveTo (s : State) (aff : Nat) (g : Group) (core f m : Nat) : Option Nat :=
  (((freeRuns (s.core core).pages).filter (fun r => m ≤ r.2 && s.sufficient aff g core f m r.1)).foldl
    (fun (b : Option (Nat × Nat)) r =>
      match b with
      | none => some r
      | some x => if r.2 < x.2 then some r else b) none).map (·.1)

/-- A residency that may be moved: one of a group, and not of a contract. -/
def State.movable (s : State) (rg : Region) : Bool :=
  rg.nmem != 0 && !(s.page rg.core rg.first).ctr && (rg.gid.bind s.groups.find).isSome
/-- The one residency, on one of these cores with `p` pages Free in `t`, whose relocation lets the claim's group be placed
and moves the fewest pages; ties to the higher first page. -/
def State.bestMove (s t : State) (aff : Nat) (g : Group) (cores : List Nat) (p : Nat) : Option (Nat × Region × Nat) :=
  let can := s.regions.filterMap (fun (e : Nat × Region) =>
    if !e.2.place.isSome || !cores.contains e.2.core || !s.movable e.2
        || ((t.core e.2.core).pages.filter (fun x => x.st = .free)).length < p then none
    else (s.moveTo aff g e.2.core e.2.first (e.2.pm1 + 1)).map (fun d => (e.1, e.2, d)))
  can.foldl (fun (b : Option (Nat × Region × Nat)) (x : Nat × Region × Nat) =>
    match b with
    | none => some x
    | some y =>
      if x.2.1.pm1 < y.2.1.pm1 || (x.2.1.pm1 = y.2.1.pm1 && y.2.1.first < x.2.1.first) then some x else b) none

/-- CLAIM_MOVE (R415): for a claim holder without a run, one residency's destination is reserved and its group
pre-empted, once for each claim. -/
def execClaimMove (s : State) : Out :=
  match s.claim with
  | none => .next s
  | some x =>
    match x.what, s.queue? x.q with
    | .group _ g, some q =>
      if q.claimed || s.move.isSome then .next s
      else match s.unplaced q.aff (s.groupBounds g).set g.members with
        | none => .next s
        | some (m, t) =>
          match s.bestMove t q.aff g (s.coresFor q.aff m.erg (s.groupBounds g).set) (m.pm1 + 1) with
          | none => .next s
          | some (r, rg, d) =>
            let s := s.setRun rg.core d (rg.pm1 + 1) (fun p =>
              { p with st := .reserved, ctx := rg.ctx, member := rg.member, first := d, pm1 := rg.pm1 })
            let s : State := { s with
              move := some (r, 12 * rg.core + d)
              queues := s.queues.upd x.q (fun q => { q with claimed := true }) }
            .next (match rg.gid with
              | some k => { s with groups := s.groups.upd k (fun g => g.ask .move) }
              | none => s)
    | _, _ => .next s

/-! ### Spare dunes (R416) -/

/-- A dune position has had more corrected errors than wear allows, outside contract windows (R457, R458); an uncorrectable
error asks as it strikes. -/
def State.worn (s : State) (core page pos : Nat) : Bool :=
  !s.windowOpen && decide (64 < (s.core core).wear.get (8 * page + pos) 0)

/-- REMAP_REQUEST (R416): Khamsin asks for a remap of a dune position. -/
def execRemapRequest (core page pos : Nat) (s : State) : Out :=
  if coreCount ≤ core || 12 ≤ page || 8 ≤ pos || !s.worn core page pos then .next s else .next (s.askRemap core page pos true)

/-- REMAP_COMPLETE (R412, R416): the lowest unused spare takes a position, and a page whose positions all have one is Free;
with none left the page stays withdrawn. What only wear asks for pauses while a window is open (R458). -/
def execRemapComplete (core page : Nat) (s : State) : Out :=
  let x := s.page core page
  match x.st, (if s.windowOpen then x.want.find? (fun p => !x.wear.contains p) else x.want.head?) with
  | .quarantined, some pos =>
    let n := (s.core core).spLeft
    if n = 0 then .next s
    else
      let rest := x.want.filter (· != pos)
      let y : Page := { x with remap := x.remap ||| BitVec.ofNat 8 (2 ^ pos), want := rest, wear := x.wear.filter (· != pos) }
      let s := s.setPage core page (if rest.isEmpty then y.clear else y)
      .next ((s.setCore core { s.core core with spLeft := n - 1, wear := (s.core core).wear.del (8 * page + pos) }).report (.remap core page pos))
  | _, _ => .next s

end Sys2Proof.Machine
end

