-- ==== Sys2Proof/Machine/HostCtx.lean ====
section
/-! DEFINITION. The commands on contexts, and teardown (13 R339 to R351; 18 R411; 19 R424; 20 R440, R441). -/
namespace Sys2Proof.Machine

/-! ### The device -/

def Lifecycle.code : Lifecycle → Nat
  | .manufacture => 0 | .provisioned => 1 | .deployed => 2 | .debugUnlocked => 3 | .decommissioned => 4

/-- DEV_INFO (R424, R451). -/
def execDevInfo (m : Msg) (s : State) : Out :=
  devCmd 0x01 (dwords 0) m s (fun s =>
    s.reply m stOK [w64 ((s.sec.nodeId.map BitVec.toNat).getD 0), w64 s.sec.life.code, Config.firmwareVersion s.sec.image])

/-- PAGE_STAT (R411, R424). -/
def execPageStat (m : Msg) (s : State) : Out :=
  devCmd 0x02 (dwords 2) m s (fun s =>
    let c := (msgDw m 0).toNat
    let p := (msgDw m 1).toNat
    if coreCount ≤ c || 12 ≤ p then s.reply m stBADDESC [] else s.reply m stOK [s.pageWord c p])

/-! ### CTX_CREATE (R339 to R342) -/

/-- A context descriptor that breaks its map. -/
def ctxDescBad (d : List W64) : Bool :=
  let nq := fld (dw d 0) 48 14
  let pq := fld (dw d 0) 36 12
  bit (dw d 0) 62 || bit (dw d 0) 63 || fld (dw d 0) 0 19 != 0
  || nq = 0 || 8192 < nq || pq = 0 || 2304 < pq || 256 < fld (dw d 0) 27 9 || fld (dw d 0) 19 8 = 0
  || (dw d 1).toNat % 4096 != 0 || (dw d 2).toNat % 4 != 0
  || fld (dw d 3) 19 45 != 0 || 294912 < fld (dw d 3) 0 19
  || (dw d 4).toNat % 65536 != 0 || 2 ^ 56 ≤ (dw d 4).toNat || (dw d 5).toNat % 65536 != 0
  || fld (dw d 6) 32 32 != 0 || fld (dw d 6) 13 3 != 0 || fld (dw d 6) 16 16 < 64 || fld (dw d 7) 16 48 != 0

/-- The fault queue a context is created with (R342). -/
def faultQueue (c : Nat) (d : List W64) : Queue :=
  { ctx := c
    desc := [w64 (15 * 2 ^ 52 + fld (dw d 6) 0 13 * 2 ^ 32 + fld (dw d 6) 16 16 * 2 ^ 16 + 2 ^ 8 + 2 ^ 6), 0, 0, 0, 0, 0, 0, 0] }

/-- Bytes of save area and fibre storage that a context descriptor asks for, and with them those of its fault queue. -/
def ctxArea (d : List W64) : Nat := fld (dw d 0) 19 8 * 2 ^ 23 + fld (dw d 7) 0 16 * 2 ^ 20
def ctxReserve (d : List W64) : Nat := ctxArea d + 64 * fld (dw d 6) 16 16

/-- The lowest free context number. -/
def State.freeCtx (s : State) : Option Nat := (List.range 1024).find? (fun c => (s.ctxs.find c).isNone)

/-- A new context (R339, R341). -/
def State.newCtx (s : State) (c : Nat) (d : List W64) : State :=
  let gen : BitVec 16 := match s.gens.find c with | some g => g + 1 | none => 0
  { s with
    gens := s.gens.put c gen
    ctxs := s.ctxs.put c
      { gen := gen, desc := d, nq := fld (dw d 0) 48 14, pageq := fld (dw d 0) 36 12, spq := fld (dw d 0) 27 9
        pinq := fld (dw d 3) 0 19 }
    queues := s.queues.put (fld (dw d 6) 0 13) (faultQueue c d) }

/-- CTX_CREATE (R341). -/
def execCtxCreate (m : Msg) (s : State) : Out :=
  devCmd 0x10 (dwords 8) m s (fun s =>
    let d := m.payload
    if ctxDescBad d then s.reply m stBADDESC []
    else match s.freeCtx with
      | none => s.reply m stNORES []
      | some c =>
        if (s.queue? (fld (dw d 6) 0 13)).isSome || !s.reservable (ctxReserve d) then s.reply m stNORES []
        else
          let t := s.newCtx c d
          t.reply m stOK [t.ctxid c])

/-! ### The state table (R348) -/

/-- CTX_KEY (R344): the memory key pair, then the link keys. -/
def execCtxKey (m : Msg) (s : State) : Out :=
  ctxCmd 0x11 false true (fun m => 9 ≤ m.payload.length) m s (fun s c x =>
    if x.st != .created then s.reply m stSTATE []
    else (s.setCtx c { x with st := .keyed, keys := m.payload.drop 1 }).ok m)

/-- CTX_START. -/
def execCtxStart (m : Msg) (s : State) : Out :=
  ctxCmd 0x12 false true (dwords 1) m s (fun s c x =>
    if x.st != .keyed then s.reply m stSTATE [] else (s.setCtx c { x with st := .active }).ok m)

/-- CTX_SUSPEND (R349): its response is sent when the last snapshot completes. -/
def execCtxSuspend (m : Msg) (s : State) : Out :=
  ctxCmd 0x13 false true (dwords 1) m s (fun s c x =>
    if x.st != .active || x.becoming.isSome then s.reply m stSTATE []
    else s.hold c .suspended [response m stOK []])

/-- Every held fault record for which a slot is free is appended (R434). -/
def State.refillAll (s : State) (c : Nat) : Nat → State
  | 0 => s
  | n + 1 => (s.refill c).refillAll c n

/-- CTX_RESUME (R348, R434). -/
def execCtxResume (m : Msg) (s : State) : Out :=
  ctxCmd 0x14 false true (dwords 1) m s (fun s c x =>
    if !(x.st = .suspended || x.st = .faulted) || x.becoming.isSome then s.reply m stSTATE []
    else ((s.setCtx c { x with st := .active }).refillAll c x.heldRecs.length).ok m)

/-- CTX_DESTROY (R348, R350): a context that runs is stopped; its teardown answers the command. -/
def execCtxDestroy (m : Msg) (s : State) : Out :=
  ctxCmd 0x15 false true (dwords 1) m s (fun s c x =>
    let s := match x.st with
      | .active | .suspended | .faulted => s.stop c .destroying .destroy
      | _ => s
    { s with ctxs := s.ctxs.upd c (fun x => { x with st := .destroying, becoming := none, note := [response m stOK []] }) })

/-- The keys of the contexts chosen by `p` are zeroed: what they encrypted is not readable by any key (R344). -/
def State.zeroKeys (s : State) (p : Nat → Bool) : State :=
  { s with
    ctxs := s.ctxs.map (fun (e : Nat × Ctx) => if p e.1 then (e.1, { e.2 with keys := [] }) else e)
    side := s.side.map (fun (e : Nat × Side) => (e.1, { e.2 with key := e.2.key.map (fun k => if p k.1 then (k.1 + 1024, k.2) else k) })) }

/-- CONTEXT_TEARDOWN_DONE (R351): pins, pools, view-table entries, queues, contracts and the save area are freed, keys
are gone, the number is free; a CTX_SYNC that waits is answered, as no translation is left (R345, R423). -/
def execContextTeardownDone (c : Nat) (s : State) : Out :=
  match s.ctx? c with
  | none => .next s
  | some x =>
    if x.st != .destroying then .next s
    else
      let s := s.zeroKeys (· = c)
      .next { s with
      ctxs := s.ctxs.del c
      pins := (s.pins.map (fun (e : Nat × Assoc Nat) => (e.1, e.2.del c))).filter (fun (e : Nat × Assoc Nat) => !e.2.isEmpty)
      pools := s.pools.filter (fun (e : Nat × Pool) => e.1 / 4096 != c)
      fibres := s.fibres.filter (fun (e : Nat × Fibre) => e.1 / 2 ^ 56 != c)
      queues := s.queues.filter (fun (e : Nat × Queue) => e.2.ctx != c)
      goneQ := s.goneQ.filter (fun (e : Nat × Nat × W64) => e.2.1 != c)
      contracts := s.contracts.filter (fun (e : Nat × Contract) => e.2.ctx != c)
      groups := s.groups.filter (fun (e : Nat × Group) => s.groupCtx e.2 != some c)
      regions := s.regions.filter (fun (e : Nat × Region) => e.2.ctx != c)
      cores := s.cores.map (fun (e : Nat × Core) => (e.1, { e.2 with tlb := e.2.tlb.filter (fun t => t.ctx != c) }))
      sent := s.sent ++ x.syncs.map (fun m => response m stOK []) ++ x.note }

/-! ### Quotas and synchronisation -/

/-- CTX_QUOTA (R346): NQ, PAGEQ, SPQ and PINQ, each in the range of R340. -/
def execCtxQuota (m : Msg) (s : State) : Out :=
  ctxCmd 0x16 false true (dwords 5) m s (fun s c x =>
    let nq := (msgDw m 1).toNat
    let pq := (msgDw m 2).toNat
    let sq := (msgDw m 3).toNat
    let pin := (msgDw m 4).toNat
    if nq = 0 || 8192 < nq || pq = 0 || 2304 < pq || 256 < sq || 294912 < pin then s.reply m stBADDESC []
    else (s.setCtx c { x with nq := nq, pageq := pq, spq := sq, pinq := pin }).ok m)

/-- CTX_SYNC (R345): the invalidation starts, or, where another is in progress, starts after it. -/
def execCtxSync (m : Msg) (s : State) : Out :=
  ctxCmd 0x17 false false (dwords 1) m s (fun s c x => s.setCtx c { x with syncs := x.syncs ++ [m] })

/-- CTX_SYNC_DONE (R345, R440, R441): no cached translation of the context is left, and its fault waiters retry; the CTX_SYNC
in progress is answered. -/
def execCtxSyncDone (c : Nat) (s : State) : Out :=
  match s.ctx? c with
  | none => .next s
  | some x =>
    match x.syncs with
    | [] => .next s
    | m :: more =>
      let s : State := { s with
        ctxs := s.ctxs.put c { x with syncs := more }
        cores := s.cores.map (fun (e : Nat × Core) => (e.1, { e.2 with tlb := e.2.tlb.filter (fun t => t.ctx != c) }))
        faults := s.faults.map (fun (e : Nat × FaultRec) => if e.2.ctx = c then (e.1, { e.2 with woken := true }) else e) }
      .next (s.ok m)

end Sys2Proof.Machine
end

