-- ==== Sys2Proof/Machine/HostMem.lean ====
section
/-! DEFINITION. What the outside world reads and writes: MEM_WRITE and MEM_READ, remote memory accesses that arrive,
channel bindings, unsupported packets (19 R417, R419, R421 to R425; 02 R40; 12 R324, R327, R333). -/
namespace Sys2Proof.Machine

/-! ### Accesses to a context's memory -/

/-- A piece of an outside access inside one sector: its place in the data, length, physical address, and UCHK. -/
structure OutPiece where
  off : Nat
  len : Nat
  pa : Nat
  uchk : Bool

/-- The sectors of an outside access of `n` bytes, or none where a byte does not translate to local memory. -/
def State.outMap (s : State) (c : Nat) (va : W64) (n : Nat) (k : AccK) : Option (List OutPiece) :=
  (pieces va.toNat n).foldr (fun (p : Nat × Nat) l =>
    match (walk s c (w64 p.1)).bind (fun f => leafTarget s c (w64 p.1) k f), l with
    | .ok (.loc pa u), some t => some (⟨p.1 - va.toNat, p.2, pa, u⟩ :: t)
    | _, _ => none) (some [])

/-- Identifiers of outside writers (R323). -/
def widHost : BitVec 12 := 0xFFF
def widDevice : BitVec 12 := 0xFFE

/-- Bytes are written sector by sector; a whole sector takes the tag, an untyped write's being RAW (R40); the race tag
of a checked page names the writer (R324). -/
def State.outWrite (s : State) (c : Nat) (l : List OutPiece) (data : List Byte) (tag : Byte × Byte × Byte) (wid : BitVec 12) : State :=
  l.foldl (fun (s : State) p =>
    let s := s.write (s.keyOf c) p.pa ((data.drop p.off).take p.len)
    let s := if p.len = 64 then s.setFmt (sectorOf p.pa) tag.1 tag.2.1 tag.2.2 else s
    if p.uchk then s else s.setTag (sectorOf p.pa) { wid := wid, cnt := 0 }) s

/-- Bytes read; those of a word with an uncorrectable error are not defined. -/
def State.outRead (s : State) (c : Nat) (l : List OutPiece) : List Byte :=
  l.flatMap (fun p => ((List.range p.len).zip (s.peekN (s.keyOf c) p.pa p.len)).map (fun (b : Nat × Byte) =>
    if s.poisonedAt (p.pa + b.1) 1 then (Config.poisonWord (s.freeIx * 65536 + p.off + b.1)).setWidth 8 else b.2))

/-! ### Window commands (R424) -/

/-- MEM_WRITE: nothing is written where a byte does not translate. -/
def execMemWrite (m : Msg) (s : State) : Out :=
  ctxCmd 0x40 true false (fun m => 3 ≤ m.payload.length) m s (fun s c _ =>
    let va := msgDw m 1
    let t := msgDw m 2
    let data := dwBytes (m.payload.drop 3)
    if bit t 24 && (va.toNat % 64 != 0 || data.length % 64 != 0) then s.reply m stBADDESC []
    else match s.outMap c va data.length .write with
      | none => s.reply m stXLATE []
      | some l =>
        let tag : Byte × Byte × Byte := if bit t 24 then (.ofNat 8 (fld t 16 8), .ofNat 8 (fld t 8 8), .ofNat 8 (fld t 0 8)) else (0, 0, 0)
        (s.outWrite c l data tag widHost).ok m)

/-- MEM_READ: nothing is returned where a byte does not translate. -/
def execMemRead (m : Msg) (s : State) : Out :=
  ctxCmd 0x41 true false (dwords 3) m s (fun s c _ =>
    let n := (msgDw m 2).toNat
    if 4080 < n then s.reply m stBADCMD []
    else match s.outMap c (msgDw m 1) n .read with
      | none => s.reply m stXLATE []
      | some l => (s.rouseVa c (msgDw m 1) n).reply m stOK (leDwords ((n + 7) / 8) (s.outRead c l)))

/-! ### Remote memory accesses (R419, R421, R422) -/

/-- An access to a context that is Lost or Destroyed, or under another generation, is refused, and so is every one in
Decommissioned (R452): no memory is touched. -/
def State.rmaCtx (s : State) (x : Rma) : Bool :=
  match s.ctx? x.ctx with
  | none => false
  | some c => s.sec.life != .decommissioned && c.st != .lost && c.st != .destroying && c.gen = x.gen
def State.rmaRefuse (s : State) : State := s.countRefused.send .rmaError
/-- A packet of a mode or size the profile leaves out is dropped and counted (R417). -/
def State.drop (s : State) : State := { s with tele := { s.tele with dropped := s.tele.dropped + 1 } }
def rmaWid (x : Rma) : BitVec 12 := if x.host then widHost else widDevice

/-- RMA_WRITE: an untyped write of a packet's bytes, at most 4,096 (R417). -/
def execRmaWrite (x : Rma) (data : List Byte) (s : State) : Out :=
  if s.sec.boot != .running then .next s
  else if 4096 < data.length then .next (s.drop.send .rmaError)
  else if !s.rmaCtx x then .next s.rmaRefuse
  else match s.outMap x.ctx x.addr data.length .write with
    | none => .next (s.send .rmaError)
    | some l => .next ((s.outWrite x.ctx l data (0, 0, 0) (rmaWid x)).send (.rmaReply []))

/-- RMA_READ: its reply is one packet, of at most 4,096 bytes (R417). -/
def execRmaRead (x : Rma) (len : Nat) (s : State) : Out :=
  if s.sec.boot != .running then .next s
  else if 4096 < len then .next (s.drop.send .rmaError)
  else if !s.rmaCtx x then .next s.rmaRefuse
  else match s.outMap x.ctx x.addr len .read with
    | none => .next (s.send .rmaError)
    | some l => .next (s.send (.rmaReply (s.outRead x.ctx l)))

/-- RMA_ATOMIC: one indivisible step at the home node on an aligned word of 4 or 8 bytes; a misaligned one is not
supported and is dropped (R417). The race tag stays (R324). -/
def execRmaAtomic (x : Rma) (op : Aop) (wide : Bool) (v cmp : W64) (s : State) : Out :=
  let n := if wide then 8 else 4
  if s.sec.boot != .running then .next s
  else if x.addr.toNat % n != 0 then
    .next (s.drop.send .rmaError)
  else if !s.rmaCtx x then .next s.rmaRefuse
  else match s.outMap x.ctx x.addr n .atomic with
    | none => .next (s.send .rmaError)
    | some l =>
      let pa := (l.head?.map OutPiece.pa).getD 0
      let got := s.outRead x.ctx l
      let old := leNat got
      let arg := v.toNat % 2 ^ (8 * n)
      let c := cmp.toNat % 2 ^ (8 * n)
      let s := s.send (.rmaReply got)
      if s.poisonedAt pa n || !amoWrites op old c then .next s
      else .next (s.write (s.keyOf x.ctx) pa (leBytes n (amoNew op n old arg c)))

/-- UNSUPPORTED_PACKET (R417): a packet of a mode the profile leaves out is dropped, counted and answered with the
transport's negative acknowledgement. -/
def execUnsupportedPacket (port : Nat) (s : State) : Out :=
  match s.ports[port]? with
  | none => .next s
  | some p =>
    if !p.carries then .next s
    else .next (s.drop.send (.nack port))

/-! ### CHAN_BIND (R419) -/

/-- CHAN_BIND: channel, target node, and the target's context as CTXID gives it. -/
def execChanBind (m : Msg) (s : State) : Out :=
  ctxCmd 0x48 false false (dwords 4) m s (fun s c x =>
    let ch := (msgDw m 1).toNat
    let rn := (msgDw m 2).toNat
    let id := msgDw m 3
    if 64 ≤ ch || 65536 ≤ rn || fld id 10 6 != 0 || fld id 32 32 != 0 then s.reply m stBADDESC []
    else
      let b : ChanBind := { rnode := .ofNat 16 rn, rctx := fld id 0 10, rgen := .ofNat 16 (fld id 16 16) }
      (s.setCtx c { x with chans := x.chans.put ch b }).ok m)

end Sys2Proof.Machine
end

