-- ==== Sys2Proof/Machine/HostQueue.lean ====
section
/-! DEFINITION. The commands on queues, contracts and pools, and the limits of contracts (14 R352 to R367; 09 R248,
R249; 19 R424). -/
namespace Sys2Proof.Machine

/-! ### Q_CREATE (R353) -/

/-- A queue descriptor that breaks its map. -/
def queueDescBad (d : List W64) : Bool :=
  let h := dw d 0
  let dev := bit h 8
  let nslot := fld h 16 16
  let cv := bit (dw d 3) 12
  fld h 56 8 != 0 || fld h 45 3 != 0 || fld h 12 4 != 0 || fld h 0 6 != 0 || 1 < fld h 6 2 || fld h 52 4 = 0 || 4 < fld h 48 4
  || (if dev then nslot = 0 || dw d 1 != 0 else nslot != 0 || (dw d 1).toNat % 64 != 0 || 2 ^ 56 ≤ (dw d 1).toNat)
  || (dw d 2).toNat % 8 != 0 || fld (dw d 3) 13 51 != 0 || (if cv then 255 < fld (dw d 3) 0 12 else fld (dw d 3) 0 12 != 0)
  || dw d 4 != 0 || dw d 5 != 0 || dw d 6 != 0 || dw d 7 != 0
  || (fld h 6 2 = 1 && (cv || fld h 9 3 != 0 || fld h 48 4 != 0))

/-- Queues of a context (R346). -/
def State.queuesOf (s : State) (c : Nat) : Nat := (s.queues.filter (fun (e : Nat × Queue) => e.2.ctx = c)).length

/-- Q_CREATE (R353, R367). -/
def execQCreate (m : Msg) (s : State) : Out :=
  ctxCmd 0x20 false false (dwords 9) m s (fun s c x =>
    let d := m.payload.drop 1
    let n := fld (dw d 0) 32 13
    let ours := match ({ ctx := c, desc := d } : Queue).cid with
      | none => true
      | some k => (s.contracts.find k).elim false (fun k => k.ctx = c)
    if queueDescBad d || !ours then s.reply m stBADDESC []
    else if (s.queue? n).isSome then s.reply m stINUSE []
    else if x.nq ≤ s.queuesOf c then s.reply m stQUOTA []
    else if bit (dw d 0) 8 && !s.reservable (64 * fld (dw d 0) 16 16) then s.reply m stNORES []
    else (s.setQueue n { ctx := c, desc := d }).ok m)

/-! ### The state table (R367) -/

/-- A command on a queue of the context: its number is the second dword. -/
def queueCmd (op : Nat) (win : Bool) (n : Nat) (m : Msg) (s : State) (k : State → Nat → Queue → State) : Out :=
  ctxCmd op win (!win) (dwords n) m s (fun s c _ =>
    let qn := (msgDw m 1).toNat
    match s.queue? qn with
    | none => s.reply m stSTATE []
    | some q => if q.ctx != c then s.reply m stSTATE [] else k s qn q)

/-- Q_ENABLE. -/
def execQEnable (m : Msg) (s : State) : Out :=
  queueCmd 0x21 false 2 m s (fun s qn q =>
    if q.st != .disabled then s.reply m stSTATE [] else (s.setQueue qn { q with st := .enabled }).ok m)
/-- Q_DISABLE. -/
def execQDisable (m : Msg) (s : State) : Out :=
  queueCmd 0x22 false 2 m s (fun s qn q =>
    if !(q.st = .enabled || q.st = .stopped) then s.reply m stSTATE [] else (s.setQueue qn { q with st := .disabled }).ok m)
/-- Q_RESTART: the head is read again. -/
def execQRestart (m : Msg) (s : State) : Out :=
  queueCmd 0x25 false 2 m s (fun s qn q =>
    if q.st != .stopped then s.reply m stSTATE []
    else (s.setQueue qn { q with st := .enabled, store := if q.dev then q.store else [] }).ok m)

/-- The group of a validated record that has not left the head is dropped with its record. -/
def State.dropPending (s : State) (qn : Nat) (q : Queue) : State :=
  { s with groups := s.groups.filter (fun (e : Nat × Group) => !(e.2.from_ = some (qn, q.headNo) && e.2.st = .pending)) }

/-- The head record leaves and completes without having started. -/
def State.cancel (s : State) (qn : Nat) (t : Started) : State :=
  s.endHead qn t

/-- Records still at or behind the head, `n` of them: each leaves with CANCEL (R367). A record that cannot be read has no
completion record. -/
def State.flush (s : State) (qn : Nat) : Nat → State
  | 0 => s
  | n + 1 =>
    match s.queue? qn with
    | none => s
    | some q =>
      let t : Started := { seq := q.headNo, rec_ := ⟨[]⟩, finished := true, status := 5 }
      match q.withHead s with
      | none => (s.cancel qn t).flush qn n
      | some q => ((s.setQueue qn q).cancel qn { t with rec_ := q.store.headD ⟨[]⟩ }).flush qn n

/-- Q_FLUSH: each unstarted record completes with CANCEL. -/
def execQFlush (m : Msg) (s : State) : Out :=
  queueCmd 0x24 false 2 m s (fun s qn q =>
    if q.st != .disabled || q.consuming then s.reply m stSTATE []
    else ((s.dropPending qn q).flush qn (q.issued - q.taken).toNat).ok m)

/-- Q_DESTROY: no started command is incomplete; a fault queue stays until its context goes. -/
def execQDestroy (m : Msg) (s : State) : Out :=
  queueCmd 0x26 false 2 m s (fun s qn q =>
    let fq := (s.ctx? q.ctx).elim true (fun x => x.faultq = qn)
    if q.st = .enabled || fq || q.started.any (fun t => !t.reported) then s.reply m stSTATE []
    else
      let s := s.dropPending qn q
      ({ s with
          queues := s.queues.del qn, goneQ := s.goneQ.put qn (q.ctx, q.done)
          contracts := s.contracts.map (fun (e : Nat × Contract) => (e.1, { e.2 with acts := e.2.acts.filter (fun a => a.queue != qn) })) } : State).ok m)

/-- Q_POP (R367, R424): one record of a consuming queue. -/
def execQPop (m : Msg) (s : State) : Out :=
  queueCmd 0x27 true 2 m s (fun s qn q =>
    if !q.consuming || !(q.st = .disabled || q.st = .enabled) then s.reply m stSTATE []
    else match s.takeRec qn with
      | none => s.reply m stEMPTY []
      | some (l, s) => s.reply m stOK ((List.range 8).map (dw l)))

/-! ### Q_TAIL (R355, R364) -/

/-- A Q_TAIL on a contract queue opens an activation of the records it appends. -/
def State.activate (s : State) (qn : Nat) (q : Queue) (t : W64) : State :=
  match q.cid with
  | none => s
  | some cid =>
    match s.contracts.find cid with
    | none => s
    | some k =>
      let a : Activation := { queue := qn, first := q.issued + 1, last := t, order := s.nextId, at_ := (s.core k.lead).cyc.toNat }
      ({ s with nextId := s.nextId + 1, contracts := s.contracts.put cid { k with acts := k.acts ++ [a] } } : State).makeRoom (s.contractRuns k k.pages)

/-- Q_TAIL: ISSUED rises to T; a T that does not exceed it is ignored. -/
def execQTail (m : Msg) (s : State) : Out :=
  ctxCmd 0x23 true false (dwords 3) m s (fun s c _ =>
    let qn := fld (msgDw m 1) 0 13
    let t := msgDw m 2
    match s.queue? qn with
    | none => s.reply m stSTATE []
    | some q =>
      if q.ctx != c || q.dev || !(q.st = .disabled || q.st = .enabled) then s.reply m stSTATE []
      else if t = q.issued || !tailReached t q.issued then s.ok m
      else ((s.setQueue qn { q with issued := t, tails := q.tails ++ [(t, s.freeIx)] }).activate qn q t).ok m)

/-! ### Contracts (R364, R365) -/

def Contract.period (k : Contract) : Nat := fld (dw k.desc 5) 0 48
def Contract.pshare (k : Contract) : Nat := fld (dw k.desc 0) 8 8

/-- A contract descriptor that breaks its map. -/
def contractDescBad (d : List W64) : Bool :=
  fld (dw d 0) 16 48 != 0 || fld (dw d 0) 4 4 != 0 || fld (dw d 0) 0 4 = 0 || 12 < fld (dw d 0) 0 4
  || (dw d 1 = 0 && dw d 2 = 0 && dw d 3 = 0) || fld (dw d 4) 48 16 != 0 || fld (dw d 5) 48 16 != 0 || fld (dw d 6) 48 16 != 0
  || dw d 7 != 0

/-- The sum of BUDGET / PERIOD, as a numerator and a denominator. -/
def shareSum (l : List Contract) : Nat × Nat :=
  l.foldl (fun (a : Nat × Nat) k => (a.1 * k.period + k.budget * a.2, a.2 * k.period)) (0, 1)

/-- The conditions of R365 with a contract added. -/
def admits (l : List Contract) (k : Contract) : Bool :=
  let all := k :: l
  1 ≤ k.budget && k.budget ≤ k.window && k.window ≤ k.period
  && (List.range coreCount).all (fun c =>
    let on := all.filter (fun k => contractHas k c)
    10 * (shareSum on).1 ≤ 9 * (shareSum on).2 && (on.map Contract.pages).sum ≤ 12)
  && (all.map Contract.pshare).sum ≤ 230

/-- CONTRACT_CREATE: the lowest free number. -/
def execContractCreate (m : Msg) (s : State) : Out :=
  ctxCmd 0x30 false false (dwords 9) m s (fun s c _ =>
    let k : Contract := { ctx := c, desc := m.payload.drop 1 }
    if contractDescBad k.desc then s.reply m stBADDESC []
    else match (List.range 256).find? (fun n => (s.contracts.find n).isNone) with
      | none => s.reply m stNORES []
      | some n =>
        if !admits (s.contracts.map (·.2)) k then s.reply m stADMIT []
        else ({ s with contracts := s.contracts.put n k } : State).reply m stOK [w64 n])

/-- CONTRACT_DESTROY: refused while a queue names the contract. -/
def execContractDestroy (m : Msg) (s : State) : Out :=
  ctxCmd 0x31 false true (dwords 2) m s (fun s c _ =>
    let n := (msgDw m 1).toNat
    match s.contracts.find n with
    | none => s.reply m stSTATE []
    | some k =>
      if k.ctx != c || s.queues.any (fun (e : Nat × Queue) => e.2.cid = some n) then s.reply m stSTATE []
      else ({ s with contracts := s.contracts.del n } : State).reply m stOK [w64 n])

/-- An activation changes. -/
def Contract.setAct (k : Contract) (order : Nat) (f : Activation → Activation) : Contract :=
  { k with acts := k.acts.map (fun a => if a.order = order then f a else a) }

/-- CONTRACT_BUDGET_EXHAUST (R364): the cycles left of the budget of an activation that is resident on a core pass, and
it is exhausted. -/
def execContractBudgetExhaust (cid core : Nat) (s : State) : Out :=
  match s.contracts.find cid with
  | none => .next s
  | some k =>
    match k.acts.find? (fun a => !a.exh && s.actOn core a) with
    | none => .next s
    | some a =>
      if !contractHas k core then .next s
      else
        let s := s.pass core (k.budget - a.cycles.get core 0)
        .next { s with contracts := s.contracts.upd cid (fun k => k.setAct a.order (fun a => { a with exh := true })) }

/-- CONTRACT_WINDOW_EXPIRE (R364): the cycles left of an activation's window pass on its lead core, and what completes
afterwards has MISS. -/
def execContractWindowExpire (cid : Nat) (s : State) : Out :=
  match s.contracts.find cid with
  | none => .next s
  | some k =>
    match k.acts.find? (fun a => !a.miss) with
    | none => .next s
    | some a =>
      let gone := ((s.core k.lead).cyc - w64 a.at_).toNat
      let s := s.pass k.lead (k.window - gone)
      .next { s with contracts := s.contracts.upd cid (fun k => k.setAct a.order (fun a => { a with miss := true })) }

/-! ### Pools (R248, R249, R424) -/

/-- A pool descriptor that breaks R248 or R251; dword 1 is reserved, and what it holds is ignored (R6). -/
def poolDescBad (d : List W64) : Bool :=
  let h := dw d 0
  let f := fld h 0 8
  let anchor := sval 12 (fld h 52 12)
  fld h 8 25 != 0 || fld h 34 2 = 3 || !fmtPool f || !copOk (fld h 36 4) f
  || (if f = 0x21 then anchor < -1100 || 1100 < anchor else anchor != 0)
/-- The bytes of FIBMEM a pool is charged (R249). -/
def Pool.charge (p : Pool) : Nat := 12 * p.perStack * (p.segBytes + (if p.c64 then 12 else 8)) + 32 * p.fibres
/-- The bytes a context's pools are charged. -/
def State.fibUsed (s : State) (c : Nat) : Nat :=
  ((s.pools.filter (fun (e : Nat × Pool) => e.1 / 4096 = c)).map (fun e => e.2.charge)).sum

/-- POOL_REG. -/
def execPoolReg (m : Msg) (s : State) : Out :=
  ctxCmd 0x38 false false (dwords 5) m s (fun s c x =>
    let d := (m.payload.drop 1).take 2
    let n := (msgDw m 3).toNat
    let k := (msgDw m 4).toNat
    let p : Pool := { d0 := dw d 0, fibres := n, perStack := k }
    let key := 4096 * c + fld (dw d 0) 40 12
    if poolDescBad d || n = 0 || 2 ^ 44 < n || k = 0 || 2 ^ 32 ≤ k then s.reply m stBADDESC []
    else if (s.pools.find key).isSome then s.reply m stINUSE []
    else if 2 ^ 20 * fld (dw x.desc 7) 0 16 < s.fibUsed c + p.charge then s.reply m stQUOTA []
    else ({ s with pools := s.pools.put key p } : State).ok m)

/-- An operation still pending on its pool: it has not completed at its home unit, or its record does not stand
(R260); tokens that wait to be sent on are the node's own (R273). -/
def FOp.onPool (o : FOp) : Bool := !o.noop && !(o.st = .done && (o.rec_.isNone || 2 ≤ o.stage))
/-- POOL_FREE: refused with STATE while an operation is pending on the pool, or when it is not registered. -/
def execPoolFree (m : Msg) (s : State) : Out :=
  ctxCmd 0x39 false false (dwords 5) m s (fun s c _ =>
    let pn := fld (msgDw m 1) 40 12
    let key := 4096 * c + pn
    if (s.pools.find key).isNone || s.fops.any (fun (e : Nat × FOp) => e.2.ctx = c && e.2.onPool && fibrePoolNo e.2.addr = pn) then s.reply m stSTATE []
    else ({ s with pools := s.pools.del key, fibres := s.fibres.filter (fun (e : Nat × Fibre) => e.1 / 2 ^ 44 != key) } : State).ok m)

end Sys2Proof.Machine
end

