-- ==== Sys2Proof/Machine/Crypto.lean ====
section
/-! DEFINITION. The algorithms of the device's signatures: SHA-384, and ECDSA over brainpoolP384r1 (21 R447; FIPS 180-4,
RFC 5639, FIPS 186-4, which the rule names). -/
namespace Sys2Proof.Machine

/-! ### SHA-384 -/

/-- The round constants. -/
def shaK0 : List W64 :=
  [0x428A2F98D728AE22, 0x7137449123EF65CD, 0xB5C0FBCFEC4D3B2F, 0xE9B5DBA58189DBBC,
   0x3956C25BF348B538, 0x59F111F1B605D019, 0x923F82A4AF194F9B, 0xAB1C5ED5DA6D8118,
   0xD807AA98A3030242, 0x12835B0145706FBE, 0x243185BE4EE4B28C, 0x550C7DC3D5FFB4E2,
   0x72BE5D74F27B896F, 0x80DEB1FE3B1696B1, 0x9BDC06A725C71235, 0xC19BF174CF692694,
   0xE49B69C19EF14AD2, 0xEFBE4786384F25E3, 0x0FC19DC68B8CD5B5, 0x240CA1CC77AC9C65]
def shaK1 : List W64 :=
  [0x2DE92C6F592B0275, 0x4A7484AA6EA6E483, 0x5CB0A9DCBD41FBD4, 0x76F988DA831153B5,
   0x983E5152EE66DFAB, 0xA831C66D2DB43210, 0xB00327C898FB213F, 0xBF597FC7BEEF0EE4,
   0xC6E00BF33DA88FC2, 0xD5A79147930AA725, 0x06CA6351E003826F, 0x142929670A0E6E70,
   0x27B70A8546D22FFC, 0x2E1B21385C26C926, 0x4D2C6DFC5AC42AED, 0x53380D139D95B3DF,
   0x650A73548BAF63DE, 0x766A0ABB3C77B2A8, 0x81C2C92E47EDAEE6, 0x92722C851482353B]
def shaK2 : List W64 :=
  [0xA2BFE8A14CF10364, 0xA81A664BBC423001, 0xC24B8B70D0F89791, 0xC76C51A30654BE30,
   0xD192E819D6EF5218, 0xD69906245565A910, 0xF40E35855771202A, 0x106AA07032BBD1B8,
   0x19A4C116B8D2D0C8, 0x1E376C085141AB53, 0x2748774CDF8EEB99, 0x34B0BCB5E19B48A8,
   0x391C0CB3C5C95A63, 0x4ED8AA4AE3418ACB, 0x5B9CCA4F7763E373, 0x682E6FF3D6B2B8A3,
   0x748F82EE5DEFB2FC, 0x78A5636F43172F60, 0x84C87814A1F0AB72, 0x8CC702081A6439EC]
def shaK3 : List W64 :=
  [0x90BEFFFA23631E28, 0xA4506CEBDE82BDE9, 0xBEF9A3F7B2C67915, 0xC67178F2E372532B,
   0xCA273ECEEA26619C, 0xD186B8C721C0C207, 0xEADA7DD6CDE0EB1E, 0xF57D4F7FEE6ED178,
   0x06F067AA72176FBA, 0x0A637DC5A2C898A6, 0x113F9804BEF90DAE, 0x1B710B35131C471B,
   0x28DB77F523047D84, 0x32CAAB7B40C72493, 0x3C9EBE0A15C9BEBC, 0x431D67C49C100D4C,
   0x4CC5D4BECB3E42B6, 0x597F299CFC657E2A, 0x5FCB6FAB3AD6FAEC, 0x6C44198C4A475817]
def shaK : List W64 := shaK0 ++ shaK1 ++ shaK2 ++ shaK3

/-- The eight working words. -/
structure Sha where
  a : W64
  b : W64
  c : W64
  d : W64
  e : W64
  f : W64
  g : W64
  h : W64
  deriving DecidableEq, Repr
/-- The initial hash value of SHA-384. -/
def Sha.init : Sha :=
  ⟨0xCBBB9D5DC1059ED8, 0x629A292A367CD507, 0x9159015A3070DD17, 0x152FECD8F70E5939,
   0x67332667FFC00B31, 0x8EB44A8768581511, 0xDB0C2E0D64F98FA7, 0x47B5481DBEFA4FA4⟩

def shaS0 (x : W64) : W64 := x.rotateRight 28 ^^^ x.rotateRight 34 ^^^ x.rotateRight 39
def shaS1 (x : W64) : W64 := x.rotateRight 14 ^^^ x.rotateRight 18 ^^^ x.rotateRight 41
def shaW0 (x : W64) : W64 := x.rotateRight 1 ^^^ x.rotateRight 8 ^^^ (x >>> 7)
def shaW1 (x : W64) : W64 := x.rotateRight 19 ^^^ x.rotateRight 61 ^^^ (x >>> 6)

/-- One round, with its constant and its word of the schedule. -/
def Sha.round (s : Sha) (k w : W64) : Sha :=
  let t1 := s.h + shaS1 s.e + ((s.e &&& s.f) ^^^ (~~~ s.e &&& s.g)) + k + w
  let t2 := shaS0 s.a + ((s.a &&& s.b) ^^^ (s.a &&& s.c) ^^^ (s.b &&& s.c))
  ⟨t1 + t2, s.a, s.b, s.c, s.d + t1, s.e, s.f, s.g⟩
def Sha.add (s t : Sha) : Sha := ⟨s.a + t.a, s.b + t.b, s.c + t.c, s.d + t.d, s.e + t.e, s.f + t.f, s.g + t.g, s.h + t.h⟩

/-- The message schedule, latest word first, after `n` words more. -/
def shaSchedule (l : List W64) : Nat → List W64
  | 0 => l
  | n + 1 => shaSchedule ((shaW1 (l.getD 1 0) + l.getD 6 0 + shaW0 (l.getD 14 0) + l.getD 15 0) :: l) n
/-- A block of 16 words is taken in. -/
def Sha.block (s : Sha) (m : List W64) : Sha :=
  s.add ((shaK.zip (shaSchedule m.reverse 64).reverse).foldl (fun s e => s.round e.1 e.2) s)

/-- A number in bytes, most significant first. -/
def beNat (l : List Byte) : Nat := leNat l.reverse
def beBytes (n x : Nat) : List Byte := (leBytes n x).reverse
/-- A message filled up to whole blocks of 128 bytes: a one bit, zeros, and its length in bits. -/
def shaPad (l : List Byte) : List Byte :=
  l ++ [0x80] ++ List.replicate ((239 - l.length % 128) % 128) 0 ++ beBytes 16 (8 * l.length)
/-- The words of the block that begins at byte `i`. -/
def shaWords (l : List Byte) (i : Nat) : List W64 := (List.range 16).map (fun j => .ofNat 64 (beNat ((l.drop (i + 8 * j)).take 8)))
/-- SHA-384. -/
def sha384 (l : List Byte) : BitVec 384 :=
  let m := shaPad l
  let s := (List.range (m.length / 128)).foldl (fun (s : Sha) i => s.block (shaWords m (128 * i))) Sha.init
  s.a ++ s.b ++ s.c ++ s.d ++ s.e ++ s.f

/-! ### brainpoolP384r1 -/

def ecP : Nat := 0x8CB91E82A3386D280F5D6F7E50E641DF152F7109ED5456B412B1DA197FB71123ACD3A729901D1A71874700133107EC53
def ecA : Nat := 0x7BC382C63D8C150C3C72080ACE05AFA0C2BEA28E4FB22787139165EFBA91F90F8AA5814A503AD4EB04A8C7DD22CE2826
def ecB : Nat := 0x4A8C7DD22CE28268B39B55416F0447C2FB77DE107DCD2A62E880EA53EEB62D57CB4390295DBC9943AB78696FA504C11
/-- The order of the base point. -/
def ecN : Nat := 0x8CB91E82A3386D280F5D6F7E50E641DF152F7109ED5456B31F166E6CAC0425A7CF3AB6AF6B7FC3103B883202E9046565
/-- A point; none is the neutral one. -/
abbrev EcPoint := Option (Nat × Nat)
def ecG : EcPoint :=
  some (0x1D1C64F068CF45FFA2A63A81B7C13F6B8847A3E77EF14FE3DB7FCAFE0CBD10E8E826E03436D646AAEF87B2E247D4AF1E,
    0x8ABE1D7520F9C2A45CB1EB8E95CFD55262B70B29FEEC5864E19C054FF99129280E4646217791811142820341263C5315)

/-- b to the power e modulo m, for exponents below 2^384. -/
def powMod (b e m : Nat) : Nat :=
  (List.range 384).foldr (fun i r => if e.testBit i then r * r % m * b % m else r * r % m) 1
/-- The inverse modulo a prime. -/
def invMod (a m : Nat) : Nat := powMod (a % m) (m - 2) m
/-- The sum of two points. -/
def ecAdd : EcPoint → EcPoint → EcPoint
  | none, y => y
  | x, none => x
  | some (x1, y1), some (x2, y2) =>
    if x1 = x2 && (y1 + y2) % ecP = 0 then none
    else
      let l := if x1 = x2 then (3 * x1 * x1 + ecA) * invMod (2 * y1) ecP % ecP
               else (y2 + ecP - y1) * invMod (x2 + ecP - x1) ecP % ecP
      let x := (l * l + 2 * ecP - x1 - x2) % ecP
      some (x, (l * (x1 + ecP - x) + ecP - y1) % ecP)
/-- k times a point, for k below 2^384. -/
def ecMul (k : Nat) (p : EcPoint) : EcPoint :=
  (List.range 384).foldr (fun i r => if k.testBit i then ecAdd (ecAdd r r) p else ecAdd r r) none
def ecOn : EcPoint → Bool
  | none => false
  | some (x, y) => x < ecP && y < ecP && y * y % ecP = (x * x % ecP * x + ecA * x + ecB) % ecP

/-! ### ECDSA -/

/-- A public key in bytes: x, then y, 48 bytes each, big-endian. DESIGN CHOICE: R447 gives the bytes of signatures only
(notes/assumptions/147.md). -/
def ecEncode : EcPoint → List Byte
  | none => List.replicate 96 0
  | some (x, y) => beBytes 48 x ++ beBytes 48 y
def ecDecode (k : List Byte) : EcPoint := some (beNat (k.take 48), beNat (k.drop 48))
/-- The public key of a private one. -/
def ecPublic (d : Nat) : List Byte := ecEncode (ecMul d ecG)

/-- A signature, r then s, 48 bytes each, big-endian, verifies on a message under a public key (R447). -/
def ecdsaVerify (key msg sig : List Byte) : Bool :=
  let r := beNat (sig.take 48)
  let s := beNat (sig.drop 48)
  let w := invMod s ecN
  let p := ecAdd (ecMul ((sha384 msg).toNat * w % ecN) ecG) (ecMul (r * w % ecN) (ecDecode key))
  key.length = 96 && ecOn (ecDecode key) && sig.length = 96 && 0 < r && r < ecN && 0 < s && s < ecN
  && p.any (fun q => q.1 % ecN = r)
/-- The signature of a message under a private key, with the secret number of this signature. -/
def ecdsaSign (d k : Nat) (msg : List Byte) : List Byte :=
  let r := ((ecMul k ecG).getD (0, 0)).1 % ecN
  beBytes 48 r ++ beBytes 48 (invMod k ecN * ((sha384 msg).toNat + r * d) % ecN)

end Sys2Proof.Machine
end

