-- ==== Sys2Proof/Machine/Secure.lean ====
section
/-! DEFINITION. Identity, boot, measurement, attestation, lifecycle and debug unlock; resets (21 R447 to R454; 01 R24;
13 R344, R348; 18 R411, R412). -/
namespace Sys2Proof.Machine

/-! ### Measurement (R449) -/

/-- The 48 bytes of a digest, most significant first. -/
def digestBytes (x : BitVec 384) : List Byte := beBytes 48 x.toNat
/-- Mi := SHA-384(Mi ‖ data). -/
def Security.extend (x : Security) (i : Fin 8) (data : List Byte) : Security :=
  { x with m := x.m.set i (sha384 (digestBytes x.m[i] ++ data)) }

/-- The fuse configuration as M3 takes it: the model's own order of the fuses. -/
def Security.fuses (x : Security) : List Byte :=
  leBytes 8 x.unlocks ++ leBytes 8 x.minVersion ++ [.ofNat 8 x.unlockFrom.code, if x.seed then 1 else 0]
def Security.extendM3 (x : Security) : Security := x.extend 3 (.ofNat 8 x.life.code :: x.fuses)
def Security.extendM4 (x : Security) : Security :=
  x.extend 4 ((x.ownerDigest.elim [] digestBytes) ++ (x.nodeId.elim [] (fun n => leBytes 2 n.toNat)))

/-! ### Boot (R448) -/

/-- A signature verifies under a key whose digest is fused (R447). -/
def signedUnder (digest : BitVec 384) (key msg sig : List Byte) : Bool := sha384 key = digest && ecdsaVerify key msg sig
/-- The ROM's checks of the image in the slot: signature, then security version. -/
def Security.imageOk (x : Security) : Bool :=
  signedUnder Config.firmwareDigest (Config.imageKey x.image) (Config.imageBody x.image) (Config.imageSignature x.image)
  && x.minVersion ≤ Config.imageVersion x.image
/-- The first `n` measurements in bytes. -/
def Security.measured (x : Security) (n : Nat) : List Byte := (x.m.toList.take n).flatMap digestBytes
/-- Falim boots: M1 to M4 and M7 are extended, an alias key is made for M0 to M2 (R450), a higher security version raises the
fused minimum, and the management core runs in firmware mode (R435). -/
def Security.bootFalim (x : Security) : Security :=
  let v := Config.imageVersion x.image
  let x := x.extend 1 (digestBytes (sha384 x.image))
  let x := x.extend 2 (leBytes 8 v ++ leBytes 8 x.minVersion)
  let x := x.extendM3.extendM4.extend 7 (leBytes 8 x.unlocks)
  { x with
    boot := .running, minVersion := max x.minVersion v, mgmt := { stat := 128, halted := false, mgmt := true }
    aliasKey := x.idKey.map (fun _ => Config.aliasSecret Config.identitySeed (x.measured 3)) }
/-- The ROM checks the image and boots it, or opens the boot endpoint. -/
def Security.check (x : Security) : Security := if x.imageOk then x.bootFalim else { x with boot := .streaming }

/-- What a cold reset leaves of identity and measurement: fuses and the image stay, a debug unlock ends in the state it
was taken from, M0 to M7 are zero (R449, R451, R453, R454). -/
def Security.atReset (x : Security) : Security :=
  { x with
    life := if x.life = .debugUnlocked then x.unlockFrom else x.life
    m := Vector.replicate 8 0, nonce := none, scope := 0, boot := .rom, mgmt := { stat := 128, mgmt := true }
    idKey := none, aliasKey := none }
/-- The identity key's private part, while the seed stands. -/
def Security.derived (x : Security) : Option Nat := if x.seed then some (Config.deriveKey Config.identitySeed) else none
/-- The ROM starts: M0, the identity key, then the check (R447 to R449). -/
def Security.romStart (x : Security) : Security :=
  ({ x.atReset.extend 0 Config.romIdentity with idKey := x.derived } : Security).check

/-- The machine with its volatile state as cold reset leaves it: recorded remaps are reapplied, pages are Free, and the
spares they use stay used (R411). What has been sent, and the model's own fields, stand. -/
def State.powerOn (s : State) (x : Security) : State :=
  { State.reset with
    agenda := s.agenda, freeIx := s.freeIx, nextId := s.nextId, sent := s.sent, sec := x
    cores := s.cores.map (fun (e : Nat × Core) =>
      (e.1, { pages := e.2.pages.map (fun p => { remap := p.remap }), spLeft := e.2.spLeft })) }

/-- COLD_RESET (R448): the ROM starts on a device whose volatile state is as at reset. -/
def execColdReset (s : State) : Out := .next (s.powerOn s.sec.romStart)

/-- The machine after a warm reset that ends all work: memory, cycle counters, pages withdrawn until cold reset, and
the state of identity, boot and debug stand. -/
def State.warm (s : State) : State :=
  { s.powerOn s.sec with
    mem := s.mem, side := s.side
    cores := s.cores.map (fun (e : Nat × Core) =>
      (e.1, { cyc := e.2.cyc, spLeft := e.2.spLeft
              pages := e.2.pages.map (fun p => { remap := p.remap, want := p.want, wear := p.wear
                                                 st := if p.st = .quarantined then .quarantined else .free }) })) }

/-- WARM_RESET (R24): cycle counters stay. Whether the work of contexts stays or ends, no rule says: the device chooses
one of the two. -/
def execWarmReset (s : State) : Out := .next (if Config.choice (s.freeIx * 65536) then s else s.warm)

/-- The image slot with bytes written at an offset. -/
def slotWrite (image : List Byte) (off : Nat) (data : List Byte) : List Byte :=
  (image ++ List.replicate off 0).take off ++ data

/-- BOOT_IMAGE_PACKET (R448): a packet of up to 4,096 bytes is written to the slot while the ROM waits; the last one is
followed by the check, and a failed check discards the image. -/
def execBootImagePacket (off : Nat) (data : List Byte) (last : Bool) (s : State) : Out :=
  if s.sec.boot != .streaming || 4096 < data.length then .next s
  else
    let x := { s.sec with image := slotWrite s.sec.image off data }
    if !last then .next { s with sec := x }
    else
      let y := x.check
      .next { s with sec := if y.boot = .running then y else { y with image := [] } }

/-! ### SPDM (R450) -/

/-- A request reaches the responder: Falim runs; in Decommissioned it is refused (R452). -/
def spdm (s : State) (k : State → State) : Out :=
  if s.sec.boot != .running then .next s
  else if s.sec.life = .decommissioned then .next (s.send (.refusal stSTATE))
  else .next (k s)

/-- The bytes of DEVID, and a private key's public one. -/
def devIdBytes : List Byte := leBytes 16 Config.devId.toNat
def publicOf (d : Option Nat) : List Byte := d.elim [] ecPublic
/-- A signature of the device, r then s (R447). -/
def signWith (d : Option Nat) (msg : List Byte) : List Byte := d.elim [] (fun d => ecdsaSign d (Config.signSecret d msg) msg)
/-- Certificate slot 0: the root; the identity certificate, which binds DEVID; the alias certificate, which binds the alias
key to M0 to M2 and is signed by the identity key. What the certificates hold beside, no rule says
(notes/assumptions/147.md). -/
def Security.chain (x : Security) : List Byte :=
  let ident := devIdBytes ++ publicOf x.idKey
  let alias_ := publicOf x.aliasKey ++ x.measured 3
  Config.rootCert ++ ident ++ alias_ ++ signWith x.idKey alias_

/-- What the responses say of the version, SPDM 1.3; of the capabilities that R450's requests need (certificates, challenge,
signed measurements); and of the algorithms, SHA-384 and R447's as an extended one. The places of these fields in SPDM's
messages are PRESUMED (notes/assumptions/147.md). -/
def spdmVersion : List Byte := leBytes 2 0x1300
def spdmCapabilities : List Byte := leBytes 4 0x16
def spdmAlgorithms : List Byte := leBytes 4 2 ++ Config.extAlgorithm
/-- GET_VERSION. -/
def execGetVersion (tag : Nat) (s : State) : Out := spdm s (fun s => s.send (.spdm tag spdmVersion))
/-- GET_CAPABILITIES. -/
def execGetCapabilities (tag : Nat) (s : State) : Out := spdm s (fun s => s.send (.spdm tag spdmCapabilities))
/-- NEGOTIATE_ALGORITHMS. -/
def execNegotiateAlgorithms (tag : Nat) (s : State) : Out := spdm s (fun s => s.send (.spdm tag spdmAlgorithms))
/-- GET_DIGESTS: the SHA-384 of the chain in slot 0. -/
def execGetDigests (tag : Nat) (s : State) : Out :=
  spdm s (fun s => s.send (.spdm tag (digestBytes (sha384 s.sec.chain))))
/-- GET_CERTIFICATE. -/
def execGetCertificate (tag : Nat) (s : State) : Out := spdm s (fun s => s.send (.spdm tag s.sec.chain))
/-- CHALLENGE: signed by the alias key. -/
def execChallenge (tag : Nat) (nonce : List Byte) (s : State) : Out :=
  spdm s (fun s =>
    let body := digestBytes (sha384 s.sec.chain) ++ s.sec.measured 8 ++ nonce
    s.send (.spdm tag (body ++ signWith s.sec.aliasKey body)))
/-- GET_MEASUREMENTS: blocks 0 to 7 report M0 to M7, signed by the alias key. -/
def execGetMeasurements (tag : Nat) (nonce : List Byte) (s : State) : Out :=
  spdm s (fun s =>
    let body := s.sec.measured 8 ++ nonce
    s.send (.spdm tag (body ++ signWith s.sec.aliasKey body)))

/-! ### Lifecycle (R451, R452) -/

/-- A request signed by the owner key over DEVID, the request and the current nonce. -/
def Security.owned (x : Security) (r : Signed) (req : List Byte) : Bool :=
  x.ownerDigest = some (sha384 r.key) && x.nonce = some r.nonce && ecdsaVerify r.key (devIdBytes ++ req ++ r.nonce) r.sig
/-- A lifecycle request: the fuses after it, or a refusal. -/
def lifecycleReq (s : State) (f : Security → Option Security) : Out :=
  spdm s (fun s =>
    match f s.sec with
    | none => s.send (.lifecycle false)
    | some x => ({ s with sec := x } : State).send (.lifecycle true))

/-- PROVISION: its data is the owner key digest and the telemetry address. -/
def execProvision (x : Signed) (s : State) : Out :=
  lifecycleReq s (fun y =>
    if y.life = .manufacture && signedUnder Config.manufacturingDigest x.key x.data x.sig && 48 ≤ x.data.length then
      some ({ y with life := .provisioned, teleAddr := x.data.drop 48
                     ownerDigest := some (.ofNat 384 (beNat (x.data.take 48))) } : Security).extendM3.extendM4
    else none)
/-- SET_NODE. -/
def execSetNode (x : Signed) (node : BitVec 16) (s : State) : Out :=
  lifecycleReq s (fun y =>
    if y.life = .provisioned && y.owned x (1 :: leBytes 2 node.toNat) then
      some ({ y with nodeId := some node, nonce := none } : Security).extendM4
    else none)
/-- DEPLOY. -/
def execDeploy (x : Signed) (s : State) : Out :=
  lifecycleReq s (fun y =>
    if y.life = .provisioned && y.nodeId.isSome && y.owned x [2] then
      some ({ y with life := .deployed, nonce := none } : Security).extendM3
    else none)

/-- DECOMMISSION: tenant keys are wiped and the identity seed zeroised. -/
def execDecommission (x : Signed) (s : State) : Out :=
  spdm s (fun s =>
    if s.sec.owned x [3] then
      let s := s.zeroKeys (fun _ => true)
      ({ s with sec := ({ s.sec with life := .decommissioned, seed := false, nonce := none } : Security).extendM3 } : State).send (.lifecycle true)
    else s.send (.lifecycle false))

/-! ### Debug unlock (R453, R454) -/

/-- DBG_NONCE: a fresh nonce of 32 bytes replaces any earlier one. -/
def execDbgNonce (s : State) : Out :=
  spdm s (fun s =>
    let n := (Config.freeBytes s.freeIx ++ List.replicate 32 0).take 32
    ({ s with sec := { s.sec with nonce := some n } } : State).send (.spdm 0 n))

def slice (l : List Byte) (a n : Nat) : List Byte := (l.drop a).take n
/-- A valid token. -/
def Security.tokenOk (x : Security) (t : List Byte) : Bool :=
  t.length = 160 && signedUnder Config.debugDigest Config.debugKey (t.take 64) (t.drop 64)
  && leNat (slice t 0 2) = 1 && leNat (slice t 2 2) < 8 && leNat (slice t 4 1) = x.life.code && slice t 5 3 = [0, 0, 0]
  && slice t 8 16 = devIdBytes && x.nonce = some (slice t 24 32) && slice t 56 8 = List.replicate 8 0

/-- DBG_UNLOCK (R454): the unlock is fused, every context that is neither Lost nor Destroyed becomes Lost, tenant keys
are zeroed, M7 takes the token's digest, the functions of SCOPE open. A token that is valid in a state without the transition
is refused, and it too consumes the nonce (R451, R453). -/
def execDbgUnlock (token : List Byte) (s : State) : Out :=
  spdm s (fun s =>
    if !s.sec.tokenOk token then s.send (.lifecycle false)
    else if !(s.sec.life = .provisioned || s.sec.life = .deployed) then
      ({ s with sec := { s.sec with nonce := none } } : State).send (.lifecycle false)
    else
      let y : Security := { s.sec with unlocks := s.sec.unlocks + 1, unlockFrom := s.sec.life, nonce := none }
      let s : State := { s with sec := y }
      let s := (s.ctxs.map (·.1)).foldl (fun (s : State) c => s.lose c .unlock) s
      let s := s.zeroKeys (fun _ => true)
      let y : Security := { s.sec with life := .debugUnlocked, scope := .ofNat 16 (leNat (slice token 2 2)) }
      ({ s with sec := (y.extendM3).extend 7 (digestBytes (sha384 token)) } : State).send (.lifecycle true))

end Sys2Proof.Machine
end

