-- ==== Sys2Proof/Machine/Khamsin.lean ====
section
/-! DEFINITION. Power states, thermal and supply limits, and Khamsin's services (14 R366; 21 R455 to R458). An event that
its rule does not enable changes nothing (00 R10). -/
namespace Sys2Proof.Machine

/-! ### Power (R366, R455) -/

def Power.depth : Power → Nat
  | .active => 0 | .clockGated => 1 | .pageGated => 2 | .selfRefresh => 3 | .linkLow => 4
def powerAt : Nat → Power
  | 0 => .active | 1 => .clockGated | 2 => .pageGated | 3 => .selfRefresh | _ => .linkLow

/-- The deepest state a core's tolerances allow: LTOL code k tolerates the resume latency of state k. -/
def State.deepest (s : State) (core : Nat) : Power :=
  let l := (s.queues.filter (fun (e : Nat × Queue) => e.2.st = .enabled && !e.2.consuming && e.2.aff / 2 ^ dieOf core % 2 = 1)).map
    (fun e => e.2.ltol)
  powerAt (l.foldl min 4)
/-- A core may leave Active: its pages are Free or Quarantined, its Erg array is Free, and no command of its fabric interface
is in progress. -/
def State.idle (s : State) (core : Nat) : Bool :=
  (s.core core).pages.all (fun p => p.st = .free || p.st = .quarantined) && (s.core core).erg.st = .free
  && !s.remotes.any (fun (e : Nat × Remote) => e.2.kind != .dev && e.2.core = core && e.2.result.isNone && !e.2.failed)
/-- Every core is in a state or deeper. -/
def State.allAt (s : State) (p : Power) : Bool := (List.range coreCount).all (fun c => p.depth ≤ (s.core c).power.depth)
/-- Stacks enter self-refresh only while every core is in that state or deeper, ports their low-power mode only while every core
is in LinkLow; which do, the device chooses (R8, R455). -/
def State.sleepUnits (s : State) : State :=
  let j := s.freeIx * 65536
  let asleep := if !s.allAt .selfRefresh then s.selfRefresh
    else (List.range 12).filter (fun k => s.selfRefresh.contains k
      || (!s.retraining.contains k && !s.repairing.any (fun x => x.1 = k) && Config.choice (j + k)))
  let ports := if !s.allAt .linkLow then s.ports
    else ((List.range s.ports.length).zip s.ports).map (fun (e : Nat × Port) =>
      if e.2.carries && Config.choice (j + 12 + e.1) then { e.2 with low := true } else e.2)
  { s with selfRefresh := asleep, ports := ports }

/-- POWER_STATE_ENTER. -/
def execPowerStateEnter (core : Nat) (s : State) : Out :=
  if coreCount ≤ core || !s.idle core || (s.core core).waking then .next s
  else
    let p := s.deepest core
    let s1 := if (s.core core).power = p then s else s.report (.power core p)
    .next (s1.setCore core { s.core core with power := p }).sleepUnits

/-- POWER_STATE_WAKE: a core that a placement needs, or that may no longer be so deep, is Active again. -/
def execPowerStateWake (core : Nat) (s : State) : Out :=
  let x := s.core core
  if coreCount ≤ core || x.power = .active || !(x.waking || (s.deepest core).depth < x.power.depth) then .next s
  else .next ((s.setCore core { x with power := .active, waking := false }).report (.power core .active))

/-! ### Limits (R456) -/

/-- The package shuts down: the crossings that make it do so are reported, where a port carries traffic, and volatile state is
lost, as at a cold reset. -/
def State.shutDown (s : State) (l : List TeleRec) : State :=
  let t := s.powerOn { s.sec.atReset with life := s.sec.life, boot := .shutDown }
  if s.sec.boot = .running && s.ports.any Port.carries then { t with sent := t.sent ++ l.map Sent.telemetry } else t

/-- THERMAL_SENSING: at 110 °C the package shuts down; above 100 °C every core is gated on alternate cycles until all
sensors are below 95 °C. -/
def execThermalSensing (temps : List Int) (s : State) : Out :=
  if temps.any (fun t => 110 ≤ t) then
    .next (s.shutDown ((if s.throttle then [] else [.thermal 100 true]) ++ [.thermal 110 true]))
  else if temps.any (fun t => 100 < t) then .next (if s.throttle then s else { s.report (.thermal 100 true) with throttle := true })
  else if s.throttle && temps.all (fun t => t < 95) then .next { s.report (.thermal 95 false) with throttle := false }
  else .next s

/-- SUPPLY_FAULT: the supply has been out of range for 1 ms. -/
def execSupplyFault (s : State) : Out := .next (s.shutDown [.supply])

/-! ### Services (R457, R458) -/

/-- Corrected errors are counted; nothing a program reads changes (R444). -/
def State.corrected (s : State) (n : Nat) : State :=
  if n = 0 then s else ({ s with tele := { s.tele with corrected := s.tele.corrected + n } } : State).report (.errors n)
/-- How many corrected errors a scrub meets. -/
def State.errors (s : State) : Nat := Config.pick (s.freeIx * 65536)
/-- A count over 24 hours with the errors met now: of those before, a free number lies within the 24 hours. -/
def State.counted (s : State) (old : Nat) : Nat := Config.pick (s.freeIx * 65536 + 2) % (old + 1) + s.errors
/-- A pass that windows have delayed beyond its 24 hours is recorded; whether it is, no event counts (R458). -/
def State.delayed (s : State) (stack : Nat) : State :=
  if Config.choice (s.freeIx * 65536) then s.report (.delay stack) else s
/-- The name of a row in `rowErrs`. -/
def rowKey (stack row : Nat) : Nat := 2 ^ 40 * stack + row

/-- HBM_PATROL_SCRUB: a sector is read with its sideband, for which its stack wakes, and corrected words are rewritten; the
errors count for its row. It is paused while a window is open, and waits while the stack retrains. -/
def execHbmPatrolScrub (stack sector : Nat) (s : State) : Out :=
  if !installed (64 * sector) || homeStack (64 * sector) != stack then .next s
  else if s.windowOpen then .next (s.delayed stack)
  else if s.quiesced (64 * sector) then .next s
  else
    let k := rowKey stack (Config.rowOf sector)
    .next ((({ s with rowErrs := s.rowErrs.store k (s.counted (s.rowErrs.get k 0)) 0 } : State).rouse sector).corrected s.errors)

/-- SRAM_SCRUB: a dune bank of a core, whose corrected errors count toward its wear, its share of the Playa tier, or its Erg
storage is scrubbed. -/
def execSramScrub (core : Nat) (s : State) : Out :=
  if s.windowOpen || coreCount ≤ core then .next s
  else
    let d := Config.pick (s.freeIx * 65536 + 1) % 98
    let x := s.core core
    let s1 := if d < 96 then s.setCore core { x with wear := x.wear.store d (s.counted (x.wear.get d 0)) 0 } else s
    .next (s1.corrected s.errors)

/-- HBM_RETRAINING: a stack is quiesced. -/
def execHbmRetraining (stack : Nat) (s : State) : Out :=
  if s.windowOpen || 12 ≤ stack || s.retraining.contains stack then .next s
  else .next { s with retraining := s.retraining ++ [stack], selfRefresh := s.selfRefresh.filter (· != stack) }
/-- HBM_RETRAINING_DONE: its waiting accesses proceed. -/
def execHbmRetrainingDone (stack : Nat) (s : State) : Out :=
  .next { s with retraining := s.retraining.filter (· != stack) }

/-- HBM_ROW_REPAIR: a row with 4 or more corrected errors in 24 hours is copied into a spare row, and accesses to it wait. -/
def execHbmRowRepair (stack row : Nat) (s : State) : Out :=
  if s.windowOpen || 12 ≤ stack || s.repairing.contains (stack, row) || s.rowErrs.get (rowKey stack row) 0 < 4 then .next s
  else .next { s with repairing := s.repairing ++ [(stack, row)], selfRefresh := s.selfRefresh.filter (· != stack) }
/-- HBM_ROW_REPAIR_DONE. -/
def execHbmRowRepairDone (stack row : Nat) (s : State) : Out :=
  if !s.repairing.contains (stack, row) then .next s
  else .next { s with repairing := s.repairing.filter (· != (stack, row)), rowErrs := s.rowErrs.del (rowKey stack row) }

/-- TELEMETRY_RECORD: the oldest record due is sent to the telemetry address, or dropped and counted when no port is in Up or
Degraded. -/
def execTelemetryRecord (s : State) : Out :=
  match s.tele.pending with
  | [] => .next s
  | r :: rest =>
    if s.sec.boot != .running then .next s
    else if s.ports.any Port.carries then
      .next (({ s with tele := { s.tele with pending := rest, sent := s.tele.sent + 1 } } : State).wakePort.send (.telemetry r))
    else .next { s with tele := { s.tele with pending := rest, lost := s.tele.lost + 1 } }

end Sys2Proof.Machine
end

