-- ==== Sys2Proof/Machine/NodeAccess.lean ====
section
/-! DEFINITION. One firing of each of the memory nodes (08 R231 to R242). -/
namespace Sys2Proof.Machine

/-- LDN (R236). -/
def execLdn (x : N32) (s : State) : Out := runNode (view32 0xAE x) s Nd.begin
/-- LDN_N64 (R236). -/
def execLdnN64 (x : N64) (s : State) : Out := runNode (view64 0xAE x) s Nd.begin
/-- LDN_N96 (R236). -/
def execLdnN96 (x : N96) (s : State) : Out := runNode (view96 0xAE x) s Nd.begin
/-- STN (R237). -/
def execStn (x : N32) (s : State) : Out := runNode (view32 0xAF x) s Nd.stn
/-- STN_N64 (R237). -/
def execStnN64 (x : N64) (s : State) : Out := runNode (view64 0xAF x) s Nd.stn
/-- STN_N96 (R237). -/
def execStnN96 (x : N96) (s : State) : Out := runNode (view96 0xAF x) s Nd.stn
/-- ATOM (R238). -/
def execAtomNode (x : N32) (s : State) : Out := runNode (view32 0xB0 x) s Nd.begin
/-- ATOM_N64 (R238). -/
def execAtomNodeN64 (x : N64) (s : State) : Out := runNode (view64 0xB0 x) s Nd.begin
/-- ATOM_N96 (R238). -/
def execAtomNodeN96 (x : N96) (s : State) : Out := runNode (view96 0xB0 x) s Nd.begin
/-- ACQN (R239). -/
def execAcqn (x : N32) (s : State) : Out := runNode (view32 0xB1 x) s Nd.begin
/-- ACQN_N64 (R239). -/
def execAcqnN64 (x : N64) (s : State) : Out := runNode (view64 0xB1 x) s Nd.begin
/-- ACQN_N96 (R239). -/
def execAcqnN96 (x : N96) (s : State) : Out := runNode (view96 0xB1 x) s Nd.begin
/-- RELN_N64 (R239). -/
def execRelnN64 (x : N64) (s : State) : Out := runNode (view64 0xB2 x) s Nd.reln
/-- RELN_N96 (R239). -/
def execRelnN96 (x : N96) (s : State) : Out := runNode (view96 0xB2 x) s Nd.reln
/-- WCVT (R240). -/
def execWcvt (x : N32) (s : State) : Out := runNode (view32 0xB3 x) s Nd.begin
/-- WCVT_N64 (R240). -/
def execWcvtN64 (x : N64) (s : State) : Out := runNode (view64 0xB3 x) s Nd.begin
/-- WCVT_N96 (R240). -/
def execWcvtN96 (x : N96) (s : State) : Out := runNode (view96 0xB3 x) s Nd.begin
/-- MSTORE (R241). -/
def execMstore (x : N32) (s : State) : Out := runNode (view32 0xB4 x) s Nd.begin
/-- MSTORE_N64 (R241). -/
def execMstoreN64 (x : N64) (s : State) : Out := runNode (view64 0xB4 x) s Nd.begin
/-- MSTORE_N96 (R241). -/
def execMstoreN96 (x : N96) (s : State) : Out := runNode (view96 0xB4 x) s Nd.begin

end Sys2Proof.Machine
end

