-- ==== Sys2Proof/Machine/NodeAlu.lean ====
section
/-! DEFINITION. One firing of each of the nodes that compute element by element (07 R194 to R202). -/
namespace Sys2Proof.Machine

/-- INGR (R194). -/
def execIngr (x : N32) (s : State) : Out := runNode (view32 0x80 x) s Nd.ingr
/-- INGR_N64 (R194). -/
def execIngrN64 (x : N64) (s : State) : Out := runNode (view64 0x80 x) s Nd.ingr
/-- INGR_N96 (R194). -/
def execIngrN96 (x : N96) (s : State) : Out := runNode (view96 0x80 x) s Nd.ingr
/-- EGR (R194). -/
def execEgr (x : N32) (s : State) : Out := runNode (view32 0x81 x) s Nd.egr
/-- EGR_N64 (R194). -/
def execEgrN64 (x : N64) (s : State) : Out := runNode (view64 0x81 x) s Nd.egr
/-- EGR_N96 (R194). -/
def execEgrN96 (x : N96) (s : State) : Out := runNode (view96 0x81 x) s Nd.egr
/-- CONST (R195). -/
def execCst (x : N32) (s : State) : Out := runNode (view32 0x82 x) s Nd.const
/-- CONST_N64 (R195). -/
def execCstN64 (x : N64) (s : State) : Out := runNode (view64 0x82 x) s Nd.const
/-- CONST_N96 (R195). -/
def execCstN96 (x : N96) (s : State) : Out := runNode (view96 0x82 x) s Nd.const
/-- ADD_NODE (R196). -/
def execAddNode (x : N32) (s : State) : Out := runNode (view32 0x83 x) s Nd.intNode
/-- ADD_NODE_N64 (R196). -/
def execAddNodeN64 (x : N64) (s : State) : Out := runNode (view64 0x83 x) s Nd.intNode
/-- ADD_NODE_N96 (R196). -/
def execAddNodeN96 (x : N96) (s : State) : Out := runNode (view96 0x83 x) s Nd.intNode
/-- SUB_NODE (R196). -/
def execSubNode (x : N32) (s : State) : Out := runNode (view32 0x84 x) s Nd.intNode
/-- SUB_NODE_N64 (R196). -/
def execSubNodeN64 (x : N64) (s : State) : Out := runNode (view64 0x84 x) s Nd.intNode
/-- SUB_NODE_N96 (R196). -/
def execSubNodeN96 (x : N96) (s : State) : Out := runNode (view96 0x84 x) s Nd.intNode
/-- MUL_NODE (R196). -/
def execMulNode (x : N32) (s : State) : Out := runNode (view32 0x85 x) s Nd.intNode
/-- MUL_NODE_N64 (R196). -/
def execMulNodeN64 (x : N64) (s : State) : Out := runNode (view64 0x85 x) s Nd.intNode
/-- MUL_NODE_N96 (R196). -/
def execMulNodeN96 (x : N96) (s : State) : Out := runNode (view96 0x85 x) s Nd.intNode
/-- MAD (R196). -/
def execMad (x : N32) (s : State) : Out := runNode (view32 0x86 x) s Nd.intNode
/-- MAD_N64 (R196). -/
def execMadN64 (x : N64) (s : State) : Out := runNode (view64 0x86 x) s Nd.intNode
/-- MAD_N96 (R196). -/
def execMadN96 (x : N96) (s : State) : Out := runNode (view96 0x86 x) s Nd.intNode
/-- MIN_NODE (R196). -/
def execMinNode (x : N32) (s : State) : Out := runNode (view32 0x87 x) s Nd.intNode
/-- MIN_NODE_N64 (R196). -/
def execMinNodeN64 (x : N64) (s : State) : Out := runNode (view64 0x87 x) s Nd.intNode
/-- MIN_NODE_N96 (R196). -/
def execMinNodeN96 (x : N96) (s : State) : Out := runNode (view96 0x87 x) s Nd.intNode
/-- MAX_NODE (R196). -/
def execMaxNode (x : N32) (s : State) : Out := runNode (view32 0x88 x) s Nd.intNode
/-- MAX_NODE_N64 (R196). -/
def execMaxNodeN64 (x : N64) (s : State) : Out := runNode (view64 0x88 x) s Nd.intNode
/-- MAX_NODE_N96 (R196). -/
def execMaxNodeN96 (x : N96) (s : State) : Out := runNode (view96 0x88 x) s Nd.intNode
/-- ABS (R196). -/
def execAbsNode (x : N32) (s : State) : Out := runNode (view32 0x89 x) s Nd.intNode
/-- ABS_N64 (R196). -/
def execAbsNodeN64 (x : N64) (s : State) : Out := runNode (view64 0x89 x) s Nd.intNode
/-- ABS_N96 (R196). -/
def execAbsNodeN96 (x : N96) (s : State) : Out := runNode (view96 0x89 x) s Nd.intNode
/-- AND_NODE (R196). -/
def execAndNode (x : N32) (s : State) : Out := runNode (view32 0x8A x) s Nd.intNode
/-- AND_NODE_N64 (R196). -/
def execAndNodeN64 (x : N64) (s : State) : Out := runNode (view64 0x8A x) s Nd.intNode
/-- AND_NODE_N96 (R196). -/
def execAndNodeN96 (x : N96) (s : State) : Out := runNode (view96 0x8A x) s Nd.intNode
/-- OR_NODE (R196). -/
def execOrNode (x : N32) (s : State) : Out := runNode (view32 0x8B x) s Nd.intNode
/-- OR_NODE_N64 (R196). -/
def execOrNodeN64 (x : N64) (s : State) : Out := runNode (view64 0x8B x) s Nd.intNode
/-- OR_NODE_N96 (R196). -/
def execOrNodeN96 (x : N96) (s : State) : Out := runNode (view96 0x8B x) s Nd.intNode
/-- XOR_NODE (R196). -/
def execXorNode (x : N32) (s : State) : Out := runNode (view32 0x8C x) s Nd.intNode
/-- XOR_NODE_N64 (R196). -/
def execXorNodeN64 (x : N64) (s : State) : Out := runNode (view64 0x8C x) s Nd.intNode
/-- XOR_NODE_N96 (R196). -/
def execXorNodeN96 (x : N96) (s : State) : Out := runNode (view96 0x8C x) s Nd.intNode
/-- SHL_NODE (R196). -/
def execShlNode (x : N32) (s : State) : Out := runNode (view32 0x8D x) s Nd.intNode
/-- SHL_NODE_N64 (R196). -/
def execShlNodeN64 (x : N64) (s : State) : Out := runNode (view64 0x8D x) s Nd.intNode
/-- SHL_NODE_N96 (R196). -/
def execShlNodeN96 (x : N96) (s : State) : Out := runNode (view96 0x8D x) s Nd.intNode
/-- SHR_NODE (R196). -/
def execShrNode (x : N32) (s : State) : Out := runNode (view32 0x8E x) s Nd.intNode
/-- SHR_NODE_N64 (R196). -/
def execShrNodeN64 (x : N64) (s : State) : Out := runNode (view64 0x8E x) s Nd.intNode
/-- SHR_NODE_N96 (R196). -/
def execShrNodeN96 (x : N96) (s : State) : Out := runNode (view96 0x8E x) s Nd.intNode
/-- SAR_NODE (R196). -/
def execSarNode (x : N32) (s : State) : Out := runNode (view32 0x8F x) s Nd.intNode
/-- SAR_NODE_N64 (R196). -/
def execSarNodeN64 (x : N64) (s : State) : Out := runNode (view64 0x8F x) s Nd.intNode
/-- SAR_NODE_N96 (R196). -/
def execSarNodeN96 (x : N96) (s : State) : Out := runNode (view96 0x8F x) s Nd.intNode
/-- CMP_NODE (R197). -/
def execCmpNode (x : N32) (s : State) : Out := runNode (view32 0x90 x) s Nd.cmpNode
/-- CMP_NODE_N64 (R197). -/
def execCmpNodeN64 (x : N64) (s : State) : Out := runNode (view64 0x90 x) s Nd.cmpNode
/-- CMP_NODE_N96 (R197). -/
def execCmpNodeN96 (x : N96) (s : State) : Out := runNode (view96 0x90 x) s Nd.cmpNode
/-- SEL_NODE (R197). -/
def execSelNode (x : N32) (s : State) : Out := runNode (view32 0x91 x) s Nd.selNode
/-- SEL_NODE_N64 (R197). -/
def execSelNodeN64 (x : N64) (s : State) : Out := runNode (view64 0x91 x) s Nd.selNode
/-- SEL_NODE_N96 (R197). -/
def execSelNodeN96 (x : N96) (s : State) : Out := runNode (view96 0x91 x) s Nd.selNode
/-- CVT (R199). -/
def execCvt (x : N32) (s : State) : Out := runNode (view32 0x92 x) s Nd.cvtNode
/-- CVT_N64 (R199). -/
def execCvtN64 (x : N64) (s : State) : Out := runNode (view64 0x92 x) s Nd.cvtNode
/-- CVT_N96 (R199). -/
def execCvtN96 (x : N96) (s : State) : Out := runNode (view96 0x92 x) s Nd.cvtNode
/-- FADD (R198). -/
def execFadd (x : N32) (s : State) : Out := runNode (view32 0x93 x) s Nd.fltNode
/-- FADD_N64 (R198). -/
def execFaddN64 (x : N64) (s : State) : Out := runNode (view64 0x93 x) s Nd.fltNode
/-- FADD_N96 (R198). -/
def execFaddN96 (x : N96) (s : State) : Out := runNode (view96 0x93 x) s Nd.fltNode
/-- FMUL (R198). -/
def execFmul (x : N32) (s : State) : Out := runNode (view32 0x94 x) s Nd.fltNode
/-- FMUL_N64 (R198). -/
def execFmulN64 (x : N64) (s : State) : Out := runNode (view64 0x94 x) s Nd.fltNode
/-- FMUL_N96 (R198). -/
def execFmulN96 (x : N96) (s : State) : Out := runNode (view96 0x94 x) s Nd.fltNode
/-- FMA (R198). -/
def execFma (x : N32) (s : State) : Out := runNode (view32 0x95 x) s Nd.fltNode
/-- FMA_N64 (R198). -/
def execFmaN64 (x : N64) (s : State) : Out := runNode (view64 0x95 x) s Nd.fltNode
/-- FMA_N96 (R198). -/
def execFmaN96 (x : N96) (s : State) : Out := runNode (view96 0x95 x) s Nd.fltNode
/-- FMIN (R198). -/
def execFmin (x : N32) (s : State) : Out := runNode (view32 0x96 x) s Nd.fltNode
/-- FMIN_N64 (R198). -/
def execFminN64 (x : N64) (s : State) : Out := runNode (view64 0x96 x) s Nd.fltNode
/-- FMIN_N96 (R198). -/
def execFminN96 (x : N96) (s : State) : Out := runNode (view96 0x96 x) s Nd.fltNode
/-- FMAX (R198). -/
def execFmax (x : N32) (s : State) : Out := runNode (view32 0x97 x) s Nd.fltNode
/-- FMAX_N64 (R198). -/
def execFmaxN64 (x : N64) (s : State) : Out := runNode (view64 0x97 x) s Nd.fltNode
/-- FMAX_N96 (R198). -/
def execFmaxN96 (x : N96) (s : State) : Out := runNode (view96 0x97 x) s Nd.fltNode
/-- FCMP (R198). -/
def execFcmp (x : N32) (s : State) : Out := runNode (view32 0x98 x) s Nd.fcmpNode
/-- FCMP_N64 (R198). -/
def execFcmpN64 (x : N64) (s : State) : Out := runNode (view64 0x98 x) s Nd.fcmpNode
/-- FCMP_N96 (R198). -/
def execFcmpN96 (x : N96) (s : State) : Out := runNode (view96 0x98 x) s Nd.fcmpNode
/-- FRCP (R45). -/
def execFrcp (x : N32) (s : State) : Out := runNode (view32 0x99 x) s Nd.specialNode
/-- FRCP_N64 (R45). -/
def execFrcpN64 (x : N64) (s : State) : Out := runNode (view64 0x99 x) s Nd.specialNode
/-- FRCP_N96 (R45). -/
def execFrcpN96 (x : N96) (s : State) : Out := runNode (view96 0x99 x) s Nd.specialNode
/-- FRSQ (R45). -/
def execFrsq (x : N32) (s : State) : Out := runNode (view32 0x9A x) s Nd.specialNode
/-- FRSQ_N64 (R45). -/
def execFrsqN64 (x : N64) (s : State) : Out := runNode (view64 0x9A x) s Nd.specialNode
/-- FRSQ_N96 (R45). -/
def execFrsqN96 (x : N96) (s : State) : Out := runNode (view96 0x9A x) s Nd.specialNode
/-- FEXP2 (R45). -/
def execFexp2 (x : N32) (s : State) : Out := runNode (view32 0x9B x) s Nd.specialNode
/-- FEXP2_N64 (R45). -/
def execFexp2N64 (x : N64) (s : State) : Out := runNode (view64 0x9B x) s Nd.specialNode
/-- FEXP2_N96 (R45). -/
def execFexp2N96 (x : N96) (s : State) : Out := runNode (view96 0x9B x) s Nd.specialNode
/-- FLOG2 (R45). -/
def execFlog2 (x : N32) (s : State) : Out := runNode (view32 0x9C x) s Nd.specialNode
/-- FLOG2_N64 (R45). -/
def execFlog2N64 (x : N64) (s : State) : Out := runNode (view64 0x9C x) s Nd.specialNode
/-- FLOG2_N96 (R45). -/
def execFlog2N96 (x : N96) (s : State) : Out := runNode (view96 0x9C x) s Nd.specialNode
/-- UNPK3 (R200). -/
def execUnpk3 (x : N32) (s : State) : Out := runNode (view32 0x9D x) s Nd.unpk3
/-- UNPK3_N64 (R200). -/
def execUnpk3N64 (x : N64) (s : State) : Out := runNode (view64 0x9D x) s Nd.unpk3
/-- UNPK3_N96 (R200). -/
def execUnpk3N96 (x : N96) (s : State) : Out := runNode (view96 0x9D x) s Nd.unpk3
/-- BMAND_N64 (R201). -/
def execBmandN64 (x : N64) (s : State) : Out := runNode (view64 0x9E x) s Nd.bmand
/-- BMAND_N96 (R201). -/
def execBmandN96 (x : N96) (s : State) : Out := runNode (view96 0x9E x) s Nd.bmand
/-- PFXPOP (R202). -/
def execPfxpop (x : N32) (s : State) : Out := runNode (view32 0x9F x) s Nd.pfxpop
/-- PFXPOP_N64 (R202). -/
def execPfxpopN64 (x : N64) (s : State) : Out := runNode (view64 0x9F x) s Nd.pfxpop
/-- PFXPOP_N96 (R202). -/
def execPfxpopN96 (x : N96) (s : State) : Out := runNode (view96 0x9F x) s Nd.pfxpop

end Sys2Proof.Machine
end

