-- ==== Sys2Proof/Machine/NodeSeif.lean ====
section
/-! DEFINITION. One firing of each of the fibre nodes (09 R256 to R272). -/
namespace Sys2Proof.Machine

/-- FMERGE (R266). -/
def execFmerge (x : N32) (s : State) : Out := runNode (view32 0xB8 x) s Nd.fibStream
/-- FMERGE_N64 (R266). -/
def execFmergeN64 (x : N64) (s : State) : Out := runNode (view64 0xB8 x) s Nd.fibStream
/-- FMERGE_N96 (R266). -/
def execFmergeN96 (x : N96) (s : State) : Out := runNode (view96 0xB8 x) s Nd.fibStream
/-- FINS (R267). -/
def execFins (x : N32) (s : State) : Out := runNode (view32 0xB9 x) s Nd.fibNode
/-- FINS_N64 (R267). -/
def execFinsN64 (x : N64) (s : State) : Out := runNode (view64 0xB9 x) s Nd.fibNode
/-- FINS_N96 (R267). -/
def execFinsN96 (x : N96) (s : State) : Out := runNode (view96 0xB9 x) s Nd.fibNode
/-- FSCAN (R268). -/
def execFscan (x : N32) (s : State) : Out := runNode (view32 0xBA x) s Nd.fibNode
/-- FSCAN_N64 (R268). -/
def execFscanN64 (x : N64) (s : State) : Out := runNode (view64 0xBA x) s Nd.fibNode
/-- FSCAN_N96 (R268). -/
def execFscanN96 (x : N96) (s : State) : Out := runNode (view96 0xBA x) s Nd.fibNode
/-- FPROBE (R269). -/
def execFprobe (x : N32) (s : State) : Out := runNode (view32 0xBB x) s Nd.fibNode
/-- FPROBE_N64 (R269). -/
def execFprobeN64 (x : N64) (s : State) : Out := runNode (view64 0xBB x) s Nd.fibNode
/-- FPROBE_N96 (R269). -/
def execFprobeN96 (x : N96) (s : State) : Out := runNode (view96 0xBB x) s Nd.fibNode
/-- FINTER (R270). -/
def execFinter (x : N32) (s : State) : Out := runNode (view32 0xBC x) s Nd.finter
/-- FINTER_N64 (R270). -/
def execFinterN64 (x : N64) (s : State) : Out := runNode (view64 0xBC x) s Nd.finter
/-- FINTER_N96 (R270). -/
def execFinterN96 (x : N96) (s : State) : Out := runNode (view96 0xBC x) s Nd.finter
/-- FCOUNT_N64 (R271). -/
def execFcountN64 (x : N64) (s : State) : Out := runNode (view64 0xBD x) s Nd.fibNode
/-- FCOUNT_N96 (R271). -/
def execFcountN96 (x : N96) (s : State) : Out := runNode (view96 0xBD x) s Nd.fibNode
/-- FCLEAR_N64 (R272). -/
def execFclearN64 (x : N64) (s : State) : Out := runNode (view64 0xBE x) s Nd.fibNode
/-- FCLEAR_N96 (R272). -/
def execFclearN96 (x : N96) (s : State) : Out := runNode (view96 0xBE x) s Nd.fibNode
/-- FCOMPACT_N64 (R272). -/
def execFcompactN64 (x : N64) (s : State) : Out := runNode (view64 0xBF x) s Nd.fibNode
/-- FCOMPACT_N96 (R272). -/
def execFcompactN96 (x : N96) (s : State) : Out := runNode (view96 0xBF x) s Nd.fibNode
/-- FTOPK (R270). -/
def execFtopk (x : N32) (s : State) : Out := runNode (view32 0xC0 x) s Nd.fibNode
/-- FTOPK_N64 (R270). -/
def execFtopkN64 (x : N64) (s : State) : Out := runNode (view64 0xC0 x) s Nd.fibNode
/-- FTOPK_N96 (R270). -/
def execFtopkN96 (x : N96) (s : State) : Out := runNode (view96 0xC0 x) s Nd.fibNode
/-- FSTAT_N64 (R271). -/
def execFstatN64 (x : N64) (s : State) : Out := runNode (view64 0xC1 x) s Nd.fibNode
/-- FSTAT_N96 (R271). -/
def execFstatN96 (x : N96) (s : State) : Out := runNode (view96 0xC1 x) s Nd.fibNode

end Sys2Proof.Machine
end

