-- ==== Sys2Proof/Machine/NodeStream.lean ====
section
/-! DEFINITION. One firing of each of the sorted-stream, ranking, counting and routing nodes (07 R203 to R212). -/
namespace Sys2Proof.Machine

/-- SIX (R203). -/
def execSix (x : N32) (s : State) : Out := runNode (view32 0xA0 x) s Nd.six
/-- SIX_N64 (R203). -/
def execSixN64 (x : N64) (s : State) : Out := runNode (view64 0xA0 x) s Nd.six
/-- SIX_N96 (R203). -/
def execSixN96 (x : N96) (s : State) : Out := runNode (view96 0xA0 x) s Nd.six
/-- SUN (R204). -/
def execSun (x : N32) (s : State) : Out := runNode (view32 0xA1 x) s Nd.sun
/-- SUN_N64 (R204). -/
def execSunN64 (x : N64) (s : State) : Out := runNode (view64 0xA1 x) s Nd.sun
/-- SUN_N96 (R204). -/
def execSunN96 (x : N96) (s : State) : Out := runNode (view96 0xA1 x) s Nd.sun
/-- TOPK (R205). -/
def execTopk (x : N32) (s : State) : Out := runNode (view32 0xA2 x) s Nd.topk
/-- TOPK_N64 (R205). -/
def execTopkN64 (x : N64) (s : State) : Out := runNode (view64 0xA2 x) s Nd.topk
/-- TOPK_N96 (R205). -/
def execTopkN96 (x : N96) (s : State) : Out := runNode (view96 0xA2 x) s Nd.topk
/-- CNT (R207). -/
def execCnt (x : N32) (s : State) : Out := runNode (view32 0xA7 x) s Nd.cnt
/-- CNT_N64 (R207). -/
def execCntN64 (x : N64) (s : State) : Out := runNode (view64 0xA7 x) s Nd.cnt
/-- CNT_N96 (R207). -/
def execCntN96 (x : N96) (s : State) : Out := runNode (view96 0xA7 x) s Nd.cnt
/-- AGEN (R208). -/
def execAgen (x : N32) (s : State) : Out := runNode (view32 0xA8 x) s Nd.agen
/-- AGEN_N64 (R208). -/
def execAgenN64 (x : N64) (s : State) : Out := runNode (view64 0xA8 x) s Nd.agen
/-- AGEN_N96 (R208). -/
def execAgenN96 (x : N96) (s : State) : Out := runNode (view96 0xA8 x) s Nd.agen
/-- JOIN (R209). -/
def execJoin (x : N32) (s : State) : Out := runNode (view32 0xA9 x) s Nd.join
/-- JOIN_N64 (R209). -/
def execJoinN64 (x : N64) (s : State) : Out := runNode (view64 0xA9 x) s Nd.join
/-- JOIN_N96 (R209). -/
def execJoinN96 (x : N96) (s : State) : Out := runNode (view96 0xA9 x) s Nd.join
/-- SPLIT (R210). -/
def execSplit (x : N32) (s : State) : Out := runNode (view32 0xAA x) s Nd.split
/-- SPLIT_N64 (R210). -/
def execSplitN64 (x : N64) (s : State) : Out := runNode (view64 0xAA x) s Nd.split
/-- SPLIT_N96 (R210). -/
def execSplitN96 (x : N96) (s : State) : Out := runNode (view96 0xAA x) s Nd.split
/-- MERGE (R210). -/
def execMerge (x : N32) (s : State) : Out := runNode (view32 0xAB x) s Nd.merge
/-- MERGE_N64 (R210). -/
def execMergeN64 (x : N64) (s : State) : Out := runNode (view64 0xAB x) s Nd.merge
/-- MERGE_N96 (R210). -/
def execMergeN96 (x : N96) (s : State) : Out := runNode (view96 0xAB x) s Nd.merge
/-- STEER (R211). -/
def execSteer (x : N32) (s : State) : Out := runNode (view32 0xAC x) s Nd.steer
/-- STEER_N64 (R211). -/
def execSteerN64 (x : N64) (s : State) : Out := runNode (view64 0xAC x) s Nd.steer
/-- STEER_N96 (R211). -/
def execSteerN96 (x : N96) (s : State) : Out := runNode (view96 0xAC x) s Nd.steer
/-- BARTOK (R400). -/
def execBartok (x : N32) (s : State) : Out := runNode (view32 0xAD x) s Nd.bartok
/-- BARTOK_N64 (R400). -/
def execBartokN64 (x : N64) (s : State) : Out := runNode (view64 0xAD x) s Nd.bartok
/-- BARTOK_N96 (R400). -/
def execBartokN96 (x : N96) (s : State) : Out := runNode (view96 0xAD x) s Nd.bartok
/-- SHUF (R206). -/
def execShuf (x : N32) (s : State) : Out := runNode (view32 0xB7 x) s Nd.shuf
/-- SHUF_N64 (R206). -/
def execShufN64 (x : N64) (s : State) : Out := runNode (view64 0xB7 x) s Nd.shuf
/-- SHUF_N96 (R206). -/
def execShufN96 (x : N96) (s : State) : Out := runNode (view96 0xB7 x) s Nd.shuf

end Sys2Proof.Machine
end

