-- ==== Sys2Proof/Machine/NodeTile.lean ====
section
/-! DEFINITION. One firing of each of the matrix, accumulation and solver nodes (08 R222 to R230, R243 to R245). -/
namespace Sys2Proof.Machine

/-- MM (R223). -/
def execMm (x : N32) (s : State) : Out := runNode (view32 0xA3 x) s Nd.mm
/-- MM_N64 (R223). -/
def execMmN64 (x : N64) (s : State) : Out := runNode (view64 0xA3 x) s Nd.mm
/-- MM_N96 (R223). -/
def execMmN96 (x : N96) (s : State) : Out := runNode (view96 0xA3 x) s Nd.mm
/-- MMPL (R227). -/
def execMmpl (x : N32) (s : State) : Out := runNode (view32 0xA4 x) s Nd.mm
/-- MMPL_N64 (R227). -/
def execMmplN64 (x : N64) (s : State) : Out := runNode (view64 0xA4 x) s Nd.mm
/-- MMPL_N96 (R227). -/
def execMmplN96 (x : N96) (s : State) : Out := runNode (view96 0xA4 x) s Nd.mm
/-- ACC (R228). -/
def execAcc (x : N32) (s : State) : Out := runNode (view32 0xA5 x) s Nd.acc
/-- ACC_N64 (R228). -/
def execAccN64 (x : N64) (s : State) : Out := runNode (view64 0xA5 x) s Nd.acc
/-- ACC_N96 (R228). -/
def execAccN96 (x : N96) (s : State) : Out := runNode (view96 0xA5 x) s Nd.acc
/-- DRAIN (R229). -/
def execDrain (x : N32) (s : State) : Out := runNode (view32 0xA6 x) s Nd.drain
/-- DRAIN_N64 (R229). -/
def execDrainN64 (x : N64) (s : State) : Out := runNode (view64 0xA6 x) s Nd.drain
/-- DRAIN_N96 (R229). -/
def execDrainN96 (x : N96) (s : State) : Out := runNode (view96 0xA6 x) s Nd.drain
/-- PIVDIV (R243). -/
def execPivdiv (x : N32) (s : State) : Out := runNode (view32 0xB5 x) s Nd.pivdiv
/-- PIVDIV_N64 (R243). -/
def execPivdivN64 (x : N64) (s : State) : Out := runNode (view64 0xB5 x) s Nd.pivdiv
/-- PIVDIV_N96 (R243). -/
def execPivdivN96 (x : N96) (s : State) : Out := runNode (view96 0xB5 x) s Nd.pivdiv
/-- RESID (R245). -/
def execResid (x : N32) (s : State) : Out := runNode (view32 0xB6 x) s Nd.resid
/-- RESID_N64 (R245). -/
def execResidN64 (x : N64) (s : State) : Out := runNode (view64 0xB6 x) s Nd.resid
/-- RESID_N96 (R245). -/
def execResidN96 (x : N96) (s : State) : Out := runNode (view96 0xB6 x) s Nd.resid

end Sys2Proof.Machine
end

