-- ==== Sys2Proof/Machine/SeqArith.lean ====
section
/-! DEFINITION. Integer arithmetic, compares, moves and literals of the sequencer (05 R118 to R124). -/
namespace Sys2Proof.Machine

/-- The SR form of a binary operation (R113, R118): g[D] := f(g[S1], g[S2]). -/
def binSR (g : Guard) (d a b : Reg) (s : State) (f : W64 → W64 → W64) : Out :=
  runRegs 1 g [a, b] s (fun q => q.setG d (f (q.getG a) (q.getG b)))
/-- The SI form: the second operand is sext(IMM). -/
def binSI (g : Guard) (d a : Reg) (imm : Imm) (s : State) (f : W64 → W64 → W64) : Out :=
  runRegs 2 g [a] s (fun q => q.setG d (f (q.getG a) (sext64 imm)))

/-- The high 64 bits of the product (R118). -/
def mulHigh (u : Bool) (a b : W64) : W64 :=
  if u then w64 (a.toNat * b.toNat / 2 ^ 64) else i64 (a.toInt * b.toInt / (2 ^ 64 : Nat))
/-- Quotient (R118, R119). -/
def divide (u : Bool) (a b : W64) : W64 :=
  if b = 0 then BitVec.allOnes 64 else if u then a / b else i64 (a.toInt.tdiv b.toInt)
/-- Remainder (R118, R119). -/
def remain (u : Bool) (a b : W64) : W64 :=
  if b = 0 then a else if u then a % b else i64 (a.toInt.tmod b.toInt)
/-- Minimum and maximum (R118). -/
def least (u : Bool) (a b : W64) : W64 :=
  if u then (if b.ult a then b else a) else if b.slt a then b else a
def greatest (u : Bool) (a b : W64) : W64 :=
  if u then (if a.ult b then b else a) else if a.slt b then b else a
/-- Extension of a from width w (R120): 0 gives 0, 64 and more give a. -/
def extend (u : Bool) (a : W64) (w : Nat) : W64 :=
  if w = 0 then 0 else if w ≥ 64 then a
  else if u then w64 (a.toNat % 2 ^ w) else i64 (sval w a.toNat)

/-- DIV and REM (R119): with DZT a zero divisor raises the arithmetic trap, precisely. -/
def divSR (g : Guard) (d a b : Reg) (s : State) (f : W64 → W64 → W64) : Out :=
  runSeq 1 g [a, b] s (fun v =>
    if v.q.getG b = 0 && v.q.dzt then .error { cause := 10 }
    else .ok (v.set (v.q.setG d (f (v.q.getG a) (v.q.getG b)))))
def divSI (g : Guard) (d a : Reg) (imm : Imm) (s : State) (f : W64 → W64 → W64) : Out :=
  runSeq 2 g [a] s (fun v =>
    if imm = 0 && v.q.dzt then .error { cause := 10 }
    else .ok (v.set (v.q.setG d (f (v.q.getG a) (sext64 imm)))))

/-- R118 ADD: a + b. -/
def execAdd (g : Guard) (d a b : Reg) (s : State) : Out := binSR g d a b s (fun a b => a + b)
/-- R118 ADD, with an immediate. -/
def execAddSi (g : Guard) (d a : Reg) (imm : Imm) (s : State) : Out := binSI g d a imm s (fun a b => a + b)
/-- R118 SUB: a − b. -/
def execSub (g : Guard) (d a b : Reg) (s : State) : Out := binSR g d a b s (fun a b => a - b)
/-- R118 SUB, with an immediate. -/
def execSubSi (g : Guard) (d a : Reg) (imm : Imm) (s : State) : Out := binSI g d a imm s (fun a b => a - b)
/-- R118 MUL: the low 64 bits of a × b. -/
def execMul (g : Guard) (d a b : Reg) (s : State) : Out := binSR g d a b s (fun a b => a * b)
/-- R118 MUL, with an immediate. -/
def execMulSi (g : Guard) (d a : Reg) (imm : Imm) (s : State) : Out := binSI g d a imm s (fun a b => a * b)
/-- R118 AND. -/
def execAndR (g : Guard) (d a b : Reg) (s : State) : Out := binSR g d a b s (fun a b => a &&& b)
/-- R118 AND, with an immediate. -/
def execAndSi (g : Guard) (d a : Reg) (imm : Imm) (s : State) : Out := binSI g d a imm s (fun a b => a &&& b)
/-- R118 OR. -/
def execOrR (g : Guard) (d a b : Reg) (s : State) : Out := binSR g d a b s (fun a b => a ||| b)
/-- R118 OR, with an immediate. -/
def execOrSi (g : Guard) (d a : Reg) (imm : Imm) (s : State) : Out := binSI g d a imm s (fun a b => a ||| b)
/-- R118 XOR. -/
def execXorR (g : Guard) (d a b : Reg) (s : State) : Out := binSR g d a b s (fun a b => a ^^^ b)
/-- R118 XOR, with an immediate. -/
def execXorSi (g : Guard) (d a : Reg) (imm : Imm) (s : State) : Out := binSI g d a imm s (fun a b => a ^^^ b)
/-- R118 ANDN: a AND NOT b. -/
def execAndn (g : Guard) (d a b : Reg) (s : State) : Out := binSR g d a b s (fun a b => a &&& ~~~ b)
/-- R118 ANDN, with an immediate. -/
def execAndnSi (g : Guard) (d a : Reg) (imm : Imm) (s : State) : Out := binSI g d a imm s (fun a b => a &&& ~~~ b)
/-- R118 SHL: a shifted left by b mod 64. -/
def execShl (g : Guard) (d a b : Reg) (s : State) : Out := binSR g d a b s (fun a b => a <<< (b.toNat % 64))
/-- R118 SHL, with an immediate. -/
def execShlSi (g : Guard) (d a : Reg) (imm : Imm) (s : State) : Out := binSI g d a imm s (fun a b => a <<< (b.toNat % 64))
/-- R118 SHR: a shifted right logically by b mod 64. -/
def execShr (g : Guard) (d a b : Reg) (s : State) : Out := binSR g d a b s (fun a b => a >>> (b.toNat % 64))
/-- R118 SHR, with an immediate. -/
def execShrSi (g : Guard) (d a : Reg) (imm : Imm) (s : State) : Out := binSI g d a imm s (fun a b => a >>> (b.toNat % 64))
/-- R118 SAR: a shifted right arithmetically by b mod 64. -/
def execSar (g : Guard) (d a b : Reg) (s : State) : Out := binSR g d a b s (fun a b => a.sshiftRight (b.toNat % 64))
/-- R118 SAR, with an immediate. -/
def execSarSi (g : Guard) (d a : Reg) (imm : Imm) (s : State) : Out := binSI g d a imm s (fun a b => a.sshiftRight (b.toNat % 64))
/-- R118 ROT: a rotated left by b mod 64. -/
def execRot (g : Guard) (d a b : Reg) (s : State) : Out := binSR g d a b s (fun a b => a.rotateLeft (b.toNat % 64))
/-- R118 ROT, with an immediate. -/
def execRotSi (g : Guard) (d a : Reg) (imm : Imm) (s : State) : Out := binSI g d a imm s (fun a b => a.rotateLeft (b.toNat % 64))
/-- R118 MULH. -/
def execMulh (g : Guard) (u : Bool) (d a b : Reg) (s : State) : Out := binSR g d a b s (mulHigh u)
/-- R118 MULH, with an immediate. -/
def execMulhSi (g : Guard) (u : Bool) (d a : Reg) (imm : Imm) (s : State) : Out := binSI g d a imm s (mulHigh u)
/-- R118, R119 DIV. -/
def execDiv (g : Guard) (u : Bool) (d a b : Reg) (s : State) : Out := divSR g d a b s (divide u)
/-- R118, R119 DIV, with an immediate. -/
def execDivSi (g : Guard) (u : Bool) (d a : Reg) (imm : Imm) (s : State) : Out := divSI g d a imm s (divide u)
/-- R118, R119 REM. -/
def execRem (g : Guard) (u : Bool) (d a b : Reg) (s : State) : Out := divSR g d a b s (remain u)
/-- R118, R119 REM, with an immediate. -/
def execRemSi (g : Guard) (u : Bool) (d a : Reg) (imm : Imm) (s : State) : Out := divSI g d a imm s (remain u)
/-- R118 MIN. -/
def execMin (g : Guard) (u : Bool) (d a b : Reg) (s : State) : Out := binSR g d a b s (least u)
/-- R118 MIN, with an immediate. -/
def execMinSi (g : Guard) (u : Bool) (d a : Reg) (imm : Imm) (s : State) : Out := binSI g d a imm s (least u)
/-- R118 MAX. -/
def execMax (g : Guard) (u : Bool) (d a b : Reg) (s : State) : Out := binSR g d a b s (greatest u)
/-- R118 MAX, with an immediate. -/
def execMaxSi (g : Guard) (u : Bool) (d a : Reg) (imm : Imm) (s : State) : Out := binSI g d a imm s (greatest u)

/-- R120 CLZ: the number of leading zero bits, 64 for 0. -/
def execClz (g : Guard) (d a : Reg) (s : State) : Out :=
  runRegs 1 g [a] s (fun q => q.setG d (w64 (leadZeros 64 (q.getG a).toNat)))
/-- R120 POPC: the number of one bits. -/
def execPopc (g : Guard) (d a : Reg) (s : State) : Out :=
  runRegs 1 g [a] s (fun q => q.setG d (w64 (popCount 64 (q.getG a).toNat)))
/-- R120 EXT: w is g[S2] mod 128. -/
def execExt (g : Guard) (u : Bool) (d a b : Reg) (s : State) : Out :=
  binSR g d a b s (fun a b => extend u a (b.toNat % 128))
/-- R120 EXT with an immediate width. -/
def execExtSi (g : Guard) (u : Bool) (d a : Reg) (imm : Imm) (s : State) : Out :=
  runRegs 2 g [a] s (fun q => q.setG d (extend u (q.getG a) imm.toNat))
/-- R120 BITF: extract a field, zero- or sign-extended, or insert one into g[D]. -/
def execBitf (g : Guard) (ins sgn : Bool) (d a : Reg) (lsb wm1 : BitVec 6) (s : State) : Out :=
  runRegs 2 g (if ins then [a, d] else [a]) s (fun q =>
    let w := wm1.toNat + 1
    if ins then q.setG d (putFld (q.getG d) lsb.toNat w (q.getG a).toNat)
    else
      let f := fld (q.getG a) lsb.toNat w
      q.setG d (if sgn then i64 (sval w f) else w64 f))
/-- R121 CMP. -/
def execCmp (g : Guard) (c : Cond) (p : PReg) (a b : Reg) (s : State) : Out :=
  runRegs 1 g [a, b] s (fun q => q.setP p (condHolds c (q.getG a) (q.getG b)))
/-- R121 CMP with an immediate, sign-extended before every comparison. -/
def execCmpSi (g : Guard) (c : Cond) (p : PReg) (a : Reg) (imm : Imm) (s : State) : Out :=
  runRegs 2 g [a] s (fun q => q.setP p (condHolds c (q.getG a) (sext64 imm)))
/-- R122 PLOG: bit 2 p[S1] + p[S2] of the table. -/
def execPlog (g : Guard) (d a b : PReg) (table : BitVec 4) (s : State) : Out :=
  runRegs 2 g [] s (fun q => q.setP d (table.getLsbD (2 * (q.getP a).toNat + (q.getP b).toNat)))
/-- R123 SEL. -/
def execSel (g : Guard) (q : PReg) (d a b : Reg) (s : State) : Out :=
  runRegs 1 g [a, b] s (fun r => r.setG d (if r.getP q then r.getG a else r.getG b))
/-- R124 NOP. -/
def execNop (s : State) : Out := runRegs 1 noGuard [] s (fun q => q)
/-- R124 MOV gD, gA. -/
def execMovGG (g : Guard) (d a : Reg) (s : State) : Out :=
  runRegs 1 g [a] s (fun q => q.setG d (q.getG a))
/-- R124 MOV gD, pA. -/
def execMovGP (g : Guard) (d : Reg) (a : PReg) (s : State) : Out :=
  runRegs 1 g [] s (fun q => q.setG d (if q.getP a then 1 else 0))
/-- R124 MOV pD, gA. -/
def execMovPG (g : Guard) (d : PReg) (a : Reg) (s : State) : Out :=
  runRegs 1 g [a] s (fun q => q.setP d (q.getG a != 0))
/-- R124 MOV pD, pA. -/
def execMovPP (g : Guard) (d a : PReg) (s : State) : Out :=
  runRegs 1 g [] s (fun q => q.setP d (q.getP a))
/-- R124 LIT, SI: g[D] := sext(IMM). -/
def execLitSi (g : Guard) (d : Reg) (imm : Imm) (s : State) : Out :=
  runRegs 2 g [] s (fun q => q.setG d (sext64 imm))
/-- R124 LIT, SL: g[D] := LIT × 2^32 + zext(IMM). -/
def execLitSl (g : Guard) (d : Reg) (imm lit : Imm) (s : State) : Out :=
  runRegs 3 g [] s (fun q => q.setG d (zext64 lit <<< 32 + zext64 imm))
/-- R124 LEA: the effective address, with no translation, alignment check or access. -/
def execLea (g : Guard) (d : Reg) (m : MemRef) (s : State) : Out :=
  runSeq 2 g (memRegs m) s (fun v => .ok (v.set (v.q.setG d (v.q.ea v.pc m))))

end Sys2Proof.Machine
end

