-- ==== Sys2Proof/Machine/Watch.lean ====
section
/-! DEFINITION. The monitor's notices and the stall sweep (17 R403 to R410; 05 R131 to R133). An event that its rule
does not enable changes nothing (00 R10). -/
namespace Sys2Proof.Machine

/-! ### Notices (R133, R405) -/

/-- A notice for a core and a sector. -/
def Notice.is (n : Notice) (core sector : Nat) : Bool := n.core = core && n.sector = sector
/-- Whether a notice wakes a sequencer: it watched the sector when the write performed, and no MONARM.CLR has emptied
its filter since (R133). -/
def Notice.wakes (n : Notice) (r pg : Nat) (q : Seq) : Bool := n.who.contains (r, pg, q.clrs)
/-- The sequencers of a residency that a notice wakes. -/
def Region.notified (rg : Region) (r : Nat) (n : Notice) : Region :=
  { rg with seqs := ((List.range rg.seqs.length).zip rg.seqs).map (fun x => if n.wakes r x.1 x.2 then x.2.wake else x.2) }

/-- MONITOR_NOTICE (R405): the first notice under way reaches its core and wakes the sequencers it is for; a core whose
every filter is empty replies "clear". -/
def execMonitorNotice (core sector : Nat) (s : State) : Out :=
  match s.notices.find? (·.is core sector) with
  | none => .next s
  | some n =>
    let quiet := s.regions.all (fun (e : Nat × Region) => !e.2.onCore core || e.2.seqs.all (fun q => q.filter = 0))
    .next { s with
      notices := s.notices.erase n
      clears := if quiet then s.clears ++ [(core, sector)] else s.clears
      regions := s.regions.map (fun (e : Nat × Region) => if e.2.onCore core then (e.1, e.2.notified e.1 n) else e) }

/-- WATCH_CLEAR_REPLY (R405): the reply reaches the bank. -/
def execWatchClearReply (core sector : Nat) (s : State) : Out :=
  if s.clears.contains (core, sector) then .next (s.watchClear core sector) else .next s

/-! ### The stall sweep (R407 to R410) -/

/-- The number whose bit `i` says whether `i` is in the list. -/
def bitsOf (l : List Nat) : Nat := (l.eraseDups.map (fun i => 2 ^ i)).sum

/-- What the sweep reads of a node (R408). -/
structure Swept where
  key : Nat
  dune : Nat
  pres : List Nat
  req : List Nat
  full : List Nat
  reason : Nat
  deriving DecidableEq, Repr

/-- A slot holds a token; one that has ended holds none. -/
def NodeSt.holds (x : NodeSt) (i : Nat) : Bool := ((x.slot i).head).tok?.isSome

/-- The reason a node is reported for, or 0 (R408): a BARTOK waits for others, or holds them with an input that gives
neither a token nor end-of-stream (R400). -/
def Nd.reason (d : Nd) (req full : List Nat) : Nat :=
  let has := req.filter d.st.holds
  if !has.isEmpty && has.length < req.length then 1
  else if !req.isEmpty && has.length = req.length && !full.isEmpty then 2
  else match d.st.x with
    | .bartok true _ => if d.rg.bars.any (fun u => u.bid = d.v.bits 0 8 && u.go.contains (d.b, d.n)) then 0 else 3
    | .bartok false _ =>
      if !d.st.ended && d.st.a.q.isEmpty && d.st.a.standing.isNone && d.rg.bars.any (fun u => u.bid = d.v.bits 0 8 && !u.offers.isEmpty) then 3 else 0
    | _ => 0
def Nd.sweep (d : Nd) : Swept :=
  let req := if d.v.hasO then d.memReq else d.req
  let full := d.places.filter (fun k => !d.roomAt k)
  { key := d.key, dune := d.cfg.dune, pres := (List.range 4).filter d.st.holds, req := req, full := full
    reason := d.reason req full }

/-- The nodes a sweep reports, in ascending block and node order. -/
def State.sweepOf (s : State) (r : Nat) (rg : Region) : List Swept :=
  (rg.allNodes.map (fun (e : Nat × Block × NodeCfg × NodeV) =>
    ({ r := r, b := e.1 / 128, n := e.1 % 128, blk := e.2.1, cfg := e.2.2.1, v := e.2.2.2, rg := rg, s := s } : Nd).sweep)).filter
      (fun x => x.reason != 0)

/-- An entry of the report (R409). -/
def Swept.entry (x : Swept) : W64 :=
  w64 (x.key / 128 % 16 * 2 ^ 60 + x.key % 128 * 2 ^ 53 + x.dune % 128 * 2 ^ 46 + bitsOf x.pres * 2 ^ 12
    + bitsOf x.req * 2 ^ 8 + bitsOf x.full * 2 ^ 4 + x.reason)
/-- Entry records of up to seven entries each, numbered from `i`. -/
def entryRecs (n i : Nat) (l : List W64) : List (List W64) :=
  match n with
  | 0 => []
  | n + 1 =>
    if l.isEmpty then []
    else (w64 (i * 2 ^ 8 + 0x11) :: (l.take 7 ++ List.replicate (7 - (l.take 7).length) 0)) :: entryRecs n (i + 1) (l.drop 7)

/-- A running multicast of the group delivers to an ingress port of a region, which it has bound as far as R166 goes. -/
def State.mcastTo (s : State) (rg : Region) (p : Nat) : Bool :=
  s.regions.any (fun (e : Nat × Region) => e.2.mate rg && e.2.eqs.any (fun q => q.cmds.any (fun c =>
    c.started && !c.finished && c.fansTo rg.member = some p)))
/-- The header record (R409). DESIGN CHOICE: R103 says that BID is reported in stall reports, and no field of R409 holds it,
so the model reports none (notes/assumptions/142.md). -/
def State.stallHeader (s : State) (rg : Region) (nent nrec : Nat) : List W64 :=
  let ports := List.range 64
  [w64 (min nent 65535 * 2 ^ 48 + rg.core % 256 * 2 ^ 32 + rg.first % 16 * 2 ^ 28 + rg.pm1 % 16 * 2 ^ 24 + nrec * 2 ^ 8 + 0x10),
   rg.lmsWord, rg.svr, s.ctxid rg.ctx, w64 (rg.sweeps + 1),
   w64 (bitsOf ((List.range rg.bars.length).filter (fun i => ((rg.bars[i]?).map (fun u => !u.offers.isEmpty)).getD false))),
   w64 (bitsOf (ports.filter (fun p => ((rg.inPort p).bound.isSome || s.mcastTo rg p) && (rg.inPort p).q.isEmpty && !(rg.inPort p).ended))),
   w64 (bitsOf (ports.filter (fun p => !(rg.outPort p).room)))]

/-- The report: the header and its entry records; the first 63 nodes appear. -/
def State.stallReport (s : State) (r : Nat) (rg : Region) : List (List W64) :=
  let l := s.sweepOf r rg
  let es := entryRecs 9 0 ((l.take 63).map Swept.entry)
  s.stallHeader rg l.length es.length :: es

def State.pushAll (s : State) (q : Nat) (l : List (List W64)) : State :=
  l.foldl (fun (s : State) x => match s.push q x with | some (s, _) => s | none => s) s

/-- A stall report is appended whole, and its trap raised on the lead, whose sleep ends first; one that does not fit
is held and is a double trap (R409, R410, R434). -/
def State.reportStall (s : State) (r : Nat) (rg : Region) : State :=
  match s.ctx? rg.ctx with
  | none => s
  | some x =>
    match s.queue? x.faultq with
    | none => s
    | some q =>
      let l := s.stallReport r rg
      if q.nslot < q.slotsUsed + l.length then
        (s.setCtx rg.ctx { x with heldRecs := x.heldRecs ++ l.map QRec.mk }).ctxDoubleTrap rg.ctx [] (l.headD [])
      else
        let s := s.pushAll x.faultq l
        if rg.leadHalted then s
        else (s.updSeq r 0 Seq.endSleep).raise r { cause := 6, einfo := q.issued + 1 } (.seq 0)

/-- STALL_SWEEP (R407): after 65,536 quiet cycles of a running configuration that has not drained, once until a node
fires. -/
def execStallSweep (r : Nat) (s : State) : Out :=
  match s.rg? r with
  | none => .next s
  | some rg =>
    if !rg.live || !rg.resident || rg.seqs.isEmpty || rg.quiet < 65536 || rg.swept || s.drained r rg then .next s
    else
      let s := s.setRg r { rg with swept := true, sweeps := rg.sweeps + 1 }
      .next (s.reportStall r rg)

end Sys2Proof.Machine
end

