-- ==== Sys2Proof/Machine/Dispatch.lean ====
section
/-! DEFINITION. The meaning of every instruction, arm by arm. -/
namespace Sys2Proof.Machine

def exec (i : Instr) (s : State) : Host.Outcome State Fault Refusal :=
  match i with
  | .add g d a b => Sys2Proof.Machine.execAdd g d a b s
  | .addSi g d a imm => Sys2Proof.Machine.execAddSi g d a imm s
  | .sub g d a b => Sys2Proof.Machine.execSub g d a b s
  | .subSi g d a imm => Sys2Proof.Machine.execSubSi g d a imm s
  | .mul g d a b => Sys2Proof.Machine.execMul g d a b s
  | .mulSi g d a imm => Sys2Proof.Machine.execMulSi g d a imm s
  | .andR g d a b => Sys2Proof.Machine.execAndR g d a b s
  | .andSi g d a imm => Sys2Proof.Machine.execAndSi g d a imm s
  | .orR g d a b => Sys2Proof.Machine.execOrR g d a b s
  | .orSi g d a imm => Sys2Proof.Machine.execOrSi g d a imm s
  | .xorR g d a b => Sys2Proof.Machine.execXorR g d a b s
  | .xorSi g d a imm => Sys2Proof.Machine.execXorSi g d a imm s
  | .andn g d a b => Sys2Proof.Machine.execAndn g d a b s
  | .andnSi g d a imm => Sys2Proof.Machine.execAndnSi g d a imm s
  | .shl g d a b => Sys2Proof.Machine.execShl g d a b s
  | .shlSi g d a imm => Sys2Proof.Machine.execShlSi g d a imm s
  | .shr g d a b => Sys2Proof.Machine.execShr g d a b s
  | .shrSi g d a imm => Sys2Proof.Machine.execShrSi g d a imm s
  | .sar g d a b => Sys2Proof.Machine.execSar g d a b s
  | .sarSi g d a imm => Sys2Proof.Machine.execSarSi g d a imm s
  | .rot g d a b => Sys2Proof.Machine.execRot g d a b s
  | .rotSi g d a imm => Sys2Proof.Machine.execRotSi g d a imm s
  | .mulh g u d a b => Sys2Proof.Machine.execMulh g u d a b s
  | .mulhSi g u d a imm => Sys2Proof.Machine.execMulhSi g u d a imm s
  | .div g u d a b => Sys2Proof.Machine.execDiv g u d a b s
  | .divSi g u d a imm => Sys2Proof.Machine.execDivSi g u d a imm s
  | .rem g u d a b => Sys2Proof.Machine.execRem g u d a b s
  | .remSi g u d a imm => Sys2Proof.Machine.execRemSi g u d a imm s
  | .min g u d a b => Sys2Proof.Machine.execMin g u d a b s
  | .minSi g u d a imm => Sys2Proof.Machine.execMinSi g u d a imm s
  | .max g u d a b => Sys2Proof.Machine.execMax g u d a b s
  | .maxSi g u d a imm => Sys2Proof.Machine.execMaxSi g u d a imm s
  | .ext g u d a b => Sys2Proof.Machine.execExt g u d a b s
  | .extSi g u d a imm => Sys2Proof.Machine.execExtSi g u d a imm s
  | .nop => Sys2Proof.Machine.execNop s
  | .clz g d a => Sys2Proof.Machine.execClz g d a s
  | .popc g d a => Sys2Proof.Machine.execPopc g d a s
  | .bitf g ins sgn d a lsb wm1 => Sys2Proof.Machine.execBitf g ins sgn d a lsb wm1 s
  | .cmp g c p a b => Sys2Proof.Machine.execCmp g c p a b s
  | .cmpSi g c p a imm => Sys2Proof.Machine.execCmpSi g c p a imm s
  | .plog g d a b table => Sys2Proof.Machine.execPlog g d a b table s
  | .sel g q d a b => Sys2Proof.Machine.execSel g q d a b s
  | .movGG g d a => Sys2Proof.Machine.execMovGG g d a s
  | .movGP g d a => Sys2Proof.Machine.execMovGP g d a s
  | .movPG g d a => Sys2Proof.Machine.execMovPG g d a s
  | .movPP g d a => Sys2Proof.Machine.execMovPP g d a s
  | .litSi g d imm => Sys2Proof.Machine.execLitSi g d imm s
  | .litSl g d imm lit => Sys2Proof.Machine.execLitSl g d imm lit s
  | .lea g d m => Sys2Proof.Machine.execLea g d m s
  | .ld g ty d m => Sys2Proof.Machine.execLd g ty d m s
  | .st g ty d m => Sys2Proof.Machine.execSt g ty d m s
  | .amo g op ty d a b disp => Sys2Proof.Machine.execAmo g op ty d a b disp s
  | .fence g sc => Sys2Proof.Machine.execFence g sc s
  | .br g off => Sys2Proof.Machine.execBr g off s
  | .brSbl g off => Sys2Proof.Machine.execBrSbl g off s
  | .jmp g a => Sys2Proof.Machine.execJmp g a s
  | .jmpSbl g off => Sys2Proof.Machine.execJmpSbl g off s
  | .call g d a => Sys2Proof.Machine.execCall g d a s
  | .callSbl g d off => Sys2Proof.Machine.execCallSbl g d off s
  | .ret g a => Sys2Proof.Machine.execRet g a s
  | .loop g d off => Sys2Proof.Machine.execLoop g d off s
  | .monarm g a => Sys2Proof.Machine.execMonarm g a s
  | .monarmClr g => Sys2Proof.Machine.execMonarmClr g s
  | .sleep g p a => Sys2Proof.Machine.execSleep g p a s
  | .sleepSi g p imm => Sys2Proof.Machine.execSleepSi g p imm s
  | .sleepExpiry r pg => Sys2Proof.Machine.execSleepExpiry r pg s
  | .testseq g p a b => Sys2Proof.Machine.execTestseq g p a b s
  | .testseqSi g p a b imm => Sys2Proof.Machine.execTestseqSi g p a b imm s
  | .cfg g d a => Sys2Proof.Machine.execCfg g d a s
  | .cfgSi g d a imm => Sys2Proof.Machine.execCfgSi g d a imm s
  | .cfgList g d a => Sys2Proof.Machine.execCfgList g d a s
  | .cfgListSi g d a imm => Sys2Proof.Machine.execCfgListSi g d a imm s
  | .cfgstep g d => Sys2Proof.Machine.execCfgstep g d s
  | .cfgstepSi g d imm => Sys2Proof.Machine.execCfgstepSi g d imm s
  | .run g p a => Sys2Proof.Machine.execRun g p a s
  | .runSi g p imm => Sys2Proof.Machine.execRunSi g p imm s
  | .bound g p a b => Sys2Proof.Machine.execBound g p a b s
  | .boundSi g p b node blk => Sys2Proof.Machine.execBoundSi g p b node blk s
  | .accrst g n => Sys2Proof.Machine.execAccrst g n s
  | .accrstSi g n imm => Sys2Proof.Machine.execAccrstSi g n imm s
  | .accrd g part d n => Sys2Proof.Machine.execAccrd g part d n s
  | .accrdSi g part d n => Sys2Proof.Machine.execAccrdSi g part d n s
  | .portw g eos p a b => Sys2Proof.Machine.execPortw g eos p a b s
  | .portwSi g eos p a port => Sys2Proof.Machine.execPortwSi g eos p a port s
  | .portr g f d a => Sys2Proof.Machine.execPortr g f d a s
  | .portrSi g f d port => Sys2Proof.Machine.execPortrSi g f d port s
  | .trap g imm => Sys2Proof.Machine.execTrap g imm s
  | .rett g => Sys2Proof.Machine.execRett g s
  | .rettNext g => Sys2Proof.Machine.execRettNext g s
  | .csrr g d n => Sys2Proof.Machine.execCsrr g d n s
  | .csrw g a n => Sys2Proof.Machine.execCsrw g a n s
  | .csrx g d a n lsb wm1 => Sys2Proof.Machine.execCsrx g d a n lsb wm1 s
  | .halt => Sys2Proof.Machine.execHalt s
  | .snap g a => Sys2Proof.Machine.execSnap g a s
  | .budget g a => Sys2Proof.Machine.execBudget g a s
  | .budgetSi g imm => Sys2Proof.Machine.execBudgetSi g imm s
  | .budgetTest g p => Sys2Proof.Machine.execBudgetTest g p s
  | .budgetTestSi g p => Sys2Proof.Machine.execBudgetTestSi g p s
  | .budgetExpire r pg => Sys2Proof.Machine.execBudgetExpire r pg s
  | .best g p a b => Sys2Proof.Machine.execBest g p a b s
  | .bestSi g p a imm => Sys2Proof.Machine.execBestSi g p a imm s
  | .bestClr g p => Sys2Proof.Machine.execBestClr g p s
  | .bestClrSi g p => Sys2Proof.Machine.execBestClrSi g p s
  | .fetchFault f => Sys2Proof.Machine.execFetchFault f s
  | .sload g d a => Sys2Proof.Machine.execSload g d a s
  | .sloadSi g d a imm => Sys2Proof.Machine.execSloadSi g d a imm s
  | .sstore g d a => Sys2Proof.Machine.execSstore g d a s
  | .sstoreSi g d a imm => Sys2Proof.Machine.execSstoreSi g d a imm s
  | .cpy g d a => Sys2Proof.Machine.execCpy g d a s
  | .cpySi g d a imm => Sys2Proof.Machine.execCpySi g d a imm s
  | .etbl g d a => Sys2Proof.Machine.execEtbl g d a s
  | .etblSi g d a imm => Sys2Proof.Machine.execEtblSi g d a imm s
  | .xpose g d a => Sys2Proof.Machine.execXpose g d a s
  | .xposeSi g d a imm => Sys2Proof.Machine.execXposeSi g d a imm s
  | .gather g d a => Sys2Proof.Machine.execGather g d a s
  | .gatherSi g d a imm => Sys2Proof.Machine.execGatherSi g d a imm s
  | .scatter g d a => Sys2Proof.Machine.execScatter g d a s
  | .scatterSi g d a imm => Sys2Proof.Machine.execScatterSi g d a imm s
  | .mcast g d a => Sys2Proof.Machine.execMcast g d a s
  | .mcastSi g d a imm => Sys2Proof.Machine.execMcastSi g d a imm s
  | .chainw g d a => Sys2Proof.Machine.execChainw g d a s
  | .chainwSi g d a imm => Sys2Proof.Machine.execChainwSi g d a imm s
  | .sclose g p a => Sys2Proof.Machine.execSclose g p a s
  | .scloseSi g p n => Sys2Proof.Machine.execScloseSi g p n s
  | .scloseCancel g p a => Sys2Proof.Machine.execScloseCancel g p a s
  | .scloseCancelSi g p n => Sys2Proof.Machine.execScloseCancelSi g p n s
  | .scloseQueue g p a => Sys2Proof.Machine.execScloseQueue g p a s
  | .scloseQueueSi g p n => Sys2Proof.Machine.execScloseQueueSi g p n s
  | .sbar g p a => Sys2Proof.Machine.execSbar g p a s
  | .sbarSi g p mask => Sys2Proof.Machine.execSbarSi g p mask s
  | .sstat g d a => Sys2Proof.Machine.execSstat g d a s
  | .sstatSi g d eq field => Sys2Proof.Machine.execSstatSi g d eq field s
  | .mcastDetach r q m => Sys2Proof.Machine.execMcastDetach r q m s
  | .pin g d a b => Sys2Proof.Machine.execPin g d a b s
  | .pinSi g d a imm => Sys2Proof.Machine.execPinSi g d a imm s
  | .unpin g d a b => Sys2Proof.Machine.execUnpin g d a b s
  | .unpinSi g d a imm => Sys2Proof.Machine.execUnpinSi g d a imm s
  | .pref g q d a b => Sys2Proof.Machine.execPref g q d a b s
  | .prefSi g q d a imm => Sys2Proof.Machine.execPrefSi g q d a imm s
  | .flush g q d a b => Sys2Proof.Machine.execFlush g q d a b s
  | .flushSi g q d a imm => Sys2Proof.Machine.execFlushSi g q d a imm s
  | .chainHoldReread r q => Sys2Proof.Machine.execChainHoldReread r q s
  | .chaint g p a b => Sys2Proof.Machine.execChaint g p a b s
  | .chaintSi g p a imm => Sys2Proof.Machine.execChaintSi g p a imm s
  | .qpush g d a b => Sys2Proof.Machine.execQpush g d a b s
  | .qpushSi g d b q => Sys2Proof.Machine.execQpushSi g d b q s
  | .qpop g p a b => Sys2Proof.Machine.execQpop g p a b s
  | .qpopSi g p b q => Sys2Proof.Machine.execQpopSi g p b q s
  | .qfence g sc p a => Sys2Proof.Machine.execQfence g sc p a s
  | .qfenceSi g sc p mask => Sys2Proof.Machine.execQfenceSi g sc p mask s
  | .qseq g issued d a => Sys2Proof.Machine.execQseq g issued d a s
  | .qseqSi g issued d q => Sys2Proof.Machine.execQseqSi g issued d q s
  | .barinit g p a b => Sys2Proof.Machine.execBarinit g p a b s
  | .barinitSi g p a imm => Sys2Proof.Machine.execBarinitSi g p a imm s
  | .bararr g d a => Sys2Proof.Machine.execBararr g d a s
  | .bararrSi g d a imm => Sys2Proof.Machine.execBararrSi g d a imm s
  | .bartest g p a b => Sys2Proof.Machine.execBartest g p a b s
  | .bartestSi g p a imm => Sys2Proof.Machine.execBartestSi g p a imm s
  | .spawn g p a => Sys2Proof.Machine.execSpawn g p a s
  | .spawnSi g p a imm => Sys2Proof.Machine.execSpawnSi g p a imm s
  | .vdecl g d a b => Sys2Proof.Machine.execVdecl g d a b s
  | .vdeclSi g d a b vid => Sys2Proof.Machine.execVdeclSi g d a b vid s
  | .tend g p => Sys2Proof.Machine.execTend g p s
  | .tendChild g p a => Sys2Proof.Machine.execTendChild g p a s
  | .tsync g p => Sys2Proof.Machine.execTsync g p s
  | .tsyncTake g d => Sys2Proof.Machine.execTsyncTake g d s
  | .tresume g p a => Sys2Proof.Machine.execTresume g p a s
  | .tresumeSkip g p a => Sys2Proof.Machine.execTresumeSkip g p a s
  | .tinfo g d b => Sys2Proof.Machine.execTinfo g d b s
  | .tinfoSi g d field view => Sys2Proof.Machine.execTinfoSi g d field view s
  | .tinfoCh g d a b => Sys2Proof.Machine.execTinfoCh g d a b s
  | .tinfoChSi g d a field view => Sys2Proof.Machine.execTinfoChSi g d a field view s
  | .eload g d a => Sys2Proof.Machine.execEload g d a s
  | .eloadSi g d a imm => Sys2Proof.Machine.execEloadSi g d a imm s
  | .ewire g d a => Sys2Proof.Machine.execEwire g d a s
  | .ewireSi g d a imm => Sys2Proof.Machine.execEwireSi g d a imm s
  | .ethr g d a => Sys2Proof.Machine.execEthr g d a s
  | .ethrSi g d a imm => Sys2Proof.Machine.execEthrSi g d a imm s
  | .exf g d a => Sys2Proof.Machine.execExf g d a s
  | .exfSi g d a imm => Sys2Proof.Machine.execExfSi g d a imm s
  | .epop g d a => Sys2Proof.Machine.execEpop g d a s
  | .epopSi g d a imm => Sys2Proof.Machine.execEpopSi g d a imm s
  | .exb g d a => Sys2Proof.Machine.execExb g d a s
  | .exbSi g d a imm => Sys2Proof.Machine.execExbSi g d a imm s
  | .esel g d a => Sys2Proof.Machine.execEsel g d a s
  | .eselSi g d w t => Sys2Proof.Machine.execEselSi g d w t s
  | .eeval g d a b => Sys2Proof.Machine.execEeval g d a b s
  | .eevalSi g d first cm1 => Sys2Proof.Machine.execEevalSi g d first cm1 s
  | .asyncTrapTaken r => Sys2Proof.Machine.execAsyncTrapTaken r s
  | .engineCommandStart r q => Sys2Proof.Machine.execEngineCommandStart r q s
  | .engineElement r q => Sys2Proof.Machine.execEngineElement r q s
  | .engineCommandComplete r q => Sys2Proof.Machine.execEngineCommandComplete r q s
  | .faultRetry id => Sys2Proof.Machine.execFaultRetry id s
  | .ergCommandStart r load => Sys2Proof.Machine.execErgCommandStart r load s
  | .ergCommandComplete r => Sys2Proof.Machine.execErgCommandComplete r s
  | .ergClearDone core => Sys2Proof.Machine.execErgClearDone core s
  | .ergRestoreDone core => Sys2Proof.Machine.execErgRestoreDone core s
  | .ergSaveDone core bad => Sys2Proof.Machine.execErgSaveDone core bad s
  | .fibreOpArrive id => Sys2Proof.Machine.execFibreOpArrive id s
  | .scanSegmentDone id => Sys2Proof.Machine.execScanSegmentDone id s
  | .fibreOpComplete id => Sys2Proof.Machine.execFibreOpComplete id s
  | .viewMergeStart r => Sys2Proof.Machine.execViewMergeStart r s
  | .viewMergeElement r => Sys2Proof.Machine.execViewMergeElement r s
  | .viewMergeComplete r => Sys2Proof.Machine.execViewMergeComplete r s
  | .childPlaced r ix => Sys2Proof.Machine.execChildPlaced r ix s
  | .monitorNotice core sector => Sys2Proof.Machine.execMonitorNotice core sector s
  | .watchClearReply core sector => Sys2Proof.Machine.execWatchClearReply core sector s
  | .stallSweep r => Sys2Proof.Machine.execStallSweep r s
  | .cloneWindow r b n => Sys2Proof.Machine.execCloneWindow r b n s
  | .cloneDissolve r => Sys2Proof.Machine.execCloneDissolve r s
  | .configDrained r => Sys2Proof.Machine.execConfigDrained r s
  | .residencyRetire r => Sys2Proof.Machine.execResidencyRetire r s
  | .dispatchDecision => Sys2Proof.Machine.execDispatchDecision s
  | .queueCommandComplete q seq => Sys2Proof.Machine.execQueueCommandComplete q seq s
  | .groupAdmit gid => Sys2Proof.Machine.execGroupAdmit gid s
  | .claimMove => Sys2Proof.Machine.execClaimMove s
  | .loadComplete gid => Sys2Proof.Machine.execLoadComplete gid s
  | .preemptRequest gid why => Sys2Proof.Machine.execPreemptRequest gid why s
  | .nodeSnapshotSave r b n => Sys2Proof.Machine.execNodeSnapshotSave r b n s
  | .haboobQuiescence r => Sys2Proof.Machine.execHaboobQuiescence r s
  | .snapshotComplete gid bad => Sys2Proof.Machine.execSnapshotComplete gid bad s
  | .groupRestore gid => Sys2Proof.Machine.execGroupRestore gid s
  | .restoreComplete gid bad => Sys2Proof.Machine.execRestoreComplete gid bad s
  | .remoteAck id value => Sys2Proof.Machine.execRemoteAck id value s
  | .remoteRetryExhausted id => Sys2Proof.Machine.execRemoteRetryExhausted id s
  | .remapRequest core page pos => Sys2Proof.Machine.execRemapRequest core page pos s
  | .remapComplete core page => Sys2Proof.Machine.execRemapComplete core page s
  | .contractBudgetExhaust cid core => Sys2Proof.Machine.execContractBudgetExhaust cid core s
  | .contractWindowExpire cid => Sys2Proof.Machine.execContractWindowExpire cid s
  | .contextTeardownDone c => Sys2Proof.Machine.execContextTeardownDone c s
  | .rmaWrite x data => Sys2Proof.Machine.execRmaWrite x data s
  | .rmaRead x len => Sys2Proof.Machine.execRmaRead x len s
  | .rmaAtomic x op wide v cmp => Sys2Proof.Machine.execRmaAtomic x op wide v cmp s
  | .unsupportedPacket port => Sys2Proof.Machine.execUnsupportedPacket port s
  | .devInfo m => Sys2Proof.Machine.execDevInfo m s
  | .pageStat m => Sys2Proof.Machine.execPageStat m s
  | .ctxCreate m => Sys2Proof.Machine.execCtxCreate m s
  | .ctxKey m => Sys2Proof.Machine.execCtxKey m s
  | .ctxStart m => Sys2Proof.Machine.execCtxStart m s
  | .ctxSuspend m => Sys2Proof.Machine.execCtxSuspend m s
  | .ctxResume m => Sys2Proof.Machine.execCtxResume m s
  | .ctxDestroy m => Sys2Proof.Machine.execCtxDestroy m s
  | .ctxQuota m => Sys2Proof.Machine.execCtxQuota m s
  | .ctxSync m => Sys2Proof.Machine.execCtxSync m s
  | .ctxSyncDone c => Sys2Proof.Machine.execCtxSyncDone c s
  | .qCreate m => Sys2Proof.Machine.execQCreate m s
  | .qEnable m => Sys2Proof.Machine.execQEnable m s
  | .qDisable m => Sys2Proof.Machine.execQDisable m s
  | .qTail m => Sys2Proof.Machine.execQTail m s
  | .qFlush m => Sys2Proof.Machine.execQFlush m s
  | .qRestart m => Sys2Proof.Machine.execQRestart m s
  | .qDestroy m => Sys2Proof.Machine.execQDestroy m s
  | .qPop m => Sys2Proof.Machine.execQPop m s
  | .contractCreate m => Sys2Proof.Machine.execContractCreate m s
  | .contractDestroy m => Sys2Proof.Machine.execContractDestroy m s
  | .poolReg m => Sys2Proof.Machine.execPoolReg m s
  | .poolFree m => Sys2Proof.Machine.execPoolFree m s
  | .memWrite m => Sys2Proof.Machine.execMemWrite m s
  | .memRead m => Sys2Proof.Machine.execMemRead m s
  | .chanBind m => Sys2Proof.Machine.execChanBind m s
  | .linkStat m => Sys2Proof.Machine.execLinkStat m s
  | .linkIsolate m => Sys2Proof.Machine.execLinkIsolate m s
  | .linkRestore m => Sys2Proof.Machine.execLinkRestore m s
  | .linkEnable port => Sys2Proof.Machine.execLinkEnable port s
  | .linkRetryTimer port => Sys2Proof.Machine.execLinkRetryTimer port s
  | .linkTrainingEnd port lanes => Sys2Proof.Machine.execLinkTrainingEnd port lanes s
  | .linkLaneFail port lanes => Sys2Proof.Machine.execLinkLaneFail port lanes s
  | .linkFerrIsolate port => Sys2Proof.Machine.execLinkFerrIsolate port s
  | .getVersion tag => Sys2Proof.Machine.execGetVersion tag s
  | .getCapabilities tag => Sys2Proof.Machine.execGetCapabilities tag s
  | .negotiateAlgorithms tag => Sys2Proof.Machine.execNegotiateAlgorithms tag s
  | .getDigests tag => Sys2Proof.Machine.execGetDigests tag s
  | .getCertificate tag => Sys2Proof.Machine.execGetCertificate tag s
  | .challenge tag nonce => Sys2Proof.Machine.execChallenge tag nonce s
  | .getMeasurements tag nonce => Sys2Proof.Machine.execGetMeasurements tag nonce s
  | .provision x => Sys2Proof.Machine.execProvision x s
  | .setNode x node => Sys2Proof.Machine.execSetNode x node s
  | .deploy x => Sys2Proof.Machine.execDeploy x s
  | .dbgNonce => Sys2Proof.Machine.execDbgNonce s
  | .dbgUnlock token => Sys2Proof.Machine.execDbgUnlock token s
  | .decommission x => Sys2Proof.Machine.execDecommission x s
  | .coldReset => Sys2Proof.Machine.execColdReset s
  | .warmReset => Sys2Proof.Machine.execWarmReset s
  | .bootImagePacket off data last => Sys2Proof.Machine.execBootImagePacket off data last s
  | .powerStateEnter core => Sys2Proof.Machine.execPowerStateEnter core s
  | .powerStateWake core => Sys2Proof.Machine.execPowerStateWake core s
  | .thermalSensing temps => Sys2Proof.Machine.execThermalSensing temps s
  | .supplyFault => Sys2Proof.Machine.execSupplyFault s
  | .hbmPatrolScrub stack sector => Sys2Proof.Machine.execHbmPatrolScrub stack sector s
  | .sramScrub core => Sys2Proof.Machine.execSramScrub core s
  | .hbmRetraining stack => Sys2Proof.Machine.execHbmRetraining stack s
  | .linkEqualisation port => Sys2Proof.Machine.execLinkEqualisation port s
  | .hbmRowRepair stack row => Sys2Proof.Machine.execHbmRowRepair stack row s
  | .telemetryRecord => Sys2Proof.Machine.execTelemetryRecord s
  | .accessPerformed w => Sys2Proof.Machine.execAccessPerformed w s
  | .linkLevelRetry port lost => Sys2Proof.Machine.execLinkLevelRetry port lost s
  | .hbmRetrainingDone stack => Sys2Proof.Machine.execHbmRetrainingDone stack s
  | .hbmRowRepairDone stack row => Sys2Proof.Machine.execHbmRowRepairDone stack row s
  | .ingr x => Sys2Proof.Machine.execIngr x s
  | .ingrN64 x => Sys2Proof.Machine.execIngrN64 x s
  | .ingrN96 x => Sys2Proof.Machine.execIngrN96 x s
  | .egr x => Sys2Proof.Machine.execEgr x s
  | .egrN64 x => Sys2Proof.Machine.execEgrN64 x s
  | .egrN96 x => Sys2Proof.Machine.execEgrN96 x s
  | .cst x => Sys2Proof.Machine.execCst x s
  | .cstN64 x => Sys2Proof.Machine.execCstN64 x s
  | .cstN96 x => Sys2Proof.Machine.execCstN96 x s
  | .addNode x => Sys2Proof.Machine.execAddNode x s
  | .addNodeN64 x => Sys2Proof.Machine.execAddNodeN64 x s
  | .addNodeN96 x => Sys2Proof.Machine.execAddNodeN96 x s
  | .subNode x => Sys2Proof.Machine.execSubNode x s
  | .subNodeN64 x => Sys2Proof.Machine.execSubNodeN64 x s
  | .subNodeN96 x => Sys2Proof.Machine.execSubNodeN96 x s
  | .mulNode x => Sys2Proof.Machine.execMulNode x s
  | .mulNodeN64 x => Sys2Proof.Machine.execMulNodeN64 x s
  | .mulNodeN96 x => Sys2Proof.Machine.execMulNodeN96 x s
  | .mad x => Sys2Proof.Machine.execMad x s
  | .madN64 x => Sys2Proof.Machine.execMadN64 x s
  | .madN96 x => Sys2Proof.Machine.execMadN96 x s
  | .minNode x => Sys2Proof.Machine.execMinNode x s
  | .minNodeN64 x => Sys2Proof.Machine.execMinNodeN64 x s
  | .minNodeN96 x => Sys2Proof.Machine.execMinNodeN96 x s
  | .maxNode x => Sys2Proof.Machine.execMaxNode x s
  | .maxNodeN64 x => Sys2Proof.Machine.execMaxNodeN64 x s
  | .maxNodeN96 x => Sys2Proof.Machine.execMaxNodeN96 x s
  | .absNode x => Sys2Proof.Machine.execAbsNode x s
  | .absNodeN64 x => Sys2Proof.Machine.execAbsNodeN64 x s
  | .absNodeN96 x => Sys2Proof.Machine.execAbsNodeN96 x s
  | .andNode x => Sys2Proof.Machine.execAndNode x s
  | .andNodeN64 x => Sys2Proof.Machine.execAndNodeN64 x s
  | .andNodeN96 x => Sys2Proof.Machine.execAndNodeN96 x s
  | .orNode x => Sys2Proof.Machine.execOrNode x s
  | .orNodeN64 x => Sys2Proof.Machine.execOrNodeN64 x s
  | .orNodeN96 x => Sys2Proof.Machine.execOrNodeN96 x s
  | .xorNode x => Sys2Proof.Machine.execXorNode x s
  | .xorNodeN64 x => Sys2Proof.Machine.execXorNodeN64 x s
  | .xorNodeN96 x => Sys2Proof.Machine.execXorNodeN96 x s
  | .shlNode x => Sys2Proof.Machine.execShlNode x s
  | .shlNodeN64 x => Sys2Proof.Machine.execShlNodeN64 x s
  | .shlNodeN96 x => Sys2Proof.Machine.execShlNodeN96 x s
  | .shrNode x => Sys2Proof.Machine.execShrNode x s
  | .shrNodeN64 x => Sys2Proof.Machine.execShrNodeN64 x s
  | .shrNodeN96 x => Sys2Proof.Machine.execShrNodeN96 x s
  | .sarNode x => Sys2Proof.Machine.execSarNode x s
  | .sarNodeN64 x => Sys2Proof.Machine.execSarNodeN64 x s
  | .sarNodeN96 x => Sys2Proof.Machine.execSarNodeN96 x s
  | .cmpNode x => Sys2Proof.Machine.execCmpNode x s
  | .cmpNodeN64 x => Sys2Proof.Machine.execCmpNodeN64 x s
  | .cmpNodeN96 x => Sys2Proof.Machine.execCmpNodeN96 x s
  | .selNode x => Sys2Proof.Machine.execSelNode x s
  | .selNodeN64 x => Sys2Proof.Machine.execSelNodeN64 x s
  | .selNodeN96 x => Sys2Proof.Machine.execSelNodeN96 x s
  | .cvt x => Sys2Proof.Machine.execCvt x s
  | .cvtN64 x => Sys2Proof.Machine.execCvtN64 x s
  | .cvtN96 x => Sys2Proof.Machine.execCvtN96 x s
  | .fadd x => Sys2Proof.Machine.execFadd x s
  | .faddN64 x => Sys2Proof.Machine.execFaddN64 x s
  | .faddN96 x => Sys2Proof.Machine.execFaddN96 x s
  | .fmul x => Sys2Proof.Machine.execFmul x s
  | .fmulN64 x => Sys2Proof.Machine.execFmulN64 x s
  | .fmulN96 x => Sys2Proof.Machine.execFmulN96 x s
  | .fma x => Sys2Proof.Machine.execFma x s
  | .fmaN64 x => Sys2Proof.Machine.execFmaN64 x s
  | .fmaN96 x => Sys2Proof.Machine.execFmaN96 x s
  | .fmin x => Sys2Proof.Machine.execFmin x s
  | .fminN64 x => Sys2Proof.Machine.execFminN64 x s
  | .fminN96 x => Sys2Proof.Machine.execFminN96 x s
  | .fmax x => Sys2Proof.Machine.execFmax x s
  | .fmaxN64 x => Sys2Proof.Machine.execFmaxN64 x s
  | .fmaxN96 x => Sys2Proof.Machine.execFmaxN96 x s
  | .fcmp x => Sys2Proof.Machine.execFcmp x s
  | .fcmpN64 x => Sys2Proof.Machine.execFcmpN64 x s
  | .fcmpN96 x => Sys2Proof.Machine.execFcmpN96 x s
  | .frcp x => Sys2Proof.Machine.execFrcp x s
  | .frcpN64 x => Sys2Proof.Machine.execFrcpN64 x s
  | .frcpN96 x => Sys2Proof.Machine.execFrcpN96 x s
  | .frsq x => Sys2Proof.Machine.execFrsq x s
  | .frsqN64 x => Sys2Proof.Machine.execFrsqN64 x s
  | .frsqN96 x => Sys2Proof.Machine.execFrsqN96 x s
  | .fexp2 x => Sys2Proof.Machine.execFexp2 x s
  | .fexp2N64 x => Sys2Proof.Machine.execFexp2N64 x s
  | .fexp2N96 x => Sys2Proof.Machine.execFexp2N96 x s
  | .flog2 x => Sys2Proof.Machine.execFlog2 x s
  | .flog2N64 x => Sys2Proof.Machine.execFlog2N64 x s
  | .flog2N96 x => Sys2Proof.Machine.execFlog2N96 x s
  | .unpk3 x => Sys2Proof.Machine.execUnpk3 x s
  | .unpk3N64 x => Sys2Proof.Machine.execUnpk3N64 x s
  | .unpk3N96 x => Sys2Proof.Machine.execUnpk3N96 x s
  | .bmandN64 x => Sys2Proof.Machine.execBmandN64 x s
  | .bmandN96 x => Sys2Proof.Machine.execBmandN96 x s
  | .pfxpop x => Sys2Proof.Machine.execPfxpop x s
  | .pfxpopN64 x => Sys2Proof.Machine.execPfxpopN64 x s
  | .pfxpopN96 x => Sys2Proof.Machine.execPfxpopN96 x s
  | .six x => Sys2Proof.Machine.execSix x s
  | .sixN64 x => Sys2Proof.Machine.execSixN64 x s
  | .sixN96 x => Sys2Proof.Machine.execSixN96 x s
  | .sun x => Sys2Proof.Machine.execSun x s
  | .sunN64 x => Sys2Proof.Machine.execSunN64 x s
  | .sunN96 x => Sys2Proof.Machine.execSunN96 x s
  | .topk x => Sys2Proof.Machine.execTopk x s
  | .topkN64 x => Sys2Proof.Machine.execTopkN64 x s
  | .topkN96 x => Sys2Proof.Machine.execTopkN96 x s
  | .mm x => Sys2Proof.Machine.execMm x s
  | .mmN64 x => Sys2Proof.Machine.execMmN64 x s
  | .mmN96 x => Sys2Proof.Machine.execMmN96 x s
  | .mmpl x => Sys2Proof.Machine.execMmpl x s
  | .mmplN64 x => Sys2Proof.Machine.execMmplN64 x s
  | .mmplN96 x => Sys2Proof.Machine.execMmplN96 x s
  | .acc x => Sys2Proof.Machine.execAcc x s
  | .accN64 x => Sys2Proof.Machine.execAccN64 x s
  | .accN96 x => Sys2Proof.Machine.execAccN96 x s
  | .drain x => Sys2Proof.Machine.execDrain x s
  | .drainN64 x => Sys2Proof.Machine.execDrainN64 x s
  | .drainN96 x => Sys2Proof.Machine.execDrainN96 x s
  | .cnt x => Sys2Proof.Machine.execCnt x s
  | .cntN64 x => Sys2Proof.Machine.execCntN64 x s
  | .cntN96 x => Sys2Proof.Machine.execCntN96 x s
  | .agen x => Sys2Proof.Machine.execAgen x s
  | .agenN64 x => Sys2Proof.Machine.execAgenN64 x s
  | .agenN96 x => Sys2Proof.Machine.execAgenN96 x s
  | .join x => Sys2Proof.Machine.execJoin x s
  | .joinN64 x => Sys2Proof.Machine.execJoinN64 x s
  | .joinN96 x => Sys2Proof.Machine.execJoinN96 x s
  | .split x => Sys2Proof.Machine.execSplit x s
  | .splitN64 x => Sys2Proof.Machine.execSplitN64 x s
  | .splitN96 x => Sys2Proof.Machine.execSplitN96 x s
  | .merge x => Sys2Proof.Machine.execMerge x s
  | .mergeN64 x => Sys2Proof.Machine.execMergeN64 x s
  | .mergeN96 x => Sys2Proof.Machine.execMergeN96 x s
  | .steer x => Sys2Proof.Machine.execSteer x s
  | .steerN64 x => Sys2Proof.Machine.execSteerN64 x s
  | .steerN96 x => Sys2Proof.Machine.execSteerN96 x s
  | .bartok x => Sys2Proof.Machine.execBartok x s
  | .bartokN64 x => Sys2Proof.Machine.execBartokN64 x s
  | .bartokN96 x => Sys2Proof.Machine.execBartokN96 x s
  | .ldn x => Sys2Proof.Machine.execLdn x s
  | .ldnN64 x => Sys2Proof.Machine.execLdnN64 x s
  | .ldnN96 x => Sys2Proof.Machine.execLdnN96 x s
  | .stn x => Sys2Proof.Machine.execStn x s
  | .stnN64 x => Sys2Proof.Machine.execStnN64 x s
  | .stnN96 x => Sys2Proof.Machine.execStnN96 x s
  | .atomNode x => Sys2Proof.Machine.execAtomNode x s
  | .atomNodeN64 x => Sys2Proof.Machine.execAtomNodeN64 x s
  | .atomNodeN96 x => Sys2Proof.Machine.execAtomNodeN96 x s
  | .acqn x => Sys2Proof.Machine.execAcqn x s
  | .acqnN64 x => Sys2Proof.Machine.execAcqnN64 x s
  | .acqnN96 x => Sys2Proof.Machine.execAcqnN96 x s
  | .relnN64 x => Sys2Proof.Machine.execRelnN64 x s
  | .relnN96 x => Sys2Proof.Machine.execRelnN96 x s
  | .wcvt x => Sys2Proof.Machine.execWcvt x s
  | .wcvtN64 x => Sys2Proof.Machine.execWcvtN64 x s
  | .wcvtN96 x => Sys2Proof.Machine.execWcvtN96 x s
  | .mstore x => Sys2Proof.Machine.execMstore x s
  | .mstoreN64 x => Sys2Proof.Machine.execMstoreN64 x s
  | .mstoreN96 x => Sys2Proof.Machine.execMstoreN96 x s
  | .pivdiv x => Sys2Proof.Machine.execPivdiv x s
  | .pivdivN64 x => Sys2Proof.Machine.execPivdivN64 x s
  | .pivdivN96 x => Sys2Proof.Machine.execPivdivN96 x s
  | .resid x => Sys2Proof.Machine.execResid x s
  | .residN64 x => Sys2Proof.Machine.execResidN64 x s
  | .residN96 x => Sys2Proof.Machine.execResidN96 x s
  | .shuf x => Sys2Proof.Machine.execShuf x s
  | .shufN64 x => Sys2Proof.Machine.execShufN64 x s
  | .shufN96 x => Sys2Proof.Machine.execShufN96 x s
  | .fmerge x => Sys2Proof.Machine.execFmerge x s
  | .fmergeN64 x => Sys2Proof.Machine.execFmergeN64 x s
  | .fmergeN96 x => Sys2Proof.Machine.execFmergeN96 x s
  | .fins x => Sys2Proof.Machine.execFins x s
  | .finsN64 x => Sys2Proof.Machine.execFinsN64 x s
  | .finsN96 x => Sys2Proof.Machine.execFinsN96 x s
  | .fscan x => Sys2Proof.Machine.execFscan x s
  | .fscanN64 x => Sys2Proof.Machine.execFscanN64 x s
  | .fscanN96 x => Sys2Proof.Machine.execFscanN96 x s
  | .fprobe x => Sys2Proof.Machine.execFprobe x s
  | .fprobeN64 x => Sys2Proof.Machine.execFprobeN64 x s
  | .fprobeN96 x => Sys2Proof.Machine.execFprobeN96 x s
  | .finter x => Sys2Proof.Machine.execFinter x s
  | .finterN64 x => Sys2Proof.Machine.execFinterN64 x s
  | .finterN96 x => Sys2Proof.Machine.execFinterN96 x s
  | .fcountN64 x => Sys2Proof.Machine.execFcountN64 x s
  | .fcountN96 x => Sys2Proof.Machine.execFcountN96 x s
  | .fclearN64 x => Sys2Proof.Machine.execFclearN64 x s
  | .fclearN96 x => Sys2Proof.Machine.execFclearN96 x s
  | .fcompactN64 x => Sys2Proof.Machine.execFcompactN64 x s
  | .fcompactN96 x => Sys2Proof.Machine.execFcompactN96 x s
  | .ftopk x => Sys2Proof.Machine.execFtopk x s
  | .ftopkN64 x => Sys2Proof.Machine.execFtopkN64 x s
  | .ftopkN96 x => Sys2Proof.Machine.execFtopkN96 x s
  | .fstatN64 x => Sys2Proof.Machine.execFstatN64 x s
  | .fstatN96 x => Sys2Proof.Machine.execFstatN96 x s

end Sys2Proof.Machine
end

