-- ==== Sys2Proof/Machine/Turns.lean ====
section
/-! DEFINITION. Whose turn it is and whether it can move; and the loading of one instruction that the host's
probe uses. -/
namespace Sys2Proof.Machine

/-- The turn that moves: the head of the agenda, or a free one (notes/assumptions/3.md). -/
def State.turn (s : State) : Turn :=
  match s.agenda with
  | t :: _ => t
  | [] => Config.nextTurn s.freeIx

/-- A turn begins: telemetry notes what the last one changed (R457), the turn leaves the agenda, and time passes. -/
def State.began (s : State) (t : Turn) : State :=
  ({ s.observed with agenda := s.agenda.tail, agent := .none }).tick t

/-- What a sequencer does in its turn. -/
inductive SeqTurn where
  | idle
  | async
  | fetch (rg : Region) (q : Seq)

/-- A sequencer can execute: its residency is resident, it has not halted or stopped, and it does not
sleep or wait (R113, R134, R383). -/
def Seq.able (q : Seq) : Bool := !q.halted && !q.stuck && q.sleep.isNone && q.wait.isNone

/-- A fetch from a quiesced stack or row waits, and a sequencer with a buffered store to one waits until that can perform
(R457). -/
def State.fetchWaits (s : State) (rg : Region) (q : Seq) : Bool :=
  q.stores.any (fun st => s.quiesced st.pa)
  || match xlate s rg.core rg.ctx q.pc .fetch with
    | .ok t => t.local?.any s.quiesced
    | .error _ => false

def State.seqTurn (s : State) (r pg : Nat) : SeqTurn :=
  match s.rg? r with
  | none => .idle
  | some rg =>
    match rg.seqs[pg]? with
    | none => .idle
    | some q =>
      if !rg.resident || !q.able then .idle
      else if rg.pendTraps.any (fun t => t.page = pg) && !q.inh then .async
      else if s.fetchWaits rg q then .idle
      else .fetch rg q

/-- The instruction a node executes in its turn; none where the region does not run, the node has been stopped by a trap
or saved, or its dune grants its lanes to another (07 R186, R187; 16 R386; 20 R430). -/
noncomputable def State.nodeTurn (s : State) (r b n : Nat) : Option Instr :=
  match s.rg? r with
  | none => none
  | some rg =>
    match rg.nodeCfg b n with
    | none => none
    | some (_, x) =>
      let st := rg.nodes.get (128 * b + n) {}
      if !(rg.st = .running || rg.st = .draining) || !rg.live || st.stopped.isSome || st.saved
          || s.outranked r rg x.dune (128 * b + n) then none
      else match x.instr? with
        | none => none
        | some (w0, w1, w2) => (decodeWords w0 w1 w2).toOption

/-- The instruction that the management core executes when it has fetched `i` from Falim: a sequencer instruction, but for those
that act on a region, which it has none of (R21); a special register that may not be written fails check 9 of R109. -/
noncomputable def mgmtInstr (mode : Nat) (i : Instr) : Option Instr :=
  match encodeFields i with
  | some (.seq r) =>
    if 0x37 < r.op || (0x25 ≤ r.op && r.op ≤ 0x2C) then none
    else some ((modeCheck mode i).elim i (fun p => .fetchFault (illegal 6 r.op p)))
  | _ => none

/-- What kind of packet brings an instruction from outside (R417, R418). -/
inductive PacketKind where
  | nimale (m : Msg)
  | rma (x : Rma)
  | spdm
  | boot
def packetOf (i : Instr) : Option PacketKind :=
  match i with
  | .devInfo m | .pageStat m | .ctxCreate m | .ctxKey m | .ctxStart m | .ctxSuspend m | .ctxResume m | .ctxDestroy m
  | .ctxQuota m | .ctxSync m | .qCreate m | .qEnable m | .qDisable m | .qTail m | .qFlush m | .qRestart m | .qDestroy m
  | .qPop m | .contractCreate m | .contractDestroy m | .poolReg m | .poolFree m | .memWrite m | .memRead m | .chanBind m
  | .linkStat m | .linkIsolate m | .linkRestore m => some (.nimale m)
  | .rmaWrite x _ | .rmaRead x _ | .rmaAtomic x _ _ _ _ => some (.rma x)
  | .getVersion _ | .getCapabilities _ | .negotiateAlgorithms _ | .getDigests _ | .getCertificate _ | .challenge _ _
  | .getMeasurements _ _ | .provision _ | .setNode _ _ | .deploy _ | .dbgNonce | .dbgUnlock _ | .decommission _ => some .spdm
  | .bootImagePacket _ _ _ => some .boot
  | _ => none
/-- The transport takes a packet: by a port that carries traffic, which wakes (the boot ROM's own is open while it waits for an image);
on a reliable-ordered channel in the order of the numbers, on another in any order; each number once (R421, R427, R448). -/
def State.receive (s : State) (v : Via) : Option State :=
  if !(s.ports[v.port]?).any Port.carries && s.sec.boot != .streaming then none
  else
  let s := { s with ports := listUpd s.ports v.port (fun p => { p with low := false }) }
  if v.rod then
    if v.num = s.rodNext.get v.chan 0 then some { s with rodNext := s.rodNext.put v.chan (v.num + 1) } else none
  else if (s.rudSeen.get v.chan []).contains v.num then none
  else some { s with rudSeen := s.rudSeen.put v.chan (v.num :: s.rudSeen.get v.chan []) }
/-- A packet arrives: the state once the transport has taken it, and whether its instruction is executed. A message says the
session it came under; RMA needs its context's session, and SPDM the management session, without which the packet is
unsupported traffic (R417, R418, R422). -/
def State.delivered (s : State) (v : Via) (i : Instr) : State × Bool :=
  match packetOf i, s.receive v with
  | some k, some t =>
    let here : Bool := match k with
      | .nimale m => v.session = m.session
      | .rma x => v.session = .tenant x.ctx x.gen
      | .spdm => v.session = .management
      | .boot => true
    if here then (t, true) else match k with
      | .spdm => (t.drop.send (.nack v.port), false)
      | _ => (s, false)
  | _, _ => (s, false)

/-- A machine event, which neither an agent's program nor a packet from outside brings. -/
def isEvent (i : Instr) : Bool :=
  match i with
  | .fetchFault _ | .asyncTrapTaken _ => false
  | _ => (encodeFields i).isNone && (packetOf i).isNone

/-! ### Loading one instruction -/

/-- Page tables at 4 KiB to 20 KiB that map virtual 0 to the frame at 64 KiB with V, LEAF, W and X
(20 R436, R437). -/
def probeTables (m : List Host.Cell) : List Host.Cell :=
  let m := Memory.setAll m 0x1000 (leBytes 8 0x2001)
  let m := Memory.setAll m 0x2000 (leBytes 8 0x3001)
  let m := Memory.setAll m 0x3000 (leBytes 8 0x4001)
  let m := Memory.setAll m 0x4000 (leBytes 8 0x5001)
  Memory.setAll m 0x5000 (leBytes 8 0x1000F)

/-- A context in state Active whose page table is at 4 KiB. -/
def probeCtx : Ctx :=
  { gen := 0, st := .active, desc := [w64 (64 * 2 ^ 48 + 2304 * 2 ^ 36 + 255 * 2 ^ 19), 0x1000, 0, 0, 0, 0, 0, 0]
    nq := 64, pageq := 2304, spq := 0, pinq := 0 }

/-- The node a probe installs, and the words above `nbits` zero. -/
def probeNode (v : Nat) : NodeCfg :=
  let ws : List W32 := [.ofNat 32 v, .ofNat 32 (v / 2 ^ 32), .ofNat 32 (v / 2 ^ 64)]
  { words := ws.take (v % 4 + 1), dune := 0, fmts := 0xFFFFFFFF }

def State.loadWord (s : State) (nbits w : Nat) : State :=
  let v := w % 2 ^ nbits
  let c := s.ctxs.fresh 0
  let r := s.regions.fresh s.nextId
  let seg : Segment := { base := 0, len := 16, pools := [] }
  let lead : Seq := { pc := 4, halted := false, seg := some seg }
  let node := v / 4 % 256 ≥ 0x80 && v % 4 != 3
  let rg : Region :=
    { ctx := c, st := if node then .running else .unarmed, place := some (0, 0), seqs := [lead]
      know := List.replicate 12 0, live := node
      cfg := if node then some ⟨[{ amf := 0, lmtrap := false, bid := 0, clone := 0
                                   nodes := [probeNode v], pool := [] }]⟩ else none
      nodes := if node then [(0, {})] else [] }
  { s with
    agenda := [if node then .node r 0 0 else .seq r 0]
    nextId := r + 1
    mem := Memory.setAll (probeTables s.mem) 0x10004 (leBytes 12 (v % 2 ^ 96))
    ctxs := s.ctxs.put c probeCtx
    regions := s.regions.put r rg }

end Sys2Proof.Machine
end

