-- ==== Sys2Proof/Machine/Upset.lean ====
section
/-! DEFINITION. Soft errors that protection finds and cannot correct (05 R117; 10 R291; 13 R348; 20 R444, R445). -/
namespace Sys2Proof.Machine


/-- The oldest token of a buffer takes a parity error: it will be delivered with PSN. -/
def poisonHead : List Token → List Token
  | [] => []
  | t :: r => { t with psn := true } :: r
/-- A word of a region's banks is bad. -/
def State.badWord (s : State) (r word : Nat) : State :=
  s.updRg r (fun rg => { rg with bankPoison := word :: rg.bankPoison.filter (· != word) })
/-- The region that runs on a page of an awake core. -/
def State.runsOn (s : State) (core page : Nat) : Option (Nat × Region) :=
  if (s.core core).waking then none else s.regions.find? (fun (e : Nat × Region) => e.2.owns core page)

/-- An uncorrectable error strikes a place; its reader meets it (R445). One in a dune's bank, of 8,192 words, asks for a
remap of the dune at once, whatever holds its page (R416); one in a residency's image is met as it is restored (R394). One in
the sideband makes the whole sector bad (R444). -/
def State.upset (s : State) : Upset → State
  | .reg r pg n dup => s.updSeq r pg (fun q =>
      if n = 0 then q
      else if dup then { q with dupParity := q.dupParity ||| (1#32 <<< n.toNat) }
      else { q with parity := q.parity ||| (1#32 <<< n.toNat) })
  | .mem word =>
      if word < Config.hbmBytes / 8 then
        let sd := s.sideAt (word / 8)
        s.setSide (word / 8) { sd with poison := sd.poison ||| BitVec.ofNat 8 (2 ^ (word % 8)) }
      else s
  | .side sector =>
      if sector < Config.hbmBytes / 64 then s.setSide sector { s.sideAt sector with poison := 255 } else s
  | .bank r word =>
      match s.rg? r with
      | none => s
      | some rg =>
        if rg.st = .saved || rg.st = .restoring then s.badWord r word
        else if rg.place.isNone || s.asleep r || 65536 * (rg.pm1 + 1) ≤ word then s
        else (s.badWord r word).askRemap rg.core (rg.first + word / 65536) (word / 8192 % 8) false
  | .dune core page pos =>
      if coreCount ≤ core || 12 ≤ page || 8 ≤ pos then s
      else
        let s := match s.runsOn core page with
          | none => s
          | some (r, rg) => s.badWord r (65536 * (page - rg.first) + 8192 * pos + Config.pick (s.freeIx * 65536) % 8192)
        s.askRemap core page pos false
  | .plane core k => s.setCore core (let c := s.core core
      { c with erg := { c.erg with badPlane := k :: c.erg.badPlane.filter (· != k) } })
  | .table core k => s.setCore core (let c := s.core core
      { c with erg := { c.erg with badTable := k :: c.erg.badTable.filter (· != k) } })
  | .wire core k => s.setCore core (let c := s.core core
      { c with erg := { c.erg with badWire := k :: c.erg.badWire.filter (· != k) } })
  | .fseg ctx pool i k =>
      let key := 2 ^ 44 * (4096 * ctx + pool) + i
      { s with fibres := s.fibres.upd key (fun f => { f with
          segs := f.segs.map (fun g => if g.num = k then { g with bad := true } else g) }) }
  | .fdir ctx pool i =>
      { s with fibres := s.fibres.upd (2 ^ 44 * (4096 * ctx + pool) + i) (fun f => { f with bad := true }) }
  | .findex ctx pool i k =>
      { s with fibres := s.fibres.upd (2 ^ 44 * (4096 * ctx + pool) + i) (fun f =>
          if f.segs.any (fun g => g.num = k) then { f with badIndex := k :: f.badIndex.filter (· != k) } else f) }
  | .token r b n slot => s.updRg r (fun rg => { rg with
      nodes := rg.nodes.upd (128 * b + n) (fun x =>
        match slot with
        | 0 => { x with a := { x.a with q := poisonHead x.a.q } }
        | 1 => { x with b := { x.b with q := poisonHead x.b.q } }
        | 2 => { x with c := { x.c with q := poisonHead x.c.q } }
        | _ => { x with d := { x.d with q := poisonHead x.d.q } }) })
  | .inPort r n => s.updRg r (fun rg => { rg with vin := rg.vin.upd n (fun p => { p with q := poisonHead p.q }) })
  | .outPort r n => s.updRg r (fun rg => { rg with vout := rg.vout.upd n (fun p => { p with q := poisonHead p.q }) })
  | .ctx c => s.lose c .ctxState

end Sys2Proof.Machine
end

