-- ==== Sys2Proof/Machine/Step.lean ====
section
/-! DEFINITION. One step of the whole machine: the next turn of the agenda moves (notes/assumptions/3.md). -/
namespace Sys2Proof.Machine

/-- Executes an instruction on behalf of an agent. -/
def execAs (a : Agent) (i : Instr) (s : State) : Out := exec i { s with agent := a }

/-- A sequencer's turn (05 R113; 20 R431): a pending asynchronous trap is taken before the lead's next
instruction; else the next instruction is fetched and executed; a sequencer that is halted, asleep,
waiting or held does nothing. -/
noncomputable def stepSeq (s : State) (r pg : Nat) : Out :=
  match s.seqTurn r pg with
  | .idle => .next s
  | .async => execAs (.seq r pg) (.asyncTrapTaken r) s
  | .fetch rg q => execAs (.seq r pg) (s.fetch r pg rg q).2 (s.fetch r pg rg q).1

/-- A node's turn: its encoded instruction is executed, one firing (07 R187). -/
noncomputable def stepNode (s : State) (r b n : Nat) : Out :=
  match s.nodeTurn r b n with
  | none => .next s
  | some i => execAs (.node r b n) i s

/-- The management core's turn (01 R21; 20 R435). -/
noncomputable def stepMgmt (s : State) (m : MgmtTurn) : Out :=
  if !s.mgmtReady then .next s
  else match m with
    | .trap t => .next (s.mgmtIn.mgmtTrap t).mgmtOut
    | .run i =>
      match mgmtInstr s.sec.mgmt.mode i with
      | none => .next s
      | some j =>
        match exec j s.mgmtIn with
        | .next t => .next t.mgmtOut
        | x => x

/-- The step function. -/
noncomputable def step (s : State) : Out :=
  let t := s.turn
  let s := s.began t
  if s.sec.boot = .shutDown && t != .event .coldReset then .next s
  else match t with
    | .seq r pg => stepSeq s r pg
    | .node r b n => stepNode s r b n
    | .event i => if isEvent i then execAs .none i s else .next s
    | .packet v i => if (s.delivered v i).2 then execAs .none i (s.delivered v i).1 else .next (s.delivered v i).1
    | .upset u => .next (s.upset u)
    | .idle _ => .next s
    | .mgmt m => stepMgmt s m

/-- `s` with the instruction of these bits loaded so that the next step runs it: a fresh context whose
page table maps its first page, a one-page residency of it that runs, and its turn first on the agenda
(notes/assumptions/10.md). -/
def State.withFetchWord (s : State) (nbits w : Nat) : State := s.loadWord nbits w

end Sys2Proof.Machine
end

