-- ==== Sys2Proof/Safety.lean ====
section
/-! DEFINITION. What counts as a safe state and a safe step, and the terms the statements use: who executes, and
the registers and the view of an instruction that runs. -/
namespace Sys2Proof
open Machine

/-- The memory keeps its canonical form. -/
abbrev Safe (s : State) : Prop := Memory.wf s.mem = true

/-- A step that answers a next state answers a safe one. -/
def SafeStep (s : State) : Prop :=
  ∀ s', step s = .next s' → Safe s'

/-- Sequencer `pg` of region `rg`, whose number is `r`, is the acting agent, with registers `q`. -/
structure Seat (s : State) (r pg : Nat) (rg : Region) (q : Seq) : Prop where
  agent : s.agent = .seq r pg
  region : s.rg? r = some rg
  regs : rg.seqs[pg]? = some q

/-- The acting sequencer runs an instruction under guard `g` that reads the registers `src`: the guard is true
(05 R114) and no entry it reads fails parity (05 R117). -/
structure Able (s : State) (r pg : Nat) (rg : Region) (q : Seq) (g : Guard) (src : List Reg) : Prop where
  seat : Seat s r pg rg q
  guard : q.guardOk g = true
  clean : ∀ n ∈ src, n = 0 ∨ q.parity.getLsbD n.toNat = false

/-- The registers with pc at the instruction after one of `len` words. -/
def past (q : Seq) (len : Nat) : Seq := { q with pc := q.pc + w64 (4 * len) }

/-- What the meaning of an instruction of `len` words sees when it runs. -/
def runAt (s : State) (r pg : Nat) (rg : Region) (q : Seq) (len : Nat) : Run :=
  { r := r, pg := pg, pc := q.pc, rg := rg, q := past q len, s := s.setSeq r pg (past q len) }

/-- Node `n` of block `b` in region `r` has its turn; `d` is the node at work, seen as `v`. -/
structure NodeSeat (s : State) (r b n : Nat) (v : NodeV) (d : Nd) : Prop where
  agent : s.agent = .node r b n
  node : ∃ rg blk cfg, s.rg? r = some rg ∧ rg.nodeCfg b n = some (blk, cfg) ∧
    d = { r := r, b := b, n := n, blk := blk, cfg := cfg, v := v, rg := rg, s := s }

/-- The node fires (07 R186): it has not ended and is not stopped, every slot of `req` offers one of the tokens
`ts`, no slot of them has ended, and every consumer edge has room. -/
structure Fires (d : Nd) (req : List Nat) (ts : List Token) : Prop where
  live : d.st.ended = false ∧ d.st.stopped = none
  heads : req.map (fun i => (d.head i).tok?) = ts.map some
  room : d.room = true

/-- A firing (07 R187) whose first position leaves the node as `d1`: the node then goes on with position `f` while
it is ready, up to its width and to the tokens and the room there were at the grant. -/
def firing (d : Nd) (f : Nd → Option Nd) (d1 : Nd) : State := (d.fired (Nd.loop d (d.turns - 1) f d1)).done

/-- A node instruction in its three forms (04 R96 to R98). -/
structure Forms where
  op : Nat
  n32 : N32 → Instr
  n64 : N64 → Instr
  n96 : N96 → Instr

/-- `i` is one of the forms of an operation, and `v` what it says of its node. -/
def Forms.here (k : Forms) (i : Instr) (v : NodeV) : Prop :=
  (∃ x, i = k.n32 x ∧ v = view32 k.op x) ∨ (∃ x, i = k.n64 x ∧ v = view64 k.op x) ∨
    (∃ x, i = k.n96 x ∧ v = view96 k.op x)

end Sys2Proof
end

