-- ==== Sys2Proof/Certificates/Slice0/Obligations.lean ====
section
/-! DEFINITION. The statements about the machine. Each docstring names the rules of spec/ it formalises. -/
open Sys2Proof Sys2Proof.Machine

/-! ### Sequencer arithmetic -/

/-- R113, R118: the register forms of the binary operations. They write g[D] := f(a, b) and move to the next
instruction; nothing else of the machine changes. -/
def Sys2Proof.Statements.AluRegisterResults : Prop :=
  ∀ (s : State) (r pg : Nat) (rg : Region) (q : Seq) (g : Guard) (d ra rb : Reg),
    Able s r pg rg q g [ra, rb] →
    let a := q.getG ra
    let b := q.getG rb
    let res := fun (x : W64) => Host.Outcome.next (s.setSeq r pg ((past q 1).setG d x))
    exec (.add g d ra rb) s = res (a + b) ∧
    exec (.sub g d ra rb) s = res (a - b) ∧
    exec (.mul g d ra rb) s = res (a * b) ∧
    exec (.mulh g false d ra rb) s = res (BitVec.ofInt 64 (a.toInt * b.toInt / 2 ^ 64)) ∧
    exec (.mulh g true d ra rb) s = res (BitVec.ofNat 64 (a.toNat * b.toNat / 2 ^ 64)) ∧
    exec (.andR g d ra rb) s = res (a &&& b) ∧
    exec (.orR g d ra rb) s = res (a ||| b) ∧
    exec (.xorR g d ra rb) s = res (a ^^^ b) ∧
    exec (.andn g d ra rb) s = res (a &&& ~~~b) ∧
    exec (.shl g d ra rb) s = res (a <<< (b.toNat % 64)) ∧
    exec (.shr g d ra rb) s = res (a >>> (b.toNat % 64)) ∧
    exec (.sar g d ra rb) s = res (a.sshiftRight (b.toNat % 64)) ∧
    exec (.rot g d ra rb) s = res (a.rotateLeft (b.toNat % 64)) ∧
    exec (.min g false d ra rb) s = res (if b.toInt < a.toInt then b else a) ∧
    exec (.min g true d ra rb) s = res (if b.toNat < a.toNat then b else a) ∧
    exec (.max g false d ra rb) s = res (if a.toInt < b.toInt then b else a) ∧
    exec (.max g true d ra rb) s = res (if a.toNat < b.toNat then b else a)

/-- R113, R118: the immediate forms: the second operand is sext(IMM), the length two words. -/
def Sys2Proof.Statements.AluImmediateResults : Prop :=
  ∀ (s : State) (r pg : Nat) (rg : Region) (q : Seq) (g : Guard) (d ra : Reg) (imm : Imm),
    Able s r pg rg q g [ra] →
    let a := q.getG ra
    let b : W64 := imm.signExtend 64
    let res := fun (x : W64) => Host.Outcome.next (s.setSeq r pg ((past q 2).setG d x))
    exec (.addSi g d ra imm) s = res (a + b) ∧
    exec (.subSi g d ra imm) s = res (a - b) ∧
    exec (.mulSi g d ra imm) s = res (a * b) ∧
    exec (.mulhSi g false d ra imm) s = res (BitVec.ofInt 64 (a.toInt * b.toInt / 2 ^ 64)) ∧
    exec (.mulhSi g true d ra imm) s = res (BitVec.ofNat 64 (a.toNat * b.toNat / 2 ^ 64)) ∧
    exec (.andSi g d ra imm) s = res (a &&& b) ∧
    exec (.orSi g d ra imm) s = res (a ||| b) ∧
    exec (.xorSi g d ra imm) s = res (a ^^^ b) ∧
    exec (.andnSi g d ra imm) s = res (a &&& ~~~b) ∧
    exec (.shlSi g d ra imm) s = res (a <<< (b.toNat % 64)) ∧
    exec (.shrSi g d ra imm) s = res (a >>> (b.toNat % 64)) ∧
    exec (.sarSi g d ra imm) s = res (a.sshiftRight (b.toNat % 64)) ∧
    exec (.rotSi g d ra imm) s = res (a.rotateLeft (b.toNat % 64)) ∧
    exec (.minSi g false d ra imm) s = res (if b.toInt < a.toInt then b else a) ∧
    exec (.minSi g true d ra imm) s = res (if b.toNat < a.toNat then b else a) ∧
    exec (.maxSi g false d ra imm) s = res (if a.toInt < b.toInt then b else a) ∧
    exec (.maxSi g true d ra imm) s = res (if a.toNat < b.toNat then b else a)

/-- R113, R118: what the binary operations other than division compute, in both forms. -/
def Obligations.AluResults : Prop := Statements.AluRegisterResults ∧ Statements.AluImmediateResults

/-- R118, R119: DIV and REM of both forms (`u` is VAR 1). A zero divisor gives all ones and the dividend, or, with
STAT.DZT, takes the arithmetic trap with g[D] unchanged; −2^63 / −1 gives −2^63 and 0. -/
def Obligations.DivideAndRemainder : Prop :=
  ∀ (s : State) (r pg : Nat) (rg : Region) (q : Seq) (g : Guard) (u : Bool) (d ra rb : Reg) (imm : Imm),
    let quo := fun (a b : W64) => if b = 0 then BitVec.allOnes 64
      else if u then BitVec.ofNat 64 (a.toNat / b.toNat) else BitVec.ofInt 64 (a.toInt.tdiv b.toInt)
    let rem := fun (a b : W64) => if b = 0 then a
      else if u then BitVec.ofNat 64 (a.toNat % b.toNat) else BitVec.ofInt 64 (a.toInt.tmod b.toInt)
    let i : W64 := imm.signExtend 64
    let res := fun (n : Nat) (x : W64) => Host.Outcome.next (s.setSeq r pg ((past q n).setG d x))
    let zero := Host.Outcome.next (s.setSeq r pg (q.enter q.pc { cause := 10 }))
    (Able s r pg rg q g [ra, rb] → (q.getG rb ≠ 0 ∨ q.dzt = false) →
      exec (.div g u d ra rb) s = res 1 (quo (q.getG ra) (q.getG rb)) ∧
      exec (.rem g u d ra rb) s = res 1 (rem (q.getG ra) (q.getG rb))) ∧
    (Able s r pg rg q g [ra] → (imm ≠ 0 ∨ q.dzt = false) →
      exec (.divSi g u d ra imm) s = res 2 (quo (q.getG ra) i) ∧
      exec (.remSi g u d ra imm) s = res 2 (rem (q.getG ra) i)) ∧
    (Able s r pg rg q g [ra, rb] → q.inh = false → q.dzt = true → q.getG rb = 0 →
      exec (.div g u d ra rb) s = zero ∧ exec (.rem g u d ra rb) s = zero) ∧
    (Able s r pg rg q g [ra] → q.inh = false → q.dzt = true → imm = 0 →
      exec (.divSi g u d ra imm) s = zero ∧ exec (.remSi g u d ra imm) s = zero)

/-- R120: CLZ, POPC, EXT and BITF. `clz` is 64 for zero; EXT of width 0 gives 0 and of 64 and more gives a; BITF
extracts or inserts the field of WM1 + 1 bits at LSB. -/
def Obligations.BitOperations : Prop :=
  ∀ (s : State) (r pg : Nat) (rg : Region) (q : Seq) (g : Guard) (u : Bool) (d ra rb : Reg) (imm : Imm)
    (lsb wm1 : BitVec 6),
    let a := q.getG ra
    let res := fun (n : Nat) (x : W64) => Host.Outcome.next (s.setSeq r pg ((past q n).setG d x))
    let ext := fun (w : Nat) => if w = 0 then 0 else if 64 ≤ w then a
      else if u then BitVec.ofNat 64 (a.toNat % 2 ^ w) else BitVec.ofInt 64 (sval w a.toNat)
    let w := wm1.toNat + 1
    let f := a.toNat / 2 ^ lsb.toNat % 2 ^ w
    (Able s r pg rg q g [ra] →
      (∃ n, exec (.clz g d ra) s = res 1 (BitVec.ofNat 64 n) ∧ n ≤ 64 ∧ a.toNat < 2 ^ (64 - n) ∧
        (n < 64 → 2 ^ (63 - n) ≤ a.toNat)) ∧
      exec (.popc g d ra) s = res 1 (BitVec.ofNat 64 ((List.range 64).countP (fun i => a.getLsbD i))) ∧
      exec (.extSi g u d ra imm) s = res 2 (ext imm.toNat) ∧
      exec (.bitf g false false d ra lsb wm1) s = res 2 (BitVec.ofNat 64 f) ∧
      exec (.bitf g false true d ra lsb wm1) s = res 2 (BitVec.ofInt 64 (sval w f))) ∧
    (Able s r pg rg q g [ra, rb] → exec (.ext g u d ra rb) s = res 1 (ext ((q.getG rb).toNat % 128))) ∧
    (Able s r pg rg q g [ra, d] → lsb.toNat + wm1.toNat ≤ 63 →
      ∃ x : W64, exec (.bitf g true false d ra lsb wm1) s = res 2 x ∧
        ∀ i, i < 64 → x.getLsbD i = if lsb.toNat ≤ i ∧ i < lsb.toNat + w then a.getLsbD (i - lsb.toNat)
          else (q.getG d).getLsbD i)

/-- R121, R122, R123: CMP in both forms writes p[D], IMM sign-extended before every comparison; PLOG looks its two
predicates up in the table; SEL takes a or b by the predicate VAR names. -/
def Obligations.CompareAndSelect : Prop :=
  ∀ (s : State) (r pg : Nat) (rg : Region) (q : Seq) (g : Guard) (c : Cond) (p pa pb : PReg) (d ra rb : Reg)
    (imm : Imm) (table : BitVec 4),
    let holds := fun (a b : W64) => match c with
      | .eq => decide (a = b)
      | .ne => decide (a ≠ b)
      | .lt => decide (a.toInt < b.toInt)
      | .le => decide (a.toInt ≤ b.toInt)
      | .gt => decide (b.toInt < a.toInt)
      | .ge => decide (b.toInt ≤ a.toInt)
      | .ltu => decide (a.toNat < b.toNat)
      | .leu => decide (a.toNat ≤ b.toNat)
      | .gtu => decide (b.toNat < a.toNat)
      | .geu => decide (b.toNat ≤ a.toNat)
    let pred := fun (n : Nat) (x : Bool) => Host.Outcome.next (s.setSeq r pg ((past q n).setP p x))
    (Able s r pg rg q g [ra, rb] →
      exec (.cmp g c p ra rb) s = pred 1 (holds (q.getG ra) (q.getG rb)) ∧
      exec (.sel g pa d ra rb) s = .next (s.setSeq r pg ((past q 1).setG d
        (if q.getP pa then q.getG ra else q.getG rb)))) ∧
    (Able s r pg rg q g [ra] → exec (.cmpSi g c p ra imm) s = pred 2 (holds (q.getG ra) (imm.signExtend 64))) ∧
    (Able s r pg rg q g [] →
      exec (.plog g p pa pb table) s = pred 2 (table.getLsbD
        (2 * (if q.getP pa then 1 else 0) + (if q.getP pb then 1 else 0))))

/-- R124: NOP, the four MOVs, both LITs and LEA. LEA makes no access and takes no trap at any address. -/
def Obligations.MovesAndLiterals : Prop :=
  ∀ (s : State) (r pg : Nat) (rg : Region) (q : Seq) (g : Guard) (d ra : Reg) (p pa : PReg) (imm lit : Imm)
    (m : MemRef),
    (Able s r pg rg q noGuard [] → exec .nop s = .next (s.setSeq r pg (past q 1))) ∧
    (Able s r pg rg q g [ra] →
      exec (.movGG g d ra) s = .next (s.setSeq r pg ((past q 1).setG d (q.getG ra))) ∧
      exec (.movPG g p ra) s = .next (s.setSeq r pg ((past q 1).setP p (decide (q.getG ra ≠ 0))))) ∧
    (Able s r pg rg q g [] →
      exec (.movGP g d pa) s = .next (s.setSeq r pg ((past q 1).setG d (if q.getP pa then 1 else 0))) ∧
      exec (.movPP g p pa) s = .next (s.setSeq r pg ((past q 1).setP p (q.getP pa))) ∧
      exec (.litSi g d imm) s = .next (s.setSeq r pg ((past q 2).setG d (imm.signExtend 64))) ∧
      exec (.litSl g d imm lit) s = .next (s.setSeq r pg ((past q 3).setG d
        (BitVec.ofNat 64 (lit.toNat * 2 ^ 32 + imm.toNat))))) ∧
    (Able s r pg rg q g (memRegs m) →
      exec (.lea g d m) s = .next (s.setSeq r pg ((past q 2).setG d (match m with
        | .base b x => q.getG b + x.signExtend 64
        | .index b x sc => q.getG b + q.getG x <<< sc.toNat
        | .pcRel x => q.pc + x.signExtend 64))))

/-- R93, R117: what a write of a register does and leaves. g0 and p0 take nothing; any other register takes the
value with good parity and a good duplicate of it; every other register, every predicate and every special
register stays as it was. A write of one sequencer's registers, which is all that the arithmetic, move, transfer,
budget and best-iterate instructions change, leaves memory byte by byte, its sideband, every other sequencer, the
region's accumulators and status, every other region, and the rest of the machine. -/
def Sys2Proof.Statements.RegisterWrites : Prop :=
  (∀ (q : Seq) (n m : Reg) (k j : PReg) (v : W64) (b : Bool),
      q.setG 0 v = q ∧ q.setP 0 b = q ∧ (q.setG n v).getG 0 = 0 ∧ (q.setP k b).getP 0 = true ∧
      (n ≠ 0 → (q.setG n v).getG n = v ∧ (q.setG n v).parity.getLsbD n.toNat = false ∧
        (q.setG n v).dups.find? (fun e => e.1 = n) = some (n, v) ∧ (q.setG n v).dups.length ≤ 16) ∧
      (m ≠ n → (q.setG n v).getG m = q.getG m) ∧
      (k ≠ 0 → (q.setP k b).getP k = b) ∧
      (j ≠ k → (q.setP k b).getP j = q.getP j) ∧
      (let t := q.setG n v
       (t.p, t.pc, t.stat, t.epc, t.ecause, t.eaddr, t.einfo, t.tvec) =
         (q.p, q.pc, q.stat, q.epc, q.ecause, q.eaddr, q.einfo, q.tvec) ∧
       (t.budget, t.best, t.bestres, t.monmask, t.filter, t.stores) =
         (q.budget, q.best, q.bestres, q.monmask, q.filter, q.stores)) ∧
      (let t := q.setP k b
       (t.g, t.pc, t.stat, t.epc, t.ecause, t.eaddr, t.einfo, t.tvec) =
         (q.g, q.pc, q.stat, q.epc, q.ecause, q.eaddr, q.einfo, q.tvec) ∧
       (t.budget, t.best, t.bestres, t.monmask, t.filter, t.stores) =
         (q.budget, q.best, q.bestres, q.monmask, q.filter, q.stores))) ∧
  (∀ (s : State) (r pg : Nat) (rg : Region) (q : Seq), s.rg? r = some rg →
      let t := s.setSeq r pg q
      (∀ a, Memory.get t.mem a = Memory.get s.mem a) ∧
      (∀ k, k ≠ pg → t.seq? r k = s.seq? r k) ∧
      (∀ k, k ≠ r → t.rg? k = s.rg? k) ∧
      (∃ x, t.rg? r = some x ∧ x = { rg with seqs := x.seqs }) ∧
      t = { s with regions := t.regions })

/-- R117: a register that an instruction reads and that fails parity, before the instruction has any effect. Where its
duplicate is good, it and its parity are repaired from it, the repair is counted, and the instruction runs with the repaired
value; where the duplicate is bad too, the duplicate is discarded and the register-parity trap is taken, and it is taken
alike where there is none: cause 4, EPC the instruction's address, EINFO the register's number, g[D] not written. -/
def Sys2Proof.Statements.RegisterParity : Prop :=
  ∀ (s : State) (r pg : Nat) (rg : Region) (q : Seq) (g : Guard) (d a : Reg), Seat s r pg rg q → q.guardOk g = true →
    a ≠ 0 → q.parity.getLsbD a.toNat = true →
    let trap := fun (t : Seq) => Host.Outcome.next (s.setSeq r pg (t.enter q.pc { cause := 4, einfo := BitVec.ofNat 64 a.toNat }))
    (∀ x, q.dups.find? (fun e => e.1 = a) = some (a, x) → q.dupParity.getLsbD a.toNat = false →
      ∃ t u, exec (.movGG g d a) s = .next t ∧ exec (.add g d a a) s = .next u ∧
        t.tele.repairs = s.tele.repairs + 1 ∧ u.tele.repairs = s.tele.repairs + 1 ∧
        let fixed : Seq := { q with g := q.g.set a.toNat x a.isLt, parity := q.parity &&& ~~~(1#32 <<< a.toNat) }
        t.seq? r pg = some ((past fixed 1).setG d x) ∧ u.seq? r pg = some ((past fixed 1).setG d (x + x)) ∧
        t = { s with regions := t.regions, tele := t.tele } ∧ u = { s with regions := u.regions, tele := u.tele }) ∧
    (q.inh = false → q.dups.find? (fun e => e.1 = a) = none →
      exec (.movGG g d a) s = trap q ∧ exec (.add g d a a) s = trap q) ∧
    (∀ x, q.inh = false → q.dups.find? (fun e => e.1 = a) = some (a, x) → q.dupParity.getLsbD a.toNat = true →
      let less : Seq := { q with dups := q.dups.filter (fun e => e.1 != a), dupParity := q.dupParity &&& ~~~(1#32 <<< a.toNat) }
      exec (.movGG g d a) s = trap less ∧ exec (.add g d a a) s = trap less)

/-- R93, R117: writes of registers, and reads that fail parity. -/
def Obligations.RegisterFile : Prop := Statements.RegisterWrites ∧ Statements.RegisterParity

/-- R114: an instruction whose guard is false moves to the next instruction and has no further effect: for every
sequencer instruction, `w` being its encoded fields. -/
def Obligations.FalseGuardSkips : Prop :=
  ∀ (s : State) (r pg : Nat) (rg : Region) (q : Seq) (i : Instr) (w : Raw),
    encodeFields i = some (.seq w) → Seat s r pg rg q → q.guardOk w.guard = false →
    exec i s = .next (s.setSeq r pg (past q w.len.succ))
/-! ### Transfers, traps and the sequencer's own waits -/

/-- R129, R130: BR, JMP, CALL, RET and LOOP. A register target that is no multiple of 4 takes the alignment trap at the
transfer, with no link written. -/
def Obligations.ControlTransfers : Prop :=
  ∀ (s : State) (r pg : Nat) (rg : Region) (q : Seq) (g : Guard) (d ra : Reg) (off : BitVec 15) (o : Imm),
    let pc := q.pc
    let rel := pc + o.signExtend 64
    let t := q.getG ra
    let bad := Host.Outcome.next (s.setSeq r pg (q.enter pc { cause := 2, eaddr := t }))
    (Able s r pg rg q g [] →
      exec (.br g off) s = .next (s.setSeq r pg ((past q 1).goto (pc + 4 * off.signExtend 64))) ∧
      exec (.brSbl g o) s = .next (s.setSeq r pg ((past q 2).goto rel)) ∧
      exec (.jmpSbl g o) s = .next (s.setSeq r pg ((past q 2).goto rel)) ∧
      exec (.callSbl g d o) s = .next (s.setSeq r pg (((past q 2).setG d (pc + 8)).goto rel))) ∧
    (Able s r pg rg q g [ra] → t.toNat % 4 = 0 →
      exec (.jmp g ra) s = .next (s.setSeq r pg ((past q 1).goto t)) ∧
      exec (.ret g ra) s = .next (s.setSeq r pg ((past q 1).goto t)) ∧
      exec (.call g d ra) s = .next (s.setSeq r pg (((past q 1).setG d (pc + 4)).goto t))) ∧
    (Able s r pg rg q g [ra] → t.toNat % 4 ≠ 0 → q.inh = false →
      exec (.jmp g ra) s = bad ∧ exec (.ret g ra) s = bad ∧ exec (.call g d ra) s = bad) ∧
    (Able s r pg rg q g [d] →
      let x := q.getG d - 1
      exec (.loop g d o) s = .next (s.setSeq r pg
        (if x = 0 then (past q 2).setG d x else ((past q 2).setG d x).goto rel)))

/-- R130: LOOP writes g[D] less one, modulo 2^64, and goes to pc plus its offset unless the result is 0, else to the next
instruction. A counter that enters at 0 becomes 2^64 - 1 and the branch is taken; LOOP of g0 is always taken and writes
nothing. -/
def Obligations.LoopCounts : Prop :=
  ∀ (s : State) (r pg : Nat) (rg : Region) (q : Seq) (g : Guard) (d : Reg) (o : Imm), Able s r pg rg q g [d] →
    let x : W64 := if d = 0 then -1 else q.getG d - 1
    ∃ t : Seq, exec (.loop g d o) s = .next (s.setSeq r pg t) ∧
      t.pc = (if x = 0 then q.pc + 8 else q.pc + o.signExtend 64) ∧
      (d ≠ 0 → t.getG d = x) ∧ (∀ n, n ≠ d → t.getG n = q.getG n) ∧ t.p = q.p ∧ t.stat = q.stat ∧
      (d ≠ 0 → q.getG d = 0 → t.getG d = 0xFFFFFFFFFFFFFFFF ∧ t.pc = q.pc + o.signExtend 64) ∧
      (d = 0 → t = { past q 2 with pc := q.pc + o.signExtend 64, xfer := true })

/-- R116, R145, R428, R432, R435: TRAP takes the software trap: PMODE := MODE, MODE := 1 (2 on the management core), INH := 1,
EPC := its own address, ECAUSE 11, EINFO := zext(IMM), EADDR 0, pc := TVEC, and nothing else of the status or the registers changes. RETT
returns: MODE := PMODE, PMODE := 0, INH := 0, pc := EPC; after a node trap it restarts the node that ECAUSE names in the
same step. RETT.NEXT returns past the instruction at EPC, whose length the two low bits of its word give; on the management
core, which reads it in Falim, it is one of the three lengths (a free value: notes/assumptions/120.md). -/
def Obligations.TrapAndReturn : Prop :=
  (∀ (s : State) (r pg : Nat) (rg : Region) (q : Seq) (g : Guard) (imm : Imm), Able s r pg rg q g [] →
      (q.inh = false → ∃ t, exec (.trap g imm) s = .next (s.setSeq r pg t) ∧
        t.pmode = q.mode ∧ t.mode = (if q.mgmt then 2 else 1) ∧ t.inh = true ∧ t.dzt = q.dzt ∧ t.wp = q.wp ∧
        t.epc = q.pc ∧ t.ecause = 11 ∧ t.einfo = imm.setWidth 64 ∧ t.eaddr = 0 ∧ t.pc = q.tvec ∧
        t = { q with stat := t.stat, epc := t.epc, ecause := t.ecause, einfo := t.einfo, eaddr := t.eaddr
                     pc := t.pc, xfer := true }) ∧
      (bit q.ecause 8 = false → ∃ t, exec (.rett g) s = .next (s.setSeq r pg t) ∧
        t.mode = q.pmode ∧ t.pmode = 0 ∧ t.inh = false ∧ t.dzt = q.dzt ∧ t.wp = q.wp ∧ t.pc = q.epc ∧
        t = { q with stat := t.stat, pc := t.pc, xfer := true })) ∧
  (∀ (s : State) (r pg : Nat) (rg : Region) (q : Seq) (g : Guard), Able s r pg rg q g [] →
      let v := runAt s r pg rg q 1
      exec (.rett g) s =
        .next ((v.s.updRg r (fun rg => rg.restart q.ecause)).setSeq r pg ((past q 1).leave q.epc)) ∧
      (q.mgmt = true → ∃ n, n < 3 ∧
        exec (.rettNext g) s = .next (s.setSeq r pg ((past q 1).leave (q.epc + BitVec.ofNat 64 (4 * (1 + n)))))) ∧
      ∀ pa u, q.mgmt = false → xlate v.s rg.core rg.ctx q.epc .fetch = .ok (.loc pa u) → v.s.poisonedAt pa 1 = false →
        let n := match (v.s.peek (v.s.keyOf rg.ctx) pa).toNat % 4 with
          | 0 => 4
          | 1 => 8
          | 2 => 12
          | _ => 4
        exec (.rettNext g) s = .next (((v.s.cache rg.core rg.ctx q.epc).updRg r (fun rg => rg.restart q.ecause)).setSeq
          r pg ((past q 1).leave (q.epc + BitVec.ofNat 64 n))))

/-- R434: a synchronous trap while STAT.INH is 1 is not taken: the sequencer stops at the instruction, its registers
as they were, the residency is to retire with FAULT, and no trap register changes. -/
def Sys2Proof.Statements.DoubleTrapStops : Prop :=
  ∀ (s : State) (r pg : Nat) (rg : Region) (q : Seq) (t : TrapRec), s.rg? r = some rg → rg.seqs[pg]? = some q →
    q.inh = true → ∃ x, (s.trap r pg q.pc t).rg? r = some x ∧ x.seqs[pg]? = some { q with stuck := true } ∧
      x.doomed = true ∧ (s.trap r pg q.pc t).mem = s.mem

/-- R109, R428: a failed fetch check traps precisely with the check's cause, EADDR and EINFO, the instruction having no
effect; R431: the first pending asynchronous trap of a sequencer that is neither halted nor in a handler is taken
with EPC at its next instruction, and leaves the pending list. -/
def Sys2Proof.Statements.FetchAndAsynchronousTraps : Prop :=
  ∀ (s : State) (r pg : Nat) (rg : Region) (q : Seq) (f : FetchErr) (t : TrapRec) (rest : List TrapRec),
    Seat s r pg rg q → q.inh = false →
    exec (.fetchFault f) s =
      .next (s.setSeq r pg (q.enter q.pc { cause := f.cause, eaddr := f.eaddr, einfo := f.einfo })) ∧
    (q.halted = false → takeTrap pg rg.pendTraps = some (t, rest) →
      exec (.asyncTrapTaken r) s =
        .next ((s.setRg r { rg with pendTraps := rest }).setSeq r pg (q.enter q.pc t)))

/-- R147, R377: HALT of a helper stops it with its registers, pc among them, as they are (that pc stays at the HALT is the
model's choice, notes/assumptions/36.md), after its buffered stores; at the lead the region's program has ended: its
helpers stop and it drains. -/
def Sys2Proof.Statements.HaltStops : Prop :=
  ∀ (s : State) (r pg : Nat) (rg : Region) (q : Seq), Able s r pg rg q ⟨0, false⟩ [] → q.stores = [] →
    rg.pendTraps = [] →
    (pg ≠ 0 → ∃ t x, exec .halt s = .next t ∧ t.rg? r = some x ∧ t.mem = s.mem ∧
      x.seqs = listUpd rg.seqs pg (fun _ => { q with halted := true }) ∧ x.st = rg.st) ∧
    (pg = 0 → (∀ y ∈ rg.seqs, y.stores = []) → q.inh = false → ∃ t x, exec .halt s = .next t ∧ t.rg? r = some x ∧
      t.mem = s.mem ∧ x.st = .draining ∧
      x.seqs = rg.seqs.map (fun y => { y with halted := true, sleep := none }))

/-- R131 to R134: MONARM sets the sector's two filter bits and registers the core; MONARM.CLR clears the filter and WP;
SLEEP takes a pending wake at once, is false at limit 0, and else sleeps; at its limit it wakes false (that the cycles left
pass in that one turn is the model's choice, notes/assumptions/115.md). -/
def Sys2Proof.Statements.MonitorAndSleep : Prop :=
  ∀ (s : State) (r pg : Nat) (rg : Region) (q : Seq) (g : Guard) (ra : Reg) (p : PReg) (imm : Imm),
    let slept := fun (n l : Nat) =>
      if q.wp then { (past q n).setP p true with stat := putFld q.stat 0 1 0 }
      else if l = 0 then (past q n).setP p false
      else { past q n with sleep := some (l, p) }
    (Able s r pg rg q g [ra] →
      exec (.sleep g p ra) s = .next (s.setSeq r pg (slept 1 (q.getG ra).toNat)) ∧
      ∀ pa u, (runAt s r pg rg q 1).target (q.getG ra) 1 .read = .ok (.loc pa u) →
        exec (.monarm g ra) s =
          .next ((((runAt s r pg rg q 1).cached (q.getG ra)).register rg.core (pa / 64)).setSeq r pg
            { past q 1 with filter := q.filter ||| 1#256 <<< (pa / 64 % 256) ||| 1#256 <<< (pa / 2 ^ 14 % 256) })) ∧
    (Able s r pg rg q g [] →
      exec (.monarmClr g) s = .next (s.setSeq r pg { past q 1 with
        filter := 0, clrs := q.clrs + 1, stat := putFld q.stat 0 1 0 }) ∧
      exec (.sleepSi g p imm) s = .next (s.setSeq r pg (slept 2 imm.toNat))) ∧
    (∀ l, s.rg? r = some rg → rg.seqs[pg]? = some q → rg.resident = true → q.sleep = some (l, p) →
      exec (.sleepExpiry r pg) s =
        .next ((s.pass rg.core l).updSeq r pg (fun x => { x.setP p false with sleep := none })))

/-- R149, R150: BUDGET loads REM with at most 2^48 − 1 and clears EXP; BUDGET.TEST tells whether it has not run out; at
expiry the cycles left in REM pass (in one turn: the model's choice, notes/assumptions/115.md); BEST keeps a smaller residual's magnitude with its reference and ties keep the
earlier one; BEST.CLR resets both. -/
def Obligations.BudgetAndBest : Prop :=
  ∀ (s : State) (r pg : Nat) (rg : Region) (q : Seq) (g : Guard) (p : PReg) (ra rb : Reg) (imm : Imm),
    let load := fun (n x : Nat) =>
      Host.Outcome.next (s.setSeq r pg { past q n with budget := BitVec.ofNat 64 (min x (2 ^ 48 - 1)) })
    let test := fun (n : Nat) => Host.Outcome.next (s.setSeq r pg ((past q n).setP p (!q.budget.getLsbD 63)))
    let best := fun (n : Nat) (f : W64) =>
      let x := (q.getG ra).toNat % 2 ^ 31
      Host.Outcome.next (s.setSeq r pg
        (if (fmtVal 0x18 0 x).lt (fmtVal 0x18 0 (q.bestres.toNat % 2 ^ 32)) then
          { (past q n).setP p true with best := f, bestres := BitVec.ofNat 64 x } else (past q n).setP p false))
    let clear := fun (n : Nat) =>
      Host.Outcome.next (s.setSeq r pg { (past q n).setP p false with best := 0, bestres := 0x7F800000 })
    (Able s r pg rg q g [ra] → exec (.budget g ra) s = load 1 (q.getG ra).toNat ∧
      exec (.bestSi g p ra imm) s = best 2 (imm.signExtend 64)) ∧
    (Able s r pg rg q g [] → exec (.budgetSi g imm) s = load 2 imm.toNat ∧
      exec (.budgetTest g p) s = test 1 ∧ exec (.budgetTestSi g p) s = test 2 ∧
      exec (.bestClr g p) s = clear 1 ∧ exec (.bestClrSi g p) s = clear 2) ∧
    (Able s r pg rg q g [ra, rb] → exec (.best g p ra rb) s = best 1 (q.getG rb)) ∧
    (s.rg? r = some rg → rg.seqs[pg]? = some q → rg.resident = true → q.budget.toNat % 2 ^ 48 ≠ 0 →
      exec (.budgetExpire r pg) s = .next (s.pass rg.core (q.budget.toNat % 2 ^ 48)))

/-- R5, R108, R146: CSRR reads a special register; CSRW writes g[S1] under each field's access code: the read-only bits
of STAT, BUDGET, BESTRES and MONMASK stay, a PMODE of 3 is ignored, ACS is cleared where a 1 is written (EINFO takes all 64
bits: the model's choice, notes/assumptions/141.md); CSRX does both on a field of `w` bits. No other register of the sequencer changes. -/
def Obligations.SpecialRegisters : Prop :=
  ∀ (s : State) (r pg : Nat) (rg : Region) (q : Seq) (g : Guard) (d ra : Reg) (n : Csr) (lsb wm1 : BitVec 6),
    let x := q.getG ra
    let keep := fun (old m y : W64) => (old &&& ~~~m) ||| (y &&& m)
    let stat := fun (m y : W64) =>
      let z := keep q.stat (m &&& 0xF00) y
      if z.toNat / 2 ^ 8 % 4 = 3 then keep z 0x300 q.stat else z
    let wrote := fun (t : Seq) (m y : W64) => match n with
      | .stat => s.setSeq r pg { t with stat := stat m y }
      | .acs => ((s.setSeq r pg (past q 2)).updRg r (fun z =>
          { z with acs := z.acs &&& ~~~((y &&& m).setWidth 5) })).setSeq r pg t
      | .budget => s.setSeq r pg { t with budget := keep q.budget (m &&& 0xFFFFFFFFFFFF) y }
      | .best => s.setSeq r pg { t with best := keep q.best m y }
      | .bestres => s.setSeq r pg { t with bestres := keep q.bestres (m &&& 0xFFFFFFFF) y }
      | .monmask => s.setSeq r pg { t with monmask := keep q.monmask (m &&& 3) y }
      | .epc => s.setSeq r pg { t with epc := keep q.epc m y }
      | .ecause => s.setSeq r pg { t with ecause := keep q.ecause m y }
      | .eaddr => s.setSeq r pg { t with eaddr := keep q.eaddr m y }
      | .einfo => s.setSeq r pg { t with einfo := keep q.einfo m y }
      | .tvec => s.setSeq r pg { t with tvec := keep q.tvec m y }
      | .cyc | .pageid | .ctxid | .dupmap => s.setSeq r pg t
    let val := (runAt s r pg rg q 2).csr n
    (Able s r pg rg q g [] → exec (.csrr g d n) s = .next (s.setSeq r pg ((past q 2).setG d val))) ∧
    (Able s r pg rg q g [ra] →
      exec (.csrw g ra n) s = .next (wrote (past q 2) (BitVec.allOnes 64) x) ∧
      (lsb.toNat + wm1.toNat ≤ 63 →
        exec (.csrx g d ra n lsb wm1) s = .next (wrote
          ((past q 2).setG d (BitVec.ofNat 64 (val.toNat / 2 ^ lsb.toNat % 2 ^ (wm1.toNat + 1))))
          (BitVec.ofNat 64 ((2 ^ (wm1.toNat + 1) - 1) * 2 ^ lsb.toNat)) (x <<< lsb.toNat))))

/-- No other residency's sequencer has a checked store buffered toward the sector, so none of them must perform before a
store of residency `r` there (notes/assumptions/138.md). -/
def Sys2Proof.Statements.Alone (s : State) (r sec : Nat) : Prop :=
  ∀ k x, (k, x) ∈ s.regions → k ≠ r → ∀ y ∈ x.seqs, ∀ st ∈ y.stores, st.chk = true → sectorOf st.pa ≠ sec

/-- R148, R319: SNAP of an address that is a multiple of 64 whose 40 dwords all translate for writing to local memory and pass
the race check, none of them in a quiesced stack or row, buffers 40 dword stores behind the sequencer's earlier ones, in
ascending order, and moves on; a store that faults ends it with that store's trap, at the instruction; a misaligned address takes the alignment trap before any
store. The record holds the address after SNAP, g1 to g31, the predicates (p0 as 1), BUDGET, BEST, BESTRES and MONMASK. -/
def Obligations.RegisterSnapshot : Prop :=
  ∀ (s : State) (r pg : Nat) (rg : Region) (q : Seq) (g : Guard) (ra : Reg), Able s r pg rg q g allRegs →
    let v := runAt s r pg rg q 1
    let base := q.getG ra
    let dw := v.snapDwords
    let at_ := fun (i : Nat) => base + BitVec.ofNat 64 (8 * i)
    let told := fun (i : Nat) => (List.range i).foldl (fun t j => t.cache rg.core rg.ctx (at_ j)) v.s
    (∀ (pa : Nat → Nat) (u : Nat → Bool), base.toNat % 64 = 0 →
      (∀ i, i < 40 → xlate (told i) rg.core rg.ctx (at_ i) .write = .ok (.loc (pa i) (u i)) ∧ s.quiesced (pa i) = false ∧
        (u i = true ∨ (s.race rg (sectorOf (pa i)) = none ∧ Statements.Alone s r (sectorOf (pa i))))) →
      exec (.snap g ra) s = .next ((told 40).setSeq r pg { past q 1 with
        stores := q.stores ++ (List.range 40).map (fun i =>
          { pa := pa i, va := at_ i, bytes := leBytes 8 (dw.getD i 0).toNat, release := false, sys := false, chk := !u i
            raw := i % 8 = 7 }) })) ∧
    (∀ w t, base.toNat % 64 = 0 → snapFrom base 0 dw v = (w, some t) → t.cause ≠ 256 →
      exec (.snap g ra) s = .next ((w.set { w.q with pc := q.pc }).trap r pg q.pc t)) ∧
    (base.toNat % 64 ≠ 0 → q.inh = false →
      exec (.snap g ra) s = .next (s.setSeq r pg (q.enter q.pc { cause := 2, eaddr := base }))) ∧
    dw.length = 40 ∧ dw.head? = some (q.pc + 4) ∧
    (∀ i, i < 31 → dw[i + 1]? = some (q.getG (BitVec.ofNat 5 (i + 1)))) ∧
    (∃ x, dw[32]? = some x ∧ ∀ k, k < 64 → x.getLsbD k = (decide (k < 8) && q.getP (BitVec.ofNat 3 (k % 8)))) ∧
    dw.drop 33 = [q.budget, q.best, q.bestres, q.monmask, 0, 0, 0]

/-- R109, R428, R431, R434: traps that fetch and devices raise, and the double trap. -/
def Obligations.OtherTraps : Prop :=
  Statements.DoubleTrapStops ∧ Statements.FetchAndAsynchronousTraps

/-- R131 to R134, R147, R377: what ends a sequencer's work or makes it wait. -/
def Obligations.HaltAndSleep : Prop :=
  Statements.HaltStops ∧ Statements.MonitorAndSleep

/-! ### The sequencer's accesses to memory -/

/-- R125, R126, R319: a local LD whose checks pass writes g[D] with the bytes at its effective address, the newest
buffered store winning (where one covers the loaded bytes and no newer one meets them, they are its own), extended by its
type, and moves on; a misaligned one takes the alignment trap with EADDR the
effective address and makes no access. -/
def Obligations.LoadResult : Prop :=
  ∀ (s : State) (r pg : Nat) (rg : Region) (q : Seq) (g : Guard) (ty : MTy) (d : Reg) (m : MemRef),
    Able s r pg rg q g (memRegs m) →
    let v := runAt s r pg rg q 2
    let ea := (past q 2).ea q.pc m
    let n := tySize ty
    (∀ pa u x, v.target ea n .read = .ok (.loc pa u) → v.load ea pa n (!u) = .ok x →
      exec (.ld g ty d m) s = .next ((v.cached ea).setSeq r pg { (past q 2).setG d (tyExtend ty x.val) with
        lastTag := some (if u then {} else x.tag), armed := none }) ∧
      (q.stores = [] → x.val = leNat (v.s.peekN (v.s.keyOf rg.ctx) pa n)) ∧
      (∀ older st newer, q.stores = older ++ st :: newer → st.pa ≤ pa → pa + n ≤ st.pa + st.bytes.length →
        (∀ y ∈ newer, y.pa + y.bytes.length ≤ pa ∨ pa + n ≤ y.pa) →
        x.val = leNat ((st.bytes.drop (pa - st.pa)).take n))) ∧
    (ea.toNat % n ≠ 0 → q.inh = false →
      exec (.ld g ty d m) s = .next (s.setSeq r pg (q.enter q.pc { cause := 2, eaddr := ea }))) ∧
    (∀ f, ea.toNat % n = 0 → xlate v.s rg.core rg.ctx ea .read = .error f → q.inh = false →
      exec (.ld g ty d m) s = .next (s.setSeq r pg (q.enter q.pc
        { cause := 3, eaddr := ea, einfo := f.detail .read })))

/-- R125, R126, R316, R319: a local ST whose checks pass buffers the low bytes of g[D] behind the sequencer's earlier
stores and moves on, and no other register changes. No byte of memory changes until a store performs: none does where the
page is unchecked or where no other residency has a checked store buffered toward that sector (else those perform first,
`Run.settled`: the model's choice, notes/assumptions/138.md). -/
def Obligations.StoreIsBuffered : Prop :=
  ∀ (s : State) (r pg : Nat) (rg : Region) (q : Seq) (g : Guard) (ty : MTy) (d : Reg) (m : MemRef),
    Able s r pg rg q g (d :: memRegs m) → q.armed = none →
    let v := runAt s r pg rg q 2
    let ea := (past q 2).ea q.pc m
    let n := tySize ty
    let st : Nat → Bool → PendStore := fun pa u =>
      { pa := pa, va := ea, bytes := leBytes n (q.getG d).toNat, release := false, sys := false, chk := !u }
    let after : Run → Nat → Bool → State := fun w pa u =>
      (w.cached ea).setSeq r pg { past q 2 with stores := q.stores ++ [st pa u], lastTag := none }
    (∀ pa u, (v.settled ea n).target ea n .write = .ok (.loc pa u) →
      (u = false → (v.settled ea n).s.race rg (sectorOf pa) = none) →
      exec (.st g ty d m) s = .next (after (v.settled ea n) pa u)) ∧
    (∀ pa u, v.target ea n .write = .ok (.loc pa u) →
      (u = true ∨ (s.race rg (sectorOf pa) = none ∧ Statements.Alone s r (sectorOf pa))) →
      exec (.st g ty d m) s = .next (after v pa u) ∧
      ∀ a, Memory.get (after v pa u).mem a = Memory.get s.mem a) ∧
    (ea.toNat % n ≠ 0 → q.inh = false →
      exec (.st g ty d m) s = .next (s.setSeq r pg (q.enter q.pc { cause := 2, eaddr := ea })))

/-- R148, R316, R324: the oldest buffered store of a sequencer performs: its bytes stand at its physical address,
little-endian in rising order, every other byte of memory reads as before (the sector being readable under the context's key,
R344, and neither its stack nor its row quiesced). A release first advances its region's count C; a checked store, a release
among them, leaves in its sector the region's tag, with C as it is then; another leaves the tag that stood. The last of SNAP's
stores to a sector makes it RAW; any other leaves its format and scales. -/
def Obligations.BufferedStorePerforms : Prop :=
  ∀ (s : State) (r pg : Nat) (rg : Region) (q : Seq) (st : PendStore) (rest : List PendStore),
    s.rg? r = some rg → rg.seqs[pg]? = some q → q.stores = st :: rest → Memory.wf s.mem = true →
    s.readable (s.keyOf rg.ctx) (sectorOf st.pa) = true → s.quiesced st.pa = false →
    let c := s.count rg.core rg.first
    let old := s.sideAt (sectorOf st.pa)
    ∃ t, exec (.accessPerformed (.seqStore r pg)) s = .next t ∧
      (∀ a, (a < st.pa ∨ st.pa + st.bytes.length ≤ a) → Memory.get t.mem a = Memory.get s.mem a) ∧
      (∀ i (h : i < st.bytes.length), Memory.get t.mem (st.pa + i) = st.bytes[i]) ∧
      t.seq? r pg = some { q with stores := rest } ∧
      (let new := t.sideAt (sectorOf st.pa)
       new.tag = (if st.chk then { wid := rg.wid, cnt := t.count rg.core rg.first } else old.tag) ∧
       (new.fmt, new.sca, new.scb) = (if st.raw then (0, 0, 0) else (old.fmt, old.sca, old.scb))) ∧
      (st.release = false → t.count rg.core rg.first = c) ∧
      (st.release = true → rg.first < (s.core rg.core).counts.length → t.count rg.core rg.first = c + 1)

/-- R127: a local AMO performs after the sequencer's earlier stores: the old value, extended by the type, goes to g[D],
and the new value, computed by AOP on n bytes, to memory, except that a failing CAS writes nothing. -/
def Obligations.AtomicResult : Prop :=
  ∀ (s : State) (r pg : Nat) (rg : Region) (q : Seq) (g : Guard) (op : Aop) (ty : MTy) (d ra rb : Reg)
    (disp : BitVec 24),
    Able s r pg rg q g (if op = .cas then [ra, rb, d] else [ra, rb]) → q.armed = none →
    let v := (runAt s r pg rg q 2).drained
    let ea := q.getG ra + disp.signExtend 64
    let n := tySize ty
    let arg := (q.getG rb).toNat % 2 ^ (8 * n)
    let cmp := (q.getG d).toNat % 2 ^ (8 * n)
    (∀ pa u l, v.target ea n .atomic = .ok (.loc pa u) → v.bytes ea pa n = .ok l →
      let old := leNat l
      let put := fun (new : Nat) => (v.cached ea).write ((v.cached ea).keyOf rg.ctx) pa (leBytes n new)
      let done := fun (t : State) => Host.Outcome.next (t.setSeq r pg { ({ past q 2 with stores := [] } : Seq).setG d
        (tyExtend ty old) with
          lastTag := some (if u then {} else (v.s.sideAt (sectorOf pa)).tag), armed := none })
      exec (.amo g op ty d ra rb disp) s = (match op with
        | .add => done (put ((old + arg) % 2 ^ (8 * n)))
        | .and => done (put (old &&& arg))
        | .or => done (put (old ||| arg))
        | .xor => done (put (old ^^^ arg))
        | .min => done (put (if sval (8 * n) arg < sval (8 * n) old then arg else old))
        | .max => done (put (if sval (8 * n) old < sval (8 * n) arg then arg else old))
        | .minu => done (put (if arg < old then arg else old))
        | .maxu => done (put (if old < arg then arg else old))
        | .swap => done (put arg)
        | .cas => if old = cmp then done (put arg) else done (v.cached ea))) ∧
    (ea.toNat % n ≠ 0 → q.inh = false →
      exec (.amo g op ty d ra rb disp) s = .next (s.setSeq r pg (q.enter q.pc { cause := 2, eaddr := ea })))

/-- R128, R317: FENCE performs the sequencer's earlier stores; from REGION on it arms the next store or atomic as a
release of its scope (of the widest of several: the model's choice, notes/assumptions/23.md) and makes the access just
before an acquire; FENCE.SYS waits for the remote stores not yet
acknowledged. -/
def Sys2Proof.Statements.FenceResult : Prop :=
  ∀ (s : State) (r pg : Nat) (rg : Region) (q : Seq) (g : Guard) (sc : Scope), Able s r pg rg q g [] →
    let v := (runAt s r pg rg q 1).drained
    let base := match q.lastTag with
      | some t => if 2 ≤ scopeCode sc then v.s.acquire r t else v.s
      | none => v.s
    exec (.fence g sc) s = .next (base.setSeq r pg { past q 1 with
      stores := []
      armed := if scopeCode sc < 2 then q.armed else match q.armed with
        | some o => if scopeCode o < scopeCode sc then some sc else some o
        | none => some sc
      wait := if sc = .sys ∧ q.remotes ≠ [] then some (.fenceSys q.remotes) else none })

/-- R135: TESTSEQ of a local dword writes p[D] := ((s − g[S2]) mod 2^64) < 2^63, and a true result acquires. -/
def Sys2Proof.Statements.TestSequence : Prop :=
  ∀ (s : State) (r pg : Nat) (rg : Region) (q : Seq) (g : Guard) (p : PReg) (ra rb : Reg) (imm : Imm),
    Able s r pg rg q g [ra, rb] →
    let done := fun (v : Run) (n : Nat) (ea : W64) (u : Bool) (x : Loaded) =>
      let ok : Bool := decide ((BitVec.ofNat 64 x.val - q.getG rb).toNat < 2 ^ 63)
      Host.Outcome.next ((if ok then (v.cached ea).acquire r (if u then {} else x.tag) else v.cached ea).setSeq r pg
        { (past q n).setP p ok with lastTag := none, armed := none })
    (∀ pa u x, (runAt s r pg rg q 1).target (q.getG ra) 8 .read = .ok (.loc pa u) →
      (runAt s r pg rg q 1).load (q.getG ra) pa 8 false = .ok x →
      exec (.testseq g p ra rb) s = done (runAt s r pg rg q 1) 1 (q.getG ra) u x) ∧
    (∀ pa u x, (runAt s r pg rg q 2).target (q.getG ra + imm.signExtend 64) 8 .read = .ok (.loc pa u) →
      (runAt s r pg rg q 2).load (q.getG ra + imm.signExtend 64) pa 8 false = .ok x →
      exec (.testseqSi g p ra rb imm) s = done (runAt s r pg rg q 2) 2 (q.getG ra + imm.signExtend 64) u x)

/-- R127, R332, R390: an LD, ST or AMO whose address a remote leaf maps is sent to the remote node: LD and AMO wait at the
instruction for the reply, the request of AMO carrying its operation, its operand and, for CAS, the value to compare with; ST
goes on with its acknowledgement outstanding. -/
def Obligations.RemoteAccessIsSent : Prop :=
  ∀ (s : State) (r pg : Nat) (rg : Region) (q : Seq) (g : Guard) (ty : MTy) (d : Reg) (m : MemRef) (rn : BitVec 16)
    (ch : Nat) (rod : Bool) (a : W64) (u : Bool) (op : Aop) (rb : Reg) (disp : BitVec 24),
    Able s r pg rg q g (rb :: d :: memRegs m) → q.armed = none →
    let v := runAt s r pg rg q 2
    let ea := (past q 2).ea q.pc m
    (v.target ea (tySize ty) .read = .ok (.rem rn ch rod a u) → ∃ t id x, exec (.ld g ty d m) s = .next t ∧
      t.remotes.find id = some x ∧ x.kind = .ld ∧ x.rnode = rn ∧ x.chan = ch ∧ x.addr = a ∧
      t.seq? r pg = some { past q 2 with pc := q.pc, wait := some (.ld id d ty 2) }) ∧
    (v.target ea (tySize ty) .write = .ok (.rem rn ch rod a u) → ∃ t id x, exec (.st g ty d m) s = .next t ∧
      t.remotes.find id = some x ∧ x.kind = .st ∧ x.rnode = rn ∧ x.addr = a ∧
      x.bytes = leBytes (tySize ty) (q.getG d).toNat ∧
      t.seq? r pg = some { past q 2 with remotes := q.remotes ++ [id], lastTag := none }) ∧
    (∀ b off, m = .base b off → v.drained.target (q.getG b + disp.signExtend 64) (tySize ty) .atomic = .ok (.rem rn ch rod a u) →
      ∃ t id x, exec (.amo g op ty d b rb disp) s = .next t ∧ t.remotes.find id = some x ∧ x.kind = .amo ∧ x.rnode = rn ∧
        x.addr = a ∧ x.bytes = leBytes (tySize ty) ((q.getG rb).toNat % 2 ^ (8 * tySize ty)) ∧
        x.op = some { code := aopCode op, cmp := BitVec.ofNat 64 ((q.getG d).toNat % 2 ^ (8 * tySize ty)) } ∧
        t.seq? r pg = some { past q 2 with pc := q.pc, stores := [], wait := some (.amo id d ty 2) })

/-- R128, R135, R317: fences, and the test of a sequence number. -/
def Obligations.FenceAndTest : Prop :=
  Statements.FenceResult ∧ Statements.TestSequence

/-! ### Fabric control and ports -/

/-- R136 to R138: CFG, CFG.LIST and CFGSTEP write CODE + 256 × INDEX. A sequencer that is not the lead gets 12; a running
region gives 11; CFGSTEP past the list or without one gives 10; in each case nothing else changes. A load that passes
every check arms the configuration and gives 0; a refused one leaves the region unarmed. CFG.LIST reads the list's
header, sets LP to the list and LI to 0, and installs entry 0; CFGSTEP moves LI by the step and installs that entry; a
list count of 0 or above 4,096, or a reserved bit, gives 13. -/
def Obligations.ConfigurationLoads : Prop :=
  (∀ (s : State) (r pg : Nat) (rg : Region) (q : Seq) (g : Guard) (d ra : Reg) (imm : Imm), Able s r pg rg q g [ra] →
      let code := fun (n c : Nat) => Host.Outcome.next (s.setSeq r pg ((past q n).setG d (BitVec.ofNat 64 c)))
      let all := fun (c : Nat) => exec (.cfg g d ra) s = code 1 c ∧ exec (.cfgSi g d ra imm) s = code 2 c ∧
        exec (.cfgList g d ra) s = code 1 c ∧ exec (.cfgListSi g d ra imm) s = code 2 c ∧
        exec (.cfgstep g d) s = code 1 c ∧ exec (.cfgstepSi g d imm) s = code 2 c
      (pg ≠ 0 → all 12) ∧
      (pg = 0 → rg.live = true → all 11) ∧
      (pg = 0 → rg.live = false → rg.lp = none →
        exec (.cfgstep g d) s = code 1 10 ∧ exec (.cfgstepSi g d imm) s = code 2 10) ∧
      (pg = 0 → rg.live = false → ∀ (n : Nat) (va : W64) (i : Instr),
        (n = 1 ∧ va = q.getG ra ∧ i = .cfg g d ra) ∨
          (n = 2 ∧ va = q.getG ra + imm.signExtend 64 ∧ i = .cfgSi g d ra imm) →
        let v := runAt s r pg rg q n
        (∀ k, loadConfig v.rdLoad rg.pm1 va = .ok k →
          exec i s = .next ((v.s.updRg r (fun x => { x.install k with lp := rg.lp })).setSeq r pg ((past q n).setG d 0))) ∧
        (∀ c j, loadConfig v.rdLoad rg.pm1 va = .error (.refuse c j) →
          exec i s = .next ((v.s.updRg r (fun x => { x with armedCfg := false, st := .unarmed, lp := rg.lp })).setSeq r pg
            ((past q n).setG d (BitVec.ofNat 64 (c + 256 * j))))))) ∧
  (∀ (s : State) (rg : Region) (q : Seq) (r : Nat) (g : Guard) (d ra : Reg) (imm : Imm) (h e : Nat) (k : Kit),
      Able s r 0 rg q g [ra] → rg.live = false →
      let done := fun (n : Nat) (a : W64) (cnt li : Nat) => Host.Outcome.next
        (((runAt s r 0 rg q n).s.updRg r (fun x => { x.install k with lp := some (a, cnt, li) })).setSeq r 0
          ((past q n).setG d 0))
      (∀ (n : Nat) (a : W64) (i : Instr), (n = 1 ∧ a = q.getG ra ∧ i = .cfgList g d ra) ∨
          (n = 2 ∧ a = q.getG ra + imm.signExtend 64 ∧ i = .cfgListSi g d ra imm) →
        (runAt s r 0 rg q n).rd a 8 = .ok h →
        (h = 0 ∨ 4096 < h → exec i s = .next (s.setSeq r 0 ((past q n).setG d 13))) ∧
        (0 < h → h ≤ 4096 → (runAt s r 0 rg q n).rd (a + 8) 8 = .ok e →
          loadConfig (runAt s r 0 rg q n).rdLoad rg.pm1 (BitVec.ofNat 64 e) = .ok k → exec i s = done n a h 0)) ∧
      (∀ (n : Nat) (a : W64) (cnt li : Nat) (step : Int) (i : Instr), rg.lp = some (a, cnt, li) →
          (n = 1 ∧ step = 1 ∧ i = .cfgstep g d) ∨ (n = 2 ∧ step = imm.toInt ∧ i = .cfgstepSi g d imm) →
        let j := (li : Int) + step
        (j < 0 ∨ (cnt : Int) ≤ j → exec i s = .next (s.setSeq r 0 ((past q n).setG d 10))) ∧
        (0 ≤ j → j < cnt → (runAt s r 0 rg q n).rd (a + BitVec.ofNat 64 (8 * (1 + j.toNat))) 8 = .ok e →
          loadConfig (runAt s r 0 rg q n).rdLoad rg.pm1 (BitVec.ofNat 64 e) = .ok k → exec i s = done n a cnt j.toNat)))

/-- R139: RUN by the lead of an armed region that is not running starts its counter with the packed trip counts and is
true; in every other case it is false and nothing else changes. -/
def Obligations.RunStarts : Prop :=
  ∀ (s : State) (r pg : Nat) (rg : Region) (q : Seq) (g : Guard) (p : PReg) (ra : Reg) (imm : Imm),
    Able s r pg rg q g [ra] →
    let t := q.getG ra
    let fld := fun (k : Nat) => t.toNat / 2 ^ (16 * k) % 65536 + 1
    let may := pg = 0 ∧ rg.armedCfg = true ∧ rg.st = .armed ∧ rg.live = false
    let yes := fun (n : Nat) (trips : List Nat) => Host.Outcome.next
      (((runAt s r pg rg q n).drained.s.updRg r (fun x => x.start trips)).setSeq r pg
        (({ past q n with stores := [] } : Seq).setP p true))
    let no := fun (n : Nat) => Host.Outcome.next (s.setSeq r pg ((past q n).setP p false))
    (may → exec (.run g p ra) s = yes 1 [fld 0, fld 1, fld 2, fld 3] ∧
      exec (.runSi g p imm) s = yes 2 [imm.toNat % 65536 + 1, imm.toNat / 65536 + 1, 1, 1]) ∧
    (¬ may → exec (.run g p ra) s = no 1 ∧ exec (.runSi g p imm) s = no 2)

/-- R140: BOUND of a CNT or AGEN node that holds no unapplied bound token, with a value from 1 to 2^32, is true and the
node holds the value; a value outside that range is refused. -/
def Obligations.BoundTokens : Prop :=
  ∀ (s : State) (r pg : Nat) (rg : Region) (q : Seq) (g : Guard) (p : PReg) (ra rb : Reg) (node : BitVec 7)
    (blk : BitVec 4) (b : Block) (c : NodeCfg) (v : NodeV),
    Able s r pg rg q g [ra, rb] → rg.armedCfg = true →
    let key := 128 * blk.toNat + node.toNat
    let x := (q.getG rb).toNat
    let st := rg.nodes.get key {}
    let sent := fun (n : Nat) => Host.Outcome.next (((runAt s r pg rg q n).s.updRg r (fun z => { z with
      nodes := z.nodes.put key { st with x := st.x.bind v (agenLim b v) x } })).setSeq r pg ((past q n).setP p true))
    let no := fun (n : Nat) => Host.Outcome.next (s.setSeq r pg ((past q n).setP p false))
    (rg.allNodes.find? (fun e => e.1 = key) = some (key, b, c, v) → v.op = 0xA7 ∨ v.op = 0xA8 →
      st.x.bounded = false → 0 < x → x ≤ 2 ^ 32 →
      exec (.boundSi g p rb node blk) s = sent 2 ∧
      ((q.getG ra).toNat = 128 * blk.toNat + node.toNat → exec (.bound g p ra rb) s = sent 1)) ∧
    (x = 0 ∨ 2 ^ 32 < x → exec (.boundSi g p rb node blk) s = no 2 ∧ exec (.bound g p ra rb) s = no 1)

/-- R141, R142: ACCRST clears an accumulator and its status word, with an anchor in the immediate form, and changes no
other accumulator and not ACS; ACCRD reads the status word or a dword of the value. -/
def Obligations.AccumulatorAccess : Prop :=
  ∀ (s : State) (r pg : Nat) (rg : Region) (q : Seq) (g : Guard) (n : BitVec 4) (part : BitVec 3) (d : Reg) (imm : Imm),
    Able s r pg rg q g [] →
    let reset := fun (k : Nat) (a : Acc) => Host.Outcome.next (((s.setSeq r pg (past q k)).updRg r (fun x =>
      { x with accs := x.accs.set n.toNat a n.isLt })).setSeq r pg (past q k))
    let a := rg.accs[n.toNat]'n.isLt
    let val : W64 := if part = 0 then BitVec.ofNat 64 a.word
      else BitVec.ofInt 64 (a.v / 2 ^ (64 * (part.toNat - 1)))
    exec (.accrst g n) s = reset 1 {} ∧
    exec (.accrstSi g n imm) s = reset 2 { anchor := imm.toInt, av := true } ∧
    exec (.accrd g part d n) s = .next (s.setSeq r pg ((past q 1).setG d val)) ∧
    exec (.accrdSi g part d n) s = .next (s.setSeq r pg ((past q 2).setG d val))

/-- R143, R144: PORTW of a port that an INGR of the armed configuration reads, whose format fits 64 bits, that has room and
has not ended, is true and feeds the port one token, the low bits of g[S1] or end-of-stream; a port number of 64 or
more, an unread, full or ended port gives false and nothing written. PORTR of a bound port with a data token at its head
consumes it into g[D] with p[F] true; an unbound or empty port, or a number of 64 or more, gives 0 and false, a port at
its end gives 1 and false and stays ended. -/
def Obligations.PortAccess : Prop :=
  (∀ (s : State) (r pg : Nat) (rg : Region) (q : Seq) (g : Guard) (eos : Bool) (p : PReg) (ra rb : Reg) (port : BitVec 6)
      (v : NodeV),
      Able s r pg rg q g [ra, rb] →
      let w := fmtWidth v.fmt
      let pt := rg.inPort port.toNat
      let t : Token := if eos then eosToken else { val := BitVec.ofNat 64 ((q.getG ra).toNat % 2 ^ w) }
      let yes := fun (n : Nat) => Host.Outcome.next
        (((runAt s r pg rg q n).s.updRg r (fun x => x.feed port.toNat t)).setSeq r pg ((past q n).setP p true))
      let no := fun (n : Nat) => Host.Outcome.next (s.setSeq r pg ((past q n).setP p false))
      (rg.inNode port.toNat = some v → w ≤ 64 → pt.room = true → pt.ended = false →
        exec (.portwSi g eos p ra port) s = yes 2 ∧
        ((q.getG rb).toNat = port.toNat → exec (.portw g eos p ra rb) s = yes 1)) ∧
      (rg.inNode port.toNat = none ∨ pt.room = false ∨ pt.ended = true →
        exec (.portwSi g eos p ra port) s = no 2 ∧
        ((q.getG rb).toNat = port.toNat → exec (.portw g eos p ra rb) s = no 1)) ∧
      (64 ≤ (q.getG rb).toNat → exec (.portw g eos p ra rb) s = no 1)) ∧
  (∀ (s : State) (r pg : Nat) (rg : Region) (q : Seq) (g : Guard) (f : PReg) (d ra : Reg) (port : BitVec 6) (v : NodeV)
      (t : Token) (l : List Token),
      Able s r pg rg q g [ra] → (q.getG ra).toNat = port.toNat →
      let pt := rg.outPort port.toNat
      let both := fun (o : Nat → Out) => exec (.portrSi g f d port) s = o 2 ∧ exec (.portr g f d ra) s = o 1
      let none' := fun (n : Nat) => Host.Outcome.next (s.setSeq r pg (((past q n).setG d 0).setP f false))
      let upd := fun (n : Nat) (x : OutPort) (y : Seq) => Host.Outcome.next
        (((runAt s r pg rg q n).s.updRg r (fun z => z.setOut port.toNat x)).setSeq r pg y)
      (rg.outNode port.toNat = none → both none') ∧
      (rg.outNode port.toNat = some v → pt.taken = false →
        (pt.q = [] → pt.ended = false → both none') ∧
        (pt.q = t :: l → t.eos = false → pt.ended = false →
          both (fun n => upd n { pt with q := l } (((past q n).setG d t.val).setP f true))) ∧
        (pt.ended = true ∨ (pt.q = t :: l ∧ t.eos = true) →
          both (fun n => upd n { pt with ended := true, q := pt.q.tail } (((past q n).setG d 1).setP f false))))) ∧
  (∀ (s : State) (r pg : Nat) (rg : Region) (q : Seq) (g : Guard) (f : PReg) (d ra : Reg), Able s r pg rg q g [ra] →
    64 ≤ (q.getG ra).toNat → exec (.portr g f d ra) s = .next (s.setSeq r pg (((past q 1).setG d 0).setP f false)))
/-! ### Engine commands and queues -/

/-- R152 to R154, R156: a command that breaks no rule and whose queue holds fewer than 32 is accepted: g[D] takes the
queue's next sequence number, the sequencer's earlier stores perform, and the command with the dwords of its
descriptor stands last in the queue. A command that breaks one writes 2^63 + code to g[D] and enters no queue. A
descriptor that cannot be read traps (one in a quiesced stack or row is waited for, R457). -/
def Obligations.EngineCommandIssue : Prop :=
  ∀ (s : State) (r pg : Nat) (rg : Region) (q : Seq) (g : Guard) (d ra : Reg) (imm : Imm),
    Able s r pg rg q g [ra] →
    let a1 := q.getG ra
    let a2 := q.getG ra + imm.signExtend 64
    ∀ e ∈ ([(.sload, 9, 1, a1, .sload g d ra), (.sload, 9, 2, a2, .sloadSi g d ra imm),
        (.sstore, 9, 1, a1, .sstore g d ra), (.sstore, 9, 2, a2, .sstoreSi g d ra imm),
        (.cpy, 6, 1, a1, .cpy g d ra), (.cpy, 6, 2, a2, .cpySi g d ra imm),
        (.etbl, 4, 1, a1, .etbl g d ra), (.etbl, 4, 2, a2, .etblSi g d ra imm),
        (.xpose, 6, 1, a1, .xpose g d ra), (.xpose, 6, 2, a2, .xposeSi g d ra imm),
        (.gather, 9, 1, a1, .gather g d ra), (.gather, 9, 2, a2, .gatherSi g d ra imm),
        (.scatter, 9, 1, a1, .scatter g d ra), (.scatter, 9, 2, a2, .scatterSi g d ra imm),
        (.mcast, 5, 1, a1, .mcast g d ra), (.mcast, 5, 2, a2, .mcastSi g d ra imm),
        (.chainw, 3, 1, a1, .chainw g d ra), (.chainw, 3, 2, a2, .chainwSi g d ra imm)] :
        List (EngOp × Nat × Nat × W64 × Instr)),
      let (op, dlen, n, a, i) := e
      let v := runAt s r pg rg q n
      let no := fun (c : Nat) => Host.Outcome.next (s.setSeq r pg ((past q n).setG d (BitVec.ofNat 64 (2 ^ 63 + c))))
      (∀ h, v.readDws a 1 = .ok [h] →
        (h.toNat % 256 ≠ dlen ∨ h.toNat / 4096 % 16 ≠ 0 ∨ h.toNat / 2 ^ 48 ≠ 0 → exec i s = no 2) ∧
        (∀ desc, h.toNat % 256 = dlen → h.toNat / 4096 % 16 = 0 → h.toNat / 2 ^ 48 = 0 →
          v.readDws a dlen = .ok desc →
          let k := desc.head?.getD 0
          let eq := k.toNat / 256 % 8
          (descCode op rg.nmem desc ≠ 0 → exec i s = no (descCode op rg.nmem desc)) ∧
          (descCode op rg.nmem desc = 0 → 32 ≤ (rg.eq eq).entries.length → exec i s = no 1) ∧
          (descCode op rg.nmem desc = 0 → (rg.eq eq).entries.length < 32 →
            exec i s = .next ((v.drained.s.updRg r (fun x => x.setEq eq { x.eq eq with
              next := (x.eq eq).next + 1
              entries := (x.eq eq).entries ++ [.cmd { op := op, seq := (rg.eq eq).next, desc := desc, page := pg, since := x.bankStamp }] })).setSeq
              r pg (({ past q n with stores := [] } : Seq).setG d (BitVec.ofNat 64 (rg.eq eq).next)))))) ∧
      (∀ t, v.readDws a 1 = .error t → t.cause ≠ 256 → q.inh = false → exec i s = .next (s.setSeq r pg (q.enter q.pc t)))

/-- R166: SCLOSE queues an end-of-stream for a read ingress port that has not ended, behind the accepted commands that feed
it, multicasts of other members of the group among them; its cancelling forms end the commands bound to a port, or those
of a queue, and the KEEP bindings; a false result changes nothing else. -/
def Obligations.StreamClose : Prop :=
  ∀ (s : State) (r pg : Nat) (rg : Region) (q : Seq) (g : Guard) (p : PReg) (ra : Reg) (n : BitVec 6) (m : BitVec 3),
    Able s r pg rg q g [ra] →
    let yes := fun (len : Nat) (f : State → State) => Host.Outcome.next
      ((f (runAt s r pg rg q len).s).setSeq r pg ((past q len).setP p true))
    let no := fun (len : Nat) => Host.Outcome.next (s.setSeq r pg ((past q len).setP p false))
    let k := (q.getG ra).toNat
    let closed := fun (j : Nat) (t : State) => t.updRg r (fun x => x.setIn j
      (({ x.inPort j with ended := true, close := some (t.feeders r x j) } : InPort).settle))
    let cut := fun (j : Nat) (t : State) => { t with regions := t.regions.map (fun e =>
      if e.1 = r then
        let y := e.2.cancelWhere (fun _ c => c.ownIn rg.member = some j || c.outP = some j)
        (r, y.setOut j { y.outPort j with keep := none })
      else if e.2.gid.isSome ∧ e.2.gid = rg.gid then
        (e.1, e.2.cancelWhere (fun _ c => c.fansTo rg.member = some j))
      else e) }
    let cutQ := fun (j : Nat) (t : State) => t.updRg r (fun x =>
      let y := x.cancelWhere (fun i _ => i = j)
      { y with vout := y.vout.map (fun e => if e.2.keep = some j then (e.1, { e.2 with keep := none }) else e) })
    ((rg.inNode n.toNat).isSome = true → (rg.inPort n.toNat).ended = false →
      exec (.scloseSi g p n) s = yes 2 (closed n.toNat) ∧ (k = n.toNat → exec (.sclose g p ra) s = yes 1 (closed k))) ∧
    (rg.inNode n.toNat = none ∨ (rg.inPort n.toNat).ended = true →
      exec (.scloseSi g p n) s = no 2 ∧ (k = n.toNat → exec (.sclose g p ra) s = no 1)) ∧
    exec (.scloseCancelSi g p n) s = yes 2 (cut n.toNat) ∧
    exec (.scloseQueueSi g p m) s = yes 2 (cutQ m.toNat) ∧
    (k < 64 → exec (.scloseCancel g p ra) s = yes 1 (cut k)) ∧
    (k < 8 → exec (.scloseQueue g p ra) s = yes 1 (cutQ k)) ∧
    (64 ≤ k → exec (.sclose g p ra) s = no 1 ∧ exec (.scloseCancel g p ra) s = no 1) ∧
    (8 ≤ k → exec (.scloseQueue g p ra) s = no 1)

/-- R167, R181: SBAR and QFENCE place one entry in every queue of the mask, all or none: p[D] is false for an empty
mask or when a named queue is full, and nothing is placed. Entries that hold nothing back leave at once. -/
def Sys2Proof.Statements.QueueFences : Prop :=
  ∀ (s : State) (r pg : Nat) (rg : Region) (q : Seq) (g : Guard) (p : PReg) (ra : Reg) (mask : BitVec 8) (sc : Scope),
    Able s r pg rg q g [ra] →
    let bad := fun (m : BitVec 8) => m = 0 ∨ ((List.range 8).zip rg.eqs).any (fun e =>
      m.getLsbD e.1 && decide (32 ≤ e.2.entries.length)) = true
    let no := fun (n : Nat) => Host.Outcome.next (s.setSeq r pg ((past q n).setP p false))
    let yes := fun (n : Nat) (m : BitVec 8) (f : EqEntry) => Host.Outcome.next
      ((({ (runAt s r pg rg q n).s with nextId := s.nextId + 1 } : State).updRg r (fun x =>
        ({ x with eqs := ((List.range 8).zip x.eqs).map (fun e =>
          if m.getLsbD e.1 then { e.2 with entries := e.2.entries ++ [f] } else e.2) } : Region).popFences)).setSeq
        r pg ((past q n).setP p true))
    let m1 := (q.getG ra).setWidth 8
    (bad m1 → exec (.sbar g p ra) s = no 1 ∧ exec (.qfence g sc p ra) s = no 1) ∧
    (bad mask → exec (.sbarSi g p mask) s = no 2 ∧ exec (.qfenceSi g sc p mask) s = no 2) ∧
    (¬ bad m1 → exec (.sbar g p ra) s = yes 1 m1 (.sbar s.nextId m1) ∧
      exec (.qfence g sc p ra) s = yes 1 m1 (.qfence s.nextId m1 sc)) ∧
    (¬ bad mask → exec (.sbarSi g p mask) s = yes 2 mask (.sbar s.nextId mask) ∧
      exec (.qfenceSi g sc p mask) s = yes 2 mask (.qfence s.nextId mask sc))

/-- R168: SSTAT reads DONE, ISSUED, the status, counters and detach mask of the queue's command that completed last (0
when none has), or the number of commands in the queue; a reserved field gives 2^63 + 3. It changes only g[D]. -/
def Sys2Proof.Statements.QueueStatus : Prop :=
  ∀ (s : State) (r pg : Nat) (rg : Region) (q : Seq) (g : Guard) (d ra : Reg) (eq : BitVec 3) (f : BitVec 5),
    Able s r pg rg q g [ra] →
    let val := fun (x : EngQueue) (k : Nat) =>
      let last := fun (y : Cmd → Nat) => (x.last.map y).getD 0
      BitVec.ofNat 64 (if k = 0 then x.done else if k = 1 then x.next - 1 else if k = 2 then last (·.status)
        else if k = 3 then last (·.elems) else if k = 4 then last (·.bytes) else if k = 5 then last (·.trans)
        else if k = 6 then last (·.xcross) else if k = 7 then last (·.drop) else if k = 8 then last (·.oob)
        else if k = 9 then last (·.detmask.toNat) else if k = 10 then x.entries.length else 2 ^ 63 + 3)
    let n := (q.getG ra).toNat
    exec (.sstat g d ra) s = .next (s.setSeq r pg ((past q 1).setG d (val (rg.eq (n % 8)) (n / 8 % 32)))) ∧
    exec (.sstatSi g d eq f) s = .next (s.setSeq r pg ((past q 2).setG d (val (rg.eq eq.toNat) f.toNat)))

/-- R177: PIN, UNPIN, PREF and FLUSH of an empty range give 0, of a range above the limits 2^63 + 3. PIN adds a pin of
the context to each mapped local block of the range and gives their number, or, when the quota, a block's count or a
slice's share would be exceeded, 2^63 + 4 and no pin (one pin for each physical block, however often the range maps it: the
model's choice, notes/assumptions/51.md); UNPIN removes one pin from each block that has one of the
context; PREF and FLUSH enter a queue. -/
def Obligations.PlayaPlacement : Prop :=
  ∀ (s : State) (r pg : Nat) (rg : Region) (q : Seq) (g : Guard) (k : BitVec 3) (d ra rb : Reg) (imm : Imm),
    Able s r pg rg q g [ra, rb] →
    let base := q.getG ra
    let out := fun (n : Nat) (x : W64) => Host.Outcome.next (s.setSeq r pg ((past q n).setG d x))
    ∀ (n : Nat) (len : W64) (ipin iunpin ipref iflush : Instr),
      (n = 1 ∧ len = q.getG rb ∧ ipin = .pin g d ra rb ∧ iunpin = .unpin g d ra rb ∧ ipref = .pref g k d ra rb ∧
        iflush = .flush g k d ra rb) ∨
      (n = 2 ∧ len = imm.setWidth 64 ∧ ipin = .pinSi g d ra imm ∧ iunpin = .unpinSi g d ra imm ∧
        ipref = .prefSi g k d ra imm ∧ iflush = .flushSi g k d ra imm) →
      let v := runAt s r pg rg q n
      let lim := 2 ^ 40 < len.toNat ∨ 2 ^ 56 < base.toNat + len.toNat
      let b := base.toNat / 4096
      let cnt := (base.toNat + len.toNat + 4095) / 4096 - b
      let queued := fun (op : EngOp) => Host.Outcome.next ((v.drained.s.updRg r (fun x => x.setEq k.toNat { x.eq k.toNat with
        next := (x.eq k.toNat).next + 1
        entries := (x.eq k.toNat).entries ++
          [.cmd { op := op, seq := (rg.eq k.toNat).next, desc := [0, base, len], page := pg, since := x.bankStamp }] })).setSeq
        r pg (({ past q n with stores := [] } : Seq).setG d (BitVec.ofNat 64 (rg.eq k.toNat).next)))
      (len = 0 → ∀ i ∈ [ipin, iunpin, ipref, iflush], exec i s = out n 0) ∧
      (len ≠ 0 → lim → ∀ i ∈ [ipin, iunpin, ipref, iflush], exec i s = out n (BitVec.ofNat 64 (2 ^ 63 + 3))) ∧
      (len ≠ 0 → ¬ lim → 32 ≤ (rg.eq k.toNat).entries.length →
        ∀ i ∈ [ipref, iflush], exec i s = out n (BitVec.ofNat 64 (2 ^ 63 + 1))) ∧
      (len ≠ 0 → ¬ lim → (rg.eq k.toNat).entries.length < 32 → exec ipref s = queued .pref ∧ exec iflush s = queued .flush) ∧
      (len ≠ 0 → ¬ lim → ∀ l0, v.physBlocks b cnt = .ok l0 →
        let l := l0.eraseDups
        let m := l.foldl (fun m x => addPin m x rg.ctx) s.pins
        let tooMany := ((s.ctx? rg.ctx).map (·.pinq)).getD 0 < pinsOf m rg.ctx ∨
          (∃ x ∈ l, 255 < pinCount (m.get x [])) ∨ slicesOk m = false
        (tooMany → exec ipin s = out n (BitVec.ofNat 64 (2 ^ 63 + 4))) ∧
        (¬ tooMany → exec ipin s = .next (({ v.s with pins := m } : State).setSeq r pg
          ((past q n).setG d (BitVec.ofNat 64 l.length)))) ∧
        let u := l.foldl (fun (e : Assoc (Assoc Nat) × Nat) x =>
          if (e.1.get x []).get rg.ctx 0 = 0 then e else (dropPin e.1 x rg.ctx, e.2 + 1)) (s.pins, 0)
        exec iunpin s = .next (({ v.s with pins := u.1 } : State).setSeq r pg
          ((past q n).setG d (BitVec.ofNat 64 u.2))))

/-- R179, R182: the indivisible steps on a local dword. CHAINT stores g[S2] and is true exactly when the dword is HOLD
(1). BARINIT is true and sets CNT when the count is 1 to 65,535 and ARR is 0. BARARR gives the phase before the arrival
and adds one to ARR, or, at the last arrival, clears ARR and adds one to PHASE; an object with CNT 0 gives 2^63 + 6.
BARTEST is true when the object's phase has passed g[S2], and then acquires every arrival of that phase (R402) with the
tag of the object's sector. CHAINT is a release whether it writes or not, and BARARR one when it arrives (R317, R401). -/
def Obligations.BarrierObjects : Prop :=
  ∀ (s : State) (r pg : Nat) (rg : Region) (q : Seq) (g : Guard) (p : PReg) (d ra rb : Reg) (imm : Imm),
    Able s r pg rg q g [ra, rb] →
    ∀ (n : Nat) (xt x a aa : W64) (it ii ia ib : Instr),
      (n = 1 ∧ xt = q.getG rb ∧ x = q.getG rb ∧ a = q.getG ra ∧ aa = q.getG ra ∧ it = .chaint g p ra rb ∧
        ii = .barinit g p ra rb ∧ ia = .bararr g d ra ∧ ib = .bartest g p ra rb) ∨
      (n = 2 ∧ xt = imm.signExtend 64 ∧ x = imm.setWidth 64 ∧ a = q.getG ra ∧ aa = q.getG ra + imm.signExtend 64 ∧
        it = .chaintSi g p ra imm ∧ ii = .barinitSi g p ra imm ∧ ia = .bararrSi g d ra imm ∧ ib = .bartestSi g p ra imm) →
      let v := (runAt s r pg rg q n).drained
      let q1 : Seq := { past q n with stores := [] }
      let kept := fun (va : W64) (y : Seq) => Host.Outcome.next ((v.cached va).setSeq r pg y)
      let put := fun (t : State) (pa new : Nat) => t.write (t.keyOf rg.ctx) pa (leBytes 8 new)
      let rel := fun (t : State) (pa new : Nat) =>
        let t := put ((t.bump r).settleSec r (sectorOf pa)) pa new
        t.setTag (sectorOf pa) (t.tagOf r)
      (∀ (pa : Nat) (l : List Byte), v.bytes a pa 8 = .ok l →
        let old := leNat l
        let arr := old / 2 ^ 48
        let phase := old % 2 ^ 32
        (v.target a 8 .atomic = .ok (.loc pa false) →
          (old = 1 → exec it s = .next ((rel (v.cached a) pa xt.toNat).setSeq r pg (q1.setP p true))) ∧
          (old ≠ 1 → exec it s = .next (((v.cached a).bump r).setSeq r pg (q1.setP p false))) ∧
          (x = 0 ∨ 65535 < x.toNat ∨ arr ≠ 0 → exec ii s = kept a (q1.setP p false)) ∧
          (0 < x.toNat → x.toNat ≤ 65535 → arr = 0 →
            exec ii s = .next ((put (v.cached a) pa (x.toNat * 2 ^ 32 + phase)).setSeq r pg (q1.setP p true)))) ∧
        (v.target a 8 .read = .ok (.loc pa false) →
          let gap := (phase + 2 ^ 32 - x.toNat % 2 ^ 32) % 2 ^ 32
          (1 ≤ gap ∧ gap < 2 ^ 31 → exec ib s = .next
            ((((v.s.sideAt (sectorOf pa)).tag :: v.s.arrived pa x).foldl (fun t tag => t.acquire r tag) (v.cached a)).setSeq r pg
              (q1.setP p true))) ∧
          (gap = 0 ∨ 2 ^ 31 ≤ gap → exec ib s = kept a (q1.setP p false)))) ∧
      (∀ (pa : Nat) (l : List Byte), v.bytes aa pa 8 = .ok l → v.target aa 8 .atomic = .ok (.loc pa false) →
        let old := leNat l
        let arr := old / 2 ^ 48
        let cnt := old / 2 ^ 32 % 2 ^ 16
        let phase := old % 2 ^ 32
        let here := (v.cached aa).arrive pa (BitVec.ofNat 64 old) (((v.cached aa).bump r).tagOf r)
        (cnt = 0 → exec ia s = kept aa (q1.setG d (BitVec.ofNat 64 (2 ^ 63 + 6)))) ∧
        (cnt ≠ 0 → (arr + 1) % 2 ^ 16 = cnt → exec ia s = .next
          ((rel here pa (cnt * 2 ^ 32 + (phase + 1) % 2 ^ 32)).setSeq r pg (q1.setG d (BitVec.ofNat 64 phase)))) ∧
        (cnt ≠ 0 → (arr + 1) % 2 ^ 16 ≠ cnt → exec ia s = .next
          ((rel here pa ((arr + 1) % 2 ^ 16 * 2 ^ 48 + old % 2 ^ 48)).setSeq r pg (q1.setG d (BitVec.ofNat 64 phase)))))

/-- R180: QPUSH of a record to an enabled device-mode queue of the context that has room appends it and gives the entry's
sequence number; a queue that is full, not the context's, or not enabled gives its code (the record is aligned and read before
these refusals; the push releases and the pop acquires as accesses of no tag; and the popped 64 bytes are RAW: the model's
choices, notes/assumptions/50.md). QPOP moves the head record
of a consuming queue to 64 bytes of memory, or is false; where they lie on a remote node it waits for the acknowledgement
(R319). QSEQ reads DONE or ISSUED. -/
def Obligations.HardwareQueues : Prop :=
  ∀ (s : State) (r pg : Nat) (rg : Region) (q : Seq) (g : Guard) (p : PReg) (d ra rb : Reg) (k : BitVec 13) (iss : Bool),
    Able s r pg rg q g [ra, rb] → (q.getG ra).toNat % 8192 = k.toNat →
    let a := q.getG rb
    let no := fun (n c : Nat) => Host.Outcome.next (((runAt s r pg rg q n).drained).s.setSeq r pg
      (({ past q n with stores := [] } : Seq).setG d (BitVec.ofNat 64 (2 ^ 63 + c))))
    ∀ (n : Nat) (ipush ipop iseq : Instr),
      (n = 1 ∧ ipush = .qpush g d ra rb ∧ ipop = .qpop g p ra rb ∧ iseq = .qseq g iss d ra) ∨
      (n = 2 ∧ ipush = .qpushSi g d rb k ∧ ipop = .qpopSi g p rb k ∧ iseq = .qseqSi g iss d k) →
      let v := (runAt s r pg rg q n).drained
      let q1 : Seq := { past q n with stores := [] }
      (a.toNat % 64 ≠ 0 → q.inh = false →
        exec ipush s = .next (s.setSeq r pg (q.enter q.pc { cause := 2, eaddr := a })) ∧
        exec ipop s = .next (s.setSeq r pg (q.enter q.pc { cause := 2, eaddr := a }))) ∧
      (∀ l, a.toNat % 64 = 0 → v.readDws a 8 = .ok l →
        (v.ownQueue k.toNat = none → exec ipush s = no n 5) ∧
        (∀ x, v.ownQueue k.toNat = some x →
          (x.dev = false → exec ipush s = no n 5) ∧
          (x.dev = true → x.st ≠ .enabled → exec ipush s = no n 6) ∧
          (x.dev = true → x.st = .enabled → v.s.push k.toNat l = none → exec ipush s = no n 4) ∧
          (∀ t c, x.dev = true → x.st = .enabled → v.s.push k.toNat l = some (t, c) →
            exec ipush s = .next ((t.bump r).setSeq r pg (q1.setG d c))))) ∧
      (∀ pa u l t, a.toNat % 64 = 0 → v.target a 64 .write = .ok (.loc pa u) →
        (v.ownQueue k.toNat = none ∨ v.s.takeRec k.toNat = none →
          exec ipop s = .next (v.s.setSeq r pg (q1.setP p false))) ∧
        ((v.ownQueue k.toNat).isSome = true → v.s.takeRec k.toNat = some (l, t) →
          let y := (t.acquireAll r).cache rg.core rg.ctx a
          exec ipop s = .next (((y.write (y.keyOf rg.ctx) pa ((dwBytes l).take 64)).setFmt (sectorOf pa) 0 0 0).setSeq r pg
            (q1.setP p true)))) ∧
      (∀ rn ch rod ad u l t, a.toNat % 64 = 0 → v.target a 64 .write = .ok (.rem rn ch rod ad u) →
        (v.ownQueue k.toNat).isSome = true → v.s.takeRec k.toNat = some (l, t) →
        ∃ y id x, exec ipop s = .next y ∧ y.remotes.find id = some x ∧ x.kind = .st ∧ x.rnode = rn ∧ x.addr = ad ∧
          x.bytes = (dwBytes l).take 64 ∧ y.seq? r pg = some { q1 with pc := q.pc, wait := some (.qpop id p n) }) ∧
      ((runAt s r pg rg q n).ownQueue k.toNat = none →
        exec iseq s = .next (s.setSeq r pg ((past q n).setG d (BitVec.ofNat 64 (2 ^ 63 + 5))))) ∧
      (∀ x, (runAt s r pg rg q n).ownQueue k.toNat = some x →
        exec iseq s = .next (s.setSeq r pg ((past q n).setG d (if iss then x.issued else x.done))))

/-- R167, R168, R181: fences across engine queues, and what SSTAT reads. -/
def Obligations.QueueFencesAndStatus : Prop :=
  Statements.QueueFences ∧ Statements.QueueStatus

/-! ### The Erg queue -/

/-- R279, R283, R284: an Erg instruction of the core's owner is accepted while fewer than 32 commands wait: g[D] takes the
queue's next number at once, whatever the array is doing, and the command stands last in the queue. An issuer that does not own the
array is refused with 5, a full queue with 1, and a refused command changes no other state. -/
def Obligations.ErgIssue : Prop :=
  ∀ (s : State) (r pg : Nat) (rg : Region) (q : Seq) (g : Guard) (d ra rb : Reg) (imm : Imm) (w t : BitVec 2)
    (first cm1 : BitVec 12),
    Able s r pg rg q g [ra, rb] →
    let a1 := q.getG ra
    let a2 := q.getG ra + imm.signExtend 64
    let no := fun (n c : Nat) => Host.Outcome.next (s.setSeq r pg ((past q n).setG d (BitVec.ofNat 64 (2 ^ 63 + c))))
    let yes := fun (n : Nat) (op : ErgOp) (desc : List W64) => Host.Outcome.next
      (((runAt s r pg rg q n).drained.s.updRg r (fun x => { x with ergq := {
        next := rg.ergq.next + 1
        entries := x.ergq.entries ++ [{ op := op, seq := rg.ergq.next, desc := desc, page := pg }] } })).setSeq r pg
        (({ past q n with stores := [] } : Seq).setG d (BitVec.ofNat 64 rg.ergq.next)))
    let put := fun (i : Instr) (n : Nat) (op : ErgOp) (desc : List W64) =>
      (rg.ergq.entries.length < 32 → exec i s = yes n op desc) ∧ (32 ≤ rg.ergq.entries.length → exec i s = no n 1)
    let x := a1.toNat
    let y := first.toNat + cm1.toNat + 1
    ((s.setSeq r pg (past q 1)).ownsErg r rg = false → (s.setSeq r pg (past q 2)).ownsErg r rg = false →
      (∀ i ∈ [Instr.eload g d ra, .ewire g d ra, .ethr g d ra, .exf g d ra, .epop g d ra, .exb g d ra, .esel g d ra,
        .eeval g d ra rb], exec i s = no 1 5) ∧
      (∀ i ∈ [Instr.eloadSi g d ra imm, .ewireSi g d ra imm, .ethrSi g d ra imm, .exfSi g d ra imm, .epopSi g d ra imm,
        .exbSi g d ra imm, .eselSi g d w t, .eevalSi g d first cm1], exec i s = no 2 5)) ∧
    ((s.setSeq r pg (past q 1)).ownsErg r rg = true → (s.setSeq r pg (past q 2)).ownsErg r rg = true →
      (∀ e ∈ ([(.eload, 4, 1, a1, .eload g d ra), (.eload, 4, 2, a2, .eloadSi g d ra imm),
          (.ewire, 4, 1, a1, .ewire g d ra), (.ewire, 4, 2, a2, .ewireSi g d ra imm),
          (.ethr, 5, 1, a1, .ethr g d ra), (.ethr, 5, 2, a2, .ethrSi g d ra imm),
          (.exf, 4, 1, a1, .exf g d ra), (.exf, 4, 2, a2, .exfSi g d ra imm),
          (.epop, 4, 1, a1, .epop g d ra), (.epop, 4, 2, a2, .epopSi g d ra imm),
          (.exb, 4, 1, a1, .exb g d ra), (.exb, 4, 2, a2, .exbSi g d ra imm)] : List (ErgOp × Nat × Nat × W64 × Instr)),
        let (op, dlen, n, a, i) := e
        ∀ h desc, (runAt s r pg rg q n).readDws a 1 = .ok [h] →
          h.toNat % 256 = dlen → h.toNat / 4096 % 16 = 0 → h.toNat / 2 ^ 48 = 0 →
          (runAt s r pg rg q n).readDws a dlen = .ok desc →
          (ergCode op rg.pm1 desc = 0 → put i n op desc) ∧
          (ergCode op rg.pm1 desc ≠ 0 → exec i s = no n (ergCode op rg.pm1 desc))) ∧
      put (.esel g d ra) 1 .esel [BitVec.ofNat 64 (x % 4), BitVec.ofNat 64 (x / 4 % 4)] ∧
      put (.eselSi g d w t) 2 .esel [w.setWidth 64, t.setWidth 64] ∧
      (4096 < x % 4096 + x / 4096 % 4096 + 1 → exec (.eeval g d ra rb) s = no 1 3) ∧
      (x % 4096 + x / 4096 % 4096 + 1 ≤ 4096 → put (.eeval g d ra rb) 1 .eeval [BitVec.ofNat 64 (x % 4096),
        BitVec.ofNat 64 (x / 4096 % 4096 + 1), BitVec.ofNat 64 (x / 2 ^ 24 % 64 + 1),
        BitVec.ofNat 64 ((q.getG rb).toNat % 8192)]) ∧
      (4096 < y → exec (.eevalSi g d first cm1) s = no 2 3) ∧
      (y ≤ 4096 → put (.eevalSi g d first cm1) 2 .eeval [BitVec.ofNat 64 first.toNat, BitVec.ofNat 64 (cm1.toNat + 1), 1, 0]))

/-! ### Barchan tasks -/

/-- R310, R311: SPAWN by the lead writes SFAIL with the first cause that holds and is false, changing nothing else, or
creates a Pending child that stands last in the epoch with the descriptor's KDESC and ARG and is true (KDESC is read for VB
only once the other tests of cause 6 have passed; that the issuer's count C advances, and cause 3 where no place for a view is
found, are the model's choices, notes/assumptions/76.md). VDECL refuses a non-lead (5), an open epoch (6) and a bad descriptor
(2), then a number in use (3), then the lack of an entry or of a page (4), and else binds the view to the number it returns;
the core of an operator's page wakes (R455). The order among VDECL's refusals, and the page, sought over all cores, are the
model's choices (notes/assumptions/75.md). -/
def Obligations.SpawnAndDeclare : Prop :=
  ∀ (s : State) (r pg : Nat) (rg : Region) (q : Seq) (g : Guard) (p : PReg) (d ra rb : Reg) (imm : Imm) (vid : BitVec 4),
    Able s r pg rg q g [ra, rb] →
    let t := rg.task
    (∀ (n : Nat) (a : W64) (i : Instr), (n = 1 ∧ a = q.getG ra ∧ i = .spawn g p ra) ∨
        (n = 2 ∧ a = q.getG ra + imm.signExtend 64 ∧ i = .spawnSi g p ra imm) →
      ∀ (k arg w2 w3 : W64), (runAt s r pg rg q n).readDws a 4 = .ok [k, arg, w2, w3] →
        let v := (runAt s r pg rg q n).drained
        let q1 : Seq := { past q n with stores := [] }
        let fail := fun (f : Nat) => exec i s = .next
          ((v.s.updRg r (fun x => { x with task := { x.task with sfail := f } })).setSeq r pg (q1.setP p false))
        let bad0 := namedViews t (w2.toNat / 2 ^ 48) = none ∨ pg ≠ 0 ∨ w2.toNat / 2 ^ 24 % 2 ^ 24 ≠ 0 ∨ w3 ≠ 0
        let quota := ((v.s.ctx? rg.ctx).map (·.spq)).getD 0
        (bad0 → fail 6) ∧
        ∀ vb : Bool, ¬ bad0 → v.vbankBad [k, arg, w2, w3] = .ok vb →
        let bad := vb = true
        (bad → fail 6) ∧
        (¬ bad → t.epoch.fm ≠ .none → fail 4) ∧
        (¬ bad → t.epoch.fm = .none → 4096 ≤ t.epoch.children.length ∨ 63 ≤ t.depth → fail 5) ∧
        (¬ bad → t.epoch.fm = .none → t.epoch.children.length < 4096 → t.depth < 63 →
          (256 ≤ v.s.pendingOn rg.core none → fail 1) ∧
          (v.s.pendingOn rg.core none < 256 → quota ≤ v.s.pendingOn rg.core (some rg.ctx) → fail 2) ∧
          (v.s.pendingOn rg.core none < 256 → v.s.pendingOn rg.core (some rg.ctx) < quota → ∀ vs,
            namedViews t (w2.toNat / 2 ^ 48) = some vs →
            let need := vs.length + (vs.filter (fun (e : Nat × View) => (t.epoch.accs.find e.1).isNone)).length
            let made := makeViews v.s rg (w2.getLsbD 23) (w2.toNat % 2 ^ 23) vs
            (1024 < v.s.entriesOf rg.core + need → fail 3) ∧
            (v.s.entriesOf rg.core + need ≤ 1024 → made = none → fail 3) ∧
            (v.s.entriesOf rg.core + need ≤ 1024 → ∀ m, made = some m →
              exec i s = .next (((m.s.updRg r (fun x => { x with task := { x.task with
                sfail := 0
                epoch := { x.task.epoch with
                  children := x.task.epoch.children ++ [{ tid := m.s.freshTid rg.ctx, kdesc := k, arg := arg
                                                          views := m.views, core := rg.core }]
                  accs := m.accs.foldl (fun (l : Assoc View) (y : Nat × View) => l.put y.1 y.2) x.task.epoch.accs } } })).bump
                r).setSeq r pg (q1.setP p true)))))) ∧
    (∀ (n : Nat) (num : Option Nat) (i : Instr), (n = 1 ∧ num = none ∧ i = .vdecl g d ra rb) ∨
        (n = 2 ∧ num = some vid.toNat ∧ i = .vdeclSi g d ra rb vid) →
      let v := runAt s r pg rg q n
      let a := q.getG ra
      let tile := q.getG rb
      let no := fun (c : Nat) => exec i s = .next (s.setSeq r pg ((past q n).setG d (BitVec.ofNat 64 (2 ^ 63 + c))))
      let used := fun (x : Nat) => (t.views.find x).isSome = true
      (pg ≠ 0 → no 5) ∧
      (pg = 0 → t.epoch.children ≠ [] ∨ t.epoch.fm ≠ .none → no 6) ∧
      (pg = 0 → t.epoch.children = [] → t.epoch.fm = .none → a.toNat % 8 ≠ 0 → no 2) ∧
      (pg = 0 → t.epoch.children = [] → t.epoch.fm = .none → a.toNat % 8 = 0 → ∀ l, v.readDws a 4 = .ok l →
        let op := (l.head?.getD 0).toNat / 2 ^ 48 % 16
        let bind := fun (u : State) (x : Nat) (w : View) => exec i s = .next ((u.updRg r (fun z =>
          { z with task := { z.task with views := z.task.views.put x w } })).setSeq r pg
            ((past q n).setG d (BitVec.ofNat 64 x)))
        let quota := ((v.s.ctx? rg.ctx).map (·.pageq)).getD 0
        (viewDescBad l = true ∨ v.vdeclDesc l tile = true → no 2) ∧
        (∀ blk : Option Block, viewDescBad l = false → v.vdeclDesc l tile = false →
          (op ≠ 13 ∧ blk = none) ∨ (op = 13 ∧ v.operator ((l.getD 0 0).toNat / 2 ^ 40 % 256) (l.getD 2 0) = .ok blk) →
          let new : View :=
            { d0 := l.getD 0 0, ident := l.getD 1 0, cblk := l.getD 2 0
              loc := if op = 12 then .fibre tile else .flat tile, oper := blk }
          (op = 13 → blk = none → no 2) ∧
          (op ≠ 13 ∨ blk ≠ none →
            ((∃ x, num = some x ∧ used x) ∨ (num = none ∧ ∀ x < 16, used x) → no 3) ∧
            (∀ x, (num = some x ∧ ¬ used x) ∨ (num = none ∧ x < 16 ∧ ¬ used x ∧ ∀ y < x, used y) →
              (1024 ≤ v.s.entriesOf rg.core → no 4) ∧
              (v.s.entriesOf rg.core < 1024 → op ≠ 13 → bind v.s x new) ∧
              (v.s.entriesOf rg.core < 1024 → op = 13 →
                (quota ≤ v.s.pagesOf rg.ctx ∨ v.s.bestRun (List.range coreCount) 1 = none → no 4) ∧
                (∀ c k, v.s.pagesOf rg.ctx < quota → v.s.bestRun (List.range coreCount) 1 = some (c, k) →
                  bind ((v.s.setPage c k { v.s.page c k with
                    st := .reserved, ctx := rg.ctx, member := rg.member, first := rg.first, pm1 := rg.pm1
                    ctr := (v.s.page rg.core rg.first).ctr, rid := some r }).wakeCore c) x
                    { new with page := some (c, k) })))))))

/-- R312: TEND, TEND.CHILD, TSYNC, TSYNC.TAKE and TRESUME, with p[D] or g[D] as their rule gives them; the refused ones
change nothing but the result. A retried merge joins no outstanding fault record of before (R441), which goes on for those
that still wait on it. TSYNC.TAKE fills the child's bank views in the parent's own banks (the model's choice,
notes/assumptions/78.md), and TEND.CHILD waits for remote accesses by executing again (notes/assumptions/82.md). -/
def Obligations.TaskControl : Prop :=
  ∀ (s : State) (r pg : Nat) (rg : Region) (q : Seq) (g : Guard) (p : PReg) (d ra : Reg), Able s r pg rg q g [ra] →
    let v := (runAt s r pg rg q 1).drained
    let q1 : Seq := { past q 1 with stores := [] }
    let e := rg.task.epoch
    let i := (q.getG ra).toNat
    let res := fun (t : State) (b : Bool) => Host.Outcome.next (t.setSeq r pg (q1.setP p b))
    let setFlag := v.s.updRg r (fun x => { x with task := { x.task with ended := x.task.ended || x.task.parent.isSome } })
    (pg ≠ 0 ∨ e.children ≠ [] ∨ e.fm ≠ .none → exec (.tend g p) s = res v.s false) ∧
    (pg = 0 → e.children = [] → e.fm = .none → exec (.tend g p) s = res setFlag true) ∧
    (pg ≠ 0 ∨ (∀ c, e.children[i]? = some c → c.st ≠ .taken) → exec (.tendChild g p ra) s = res v.s false) ∧
    (∀ c, pg = 0 → e.children[i]? = some c → c.st = .taken →
      (q.remotes = [] → exec (.tendChild g p ra) s = res (v.s.updChild r i (fun c => { c with st := .ended })) true) ∧
      (q.remotes ≠ [] → exec (.tendChild g p ra) s =
        .next (v.s.setSeq r pg { q1 with pc := q.pc, wait := some (.fenceSys q.remotes) }))) ∧
    (pg ≠ 0 ∨ e.fm ≠ .none → exec (.tsync g p) s = res v.s false) ∧
    (pg = 0 → e.fm = .none → e.children = [] → exec (.tsync g p) s = res (v.s.acquireAll r) true) ∧
    (pg = 0 → e.fm = .none → (∃ c ∈ e.children, c.st ≠ .merged ∧ c.st ≠ .discarded) →
      exec (.tsync g p) s = res v.s false) ∧
    (pg = 0 → e.fm = .none → e.children ≠ [] → (∀ c ∈ e.children, c.st = .merged ∨ c.st = .discarded) →
      exec (.tsync g p) s = res (v.s.updRg r (fun x => x.setEpoch { x.task.epoch with fm := .running })) false) ∧
    (pg ≠ 0 ∨ (∀ c ∈ e.children, c.st ≠ .pending) →
      exec (.tsyncTake g d) s = .next (v.s.setSeq r pg (q1.setG d (BitVec.ofNat 64 (2 ^ 63 + 6))))) ∧
    (∀ k c, pg = 0 → e.children[k]? = some c → c.st = .pending →
      (∀ j x, k < j → e.children[j]? = some x → x.st ≠ .pending) →
      exec (.tsyncTake g d) s = .next (((v.s.updChild r k (fun c => { c with st := .taken })).updRg r (fun x =>
        c.views.foldl (fun (x : Region) (w : Nat × View) => x.fillBank w.2) x)).setSeq r pg
        (q1.setG d (BitVec.ofNat 64 k)))) ∧
    (v.s.faultedMerge rg.ctx (q.getG ra) = none →
      exec (.tresume g p ra) s = res v.s false ∧ exec (.tresumeSkip g p ra) s = res v.s false) ∧
    (∀ k x m, v.s.faultedMerge rg.ctx (q.getG ra) = some (k, x, m) →
      let go := fun (skip : Bool) =>
        let t := v.s.updRg k (fun y => y.resumeMerge m skip)
        match m.rec_ with
        | none => t
        | some id => if t.waitsOn id then
            { t with faults := t.faults.upd id (fun f => { f with left := f.left ++ [waiterOf k .merge { cause := 3 }] }) }
          else { t with faults := t.faults.del id }
      exec (.tresume g p ra) s = res (go false) true ∧ exec (.tresumeSkip g p ra) s = res (go true) true)

/-- R313: TINFO reads a field of the issuer's task, and TINFO.CH of a child of its epoch, where an index that is no
child's gives 2^63 + 6 and SFAIL or a reserved field 2^63 + 3; only g[D] changes. -/
def Obligations.TaskInformation : Prop :=
  ∀ (s : State) (r pg : Nat) (rg : Region) (q : Seq) (g : Guard) (d ra rb : Reg) (f : BitVec 5) (w : BitVec 4),
    Able s r pg rg q g [ra, rb] →
    let out := fun (n x : Nat) => Host.Outcome.next (s.setSeq r pg ((past q n).setG d (BitVec.ofNat 64 x)))
    let t := rg.task
    let vstat := fun (l : Assoc View) (bad : Option Nat) (k : Nat) =>
      ((l.find k).map (fun (x : View) => x.status.toNat + (if bad = some k then 32 else 0))).getD 0
    let vaddr := fun (l : Assoc View) (k : Nat) => ((l.find k).map (fun (x : View) => match x.loc with
      | .flat a => a.toNat
      | .fibre a => a.toNat
      | .bank a => 2 ^ 62 + a)).getD 0
    let own := fun (x k : Nat) => match x with
      | 0 => t.tid
      | 1 => (t.parent.map (·.2)).getD (2 ^ 63 + 6)
      | 2 => t.ptid
      | 3 => t.depth
      | 4 => t.epoch.children.length
      | 5 => (t.epoch.children.filter (fun c => c.st = .merged || c.st = .discarded)).length
      | 6 => if t.parent.isSome then t.arg.toNat else 0
      | 7 => vaddr t.views k
      | 8 => vstat t.views t.badView k
      | 9 => t.sfail
      | 10 => 1
      | 11 => t.midx
      | _ => 2 ^ 63 + 3
    let x := (q.getG rb).toNat % 32
    let k := (q.getG rb).toNat / 32 % 16
    exec (.tinfo g d rb) s = out 1 (own x k) ∧
    exec (.tinfoSi g d f w) s = out 2 (own f.toNat w.toNat) ∧
    ∀ (n a b : Nat) (i : Instr), (n = 1 ∧ a = x ∧ b = k ∧ i = .tinfoCh g d ra rb) ∨
        (n = 2 ∧ a = f.toNat ∧ b = w.toNat ∧ i = .tinfoChSi g d ra f w) →
      (a = 9 ∨ 12 ≤ a → exec i s = out n (2 ^ 63 + 3)) ∧
      (a ≠ 9 → a < 12 → t.epoch.children.length ≤ (q.getG ra).toNat → exec i s = out n (2 ^ 63 + 6)) ∧
      (a ≠ 9 → a < 12 → ∀ c, t.epoch.children[(q.getG ra).toNat]? = some c →
        let field := fun (ep : Epoch) (views : Assoc View) (bad : Option Nat) (midx : Nat) => exec i s = out n (match a with
          | 0 => c.tid
          | 1 => (q.getG ra).toNat
          | 2 => t.tid
          | 3 => t.depth + 1
          | 4 => ep.children.length
          | 5 => (ep.children.filter (fun y => y.st = .merged || y.st = .discarded)).length
          | 6 => c.arg.toNat
          | 7 => vaddr views b
          | 8 => vstat views bad b
          | 10 => match c.st with
            | .pending => 0 | .running => 1 | .ended => 2 | .merging => 3 | .faulted => 4 | .merged => 5 | .taken => 6
            | .discarded => 7
          | _ => midx)
        (c.st ≠ .running → field {} c.views none c.midx) ∧
        (∀ k y, c.st = .running → c.rid = some k → (runAt s r pg rg q n).s.rg? k = some y →
          field y.task.epoch (c.views.map (fun z => (z.1, (y.task.views.find z.1).getD z.2))) y.task.badView y.task.midx))

/-! ### Element nodes -/

/-- R190, R193, R196 to R199, R44, R45, R209: an element node that fires consumes one token from each required slot, raises the
status of its result and sends the result to every consumer, markers joined and IX from the first slot that has one; a
bubble among its tokens gives a bubble, a poisoned token a poisoned NaN or 0, and an invalid token reads as 0, marks the
result and raises INVALID. Each line of the lists gives one operation and its result; FMIN and FMAX raise only what flushing
their result does, INEXACT under FTZ (R44; that no other flag is theirs is the model's reading, notes/assumptions/121.md). -/
def Obligations.ElementNodes : Prop :=
  ∀ (s : State) (r b n : Nat) (v : NodeV) (d : Nd) (ts : List Token) (i : Instr),
    NodeSeat s r b n v d → Fires d d.req ts →
    let mr := BitVec.ofNat 4 (v.bits 12 4)
    let val := fun (l : List Token) (k : Nat) => (l.getD k {}).val.toNat
    let result := fun (f : Nd → Option Nd) (mr : BitVec 4) (F : List Token → Nat × Flags) =>
      let base : Token := { mks := orMks ts, ix := firstIx ts }
      let sent := fun (t : Token) (fl : Flags) =>
        exec i s = .next (firing d f (((d.consume d.req).raise fl).emitMr mr t))
      (ts.any (·.bub) = true → sent { base with bub := true } 0) ∧
      (ts.any (·.bub) = false → ts.any (·.psn) = true →
        sent { base with val := BitVec.ofNat 64 ((fmtNaN v.fmt).getD 0), psn := true } 0) ∧
      (ts.any (·.bub) = false → ts.any (·.psn) = false → ts.any (·.inv) = false →
        sent { base with val := BitVec.ofNat 64 (F ts).1 } (F ts).2) ∧
      (ts.any (·.bub) = false → ts.any (·.psn) = false → ts.any (·.inv) = true →
        let l := ts.map (fun t => if t.inv then { t with val := 0 } else t)
        sent { base with val := BitVec.ofNat 64 (F l).1, inv := true } ((F l).2 ||| fInvalid))
    let w := fmtWidth v.fmt
    (∀ e ∈ ([(⟨0x83, .addNode, .addNodeN64, .addNodeN96⟩, fun x y _ _ _ => x + y),
        (⟨0x84, .subNode, .subNodeN64, .subNodeN96⟩, fun x y _ _ _ => x - y),
        (⟨0x85, .mulNode, .mulNodeN64, .mulNodeN96⟩, fun x y _ _ _ => x * y),
        (⟨0x86, .mad, .madN64, .madN96⟩, fun x y z _ _ => x * y + z),
        (⟨0x87, .minNode, .minNodeN64, .minNodeN96⟩, fun x y _ _ _ => if y < x then y else x),
        (⟨0x88, .maxNode, .maxNodeN64, .maxNodeN96⟩, fun x y _ _ _ => if x < y then y else x),
        (⟨0x89, .absNode, .absNodeN64, .absNodeN96⟩, fun x _ _ _ _ => (x.natAbs : Int)),
        (⟨0x8A, .andNode, .andNodeN64, .andNodeN96⟩, fun _ _ _ p q => ((p &&& q : Nat) : Int)),
        (⟨0x8B, .orNode, .orNodeN64, .orNodeN96⟩, fun _ _ _ p q => ((p ||| q : Nat) : Int)),
        (⟨0x8C, .xorNode, .xorNodeN64, .xorNodeN96⟩, fun _ _ _ p q => ((p ^^^ q : Nat) : Int)),
        (⟨0x8D, .shlNode, .shlNodeN64, .shlNodeN96⟩, fun x _ _ _ q => x * ((2 ^ (q % w) : Nat) : Int)),
        (⟨0x8E, .shrNode, .shrNodeN64, .shrNodeN96⟩, fun _ _ _ p q => ((p / 2 ^ (q % w) : Nat) : Int)),
        (⟨0x8F, .sarNode, .sarNodeN64, .sarNodeN96⟩, fun x _ _ _ q => x / ((2 ^ (q % w) : Nat) : Int))] :
        List (Forms × (Int → Int → Int → Nat → Nat → Int))), e.1.here i v →
      result Nd.intNode mr (fun l => intFit v.fmt (v.flag 11) (e.2 (elemVal v.fmt (val l 0)) (elemVal v.fmt (val l 1))
        (elemVal v.fmt (val l 2)) (val l 0 % 2 ^ w) (val l 1 % 2 ^ w)))) ∧
    (Forms.here ⟨0x90, .cmpNode, .cmpNodeN64, .cmpNodeN96⟩ i v → result Nd.cmpNode mr (fun l =>
      (if intCond (v.bits 0 5) (d.fmtOf 0) (val l 0) (val l 1) then 1 else 0, 0))) ∧
    (Forms.here ⟨0x91, .selNode, .selNodeN64, .selNodeN96⟩ i v → result Nd.selNode mr (fun l =>
      ((if val l 0 % 256 = 0 then val l 2 else val l 1) % 2 ^ w, 0))) ∧
    (Forms.here ⟨0x92, .cvt, .cvtN64, .cvtN96⟩ i v → result Nd.cvtNode mr (fun l =>
      cvtOp (d.fmtOf 0) v.fmt d.mode (v.flag 5) v.anchor (val l 0) (l.getD 0 {}).s)) ∧
    (∀ e ∈ ([(⟨0x93, .fadd, .faddN64, .faddN96⟩, fun f m x y _ => flush f m.ftz (fAdd f m.rm x y)),
        (⟨0x94, .fmul, .fmulN64, .fmulN96⟩, fun f m x y _ => flush f m.ftz (fMul f m.rm x y)),
        (⟨0x95, .fma, .fmaN64, .fmaN96⟩, fun f m x y z => flush f m.ftz (fFma f m.rm x y z)),
        (⟨0x96, .fmin, .fminN64, .fminN96⟩, fun f m x y _ => flush f m.ftz ((convert (fMin x y) f 0 {} 0).1, 0)),
        (⟨0x97, .fmax, .fmaxN64, .fmaxN96⟩, fun f m x y _ => flush f m.ftz ((convert (fMax x y) f 0 {} 0).1, 0))] :
        List (Forms × (Nat → Mode → Val → Val → Val → Nat × Flags))), e.1.here i v →
      let m := d.mode
      result Nd.fltNode mr (fun l => e.2 v.fmt m (dazVal v.fmt m.daz (val l 0)) (dazVal v.fmt m.daz (val l 1))
        (dazVal v.fmt m.daz (val l 2)))) ∧
    (Forms.here ⟨0x98, .fcmp, .fcmpN64, .fcmpN96⟩ i v → result Nd.fcmpNode mr (fun l =>
      (if fltCond (v.bits 0 5) (d.fmtOf 0) d.mode.daz (val l 0) (val l 1) then 1 else 0, 0))) ∧
    (∀ e ∈ ([(⟨0x99, .frcp, .frcpN64, .frcpN96⟩, fRcp), (⟨0x9A, .frsq, .frsqN64, .frsqN96⟩, fRsq),
        (⟨0x9B, .fexp2, .fexp2N64, .fexp2N96⟩, fExp2), (⟨0x9C, .flog2, .flog2N64, .flog2N96⟩, fLog2)] :
        List (Forms × (Nat → Val → Nat × Flags))), e.1.here i v →
      let m := d.mode
      result Nd.specialNode mr (fun l => flush 0x18 m.ftz (e.2 m.rm (dazVal 0x18 m.daz (val l 0))))) ∧
    (Forms.here ⟨0xA9, .join, .joinN64, .joinN96⟩ i v → result Nd.join 0 (fun l =>
      (val l (v.bits 0 2) % 2 ^ w, 0)))

/-- `i` is an element node in one of its three forms, and `v` what it says of its node (04 R96 to R98). -/
def Sys2Proof.Statements.ElementForm (i : Instr) (v : NodeV) : Prop :=
  ∃ k ∈ ([⟨0x83, .addNode, .addNodeN64, .addNodeN96⟩, ⟨0x84, .subNode, .subNodeN64, .subNodeN96⟩,
   ⟨0x85, .mulNode, .mulNodeN64, .mulNodeN96⟩, ⟨0x86, .mad, .madN64, .madN96⟩,
   ⟨0x87, .minNode, .minNodeN64, .minNodeN96⟩, ⟨0x88, .maxNode, .maxNodeN64, .maxNodeN96⟩,
   ⟨0x89, .absNode, .absNodeN64, .absNodeN96⟩, ⟨0x8A, .andNode, .andNodeN64, .andNodeN96⟩,
   ⟨0x8B, .orNode, .orNodeN64, .orNodeN96⟩, ⟨0x8C, .xorNode, .xorNodeN64, .xorNodeN96⟩,
   ⟨0x8D, .shlNode, .shlNodeN64, .shlNodeN96⟩, ⟨0x8E, .shrNode, .shrNodeN64, .shrNodeN96⟩,
   ⟨0x8F, .sarNode, .sarNodeN64, .sarNodeN96⟩, ⟨0x90, .cmpNode, .cmpNodeN64, .cmpNodeN96⟩,
   ⟨0x91, .selNode, .selNodeN64, .selNodeN96⟩, ⟨0x92, .cvt, .cvtN64, .cvtN96⟩,
   ⟨0x93, .fadd, .faddN64, .faddN96⟩, ⟨0x94, .fmul, .fmulN64, .fmulN96⟩, ⟨0x95, .fma, .fmaN64, .fmaN96⟩,
   ⟨0x96, .fmin, .fminN64, .fminN96⟩, ⟨0x97, .fmax, .fmaxN64, .fmaxN96⟩, ⟨0x98, .fcmp, .fcmpN64, .fcmpN96⟩,
   ⟨0x99, .frcp, .frcpN64, .frcpN96⟩, ⟨0x9A, .frsq, .frsqN64, .frsqN96⟩, ⟨0x9B, .fexp2, .fexp2N64, .fexp2N96⟩,
   ⟨0x9C, .flog2, .flog2N64, .flog2N96⟩, ⟨0xA9, .join, .joinN64, .joinN96⟩] : List Forms), k.here i v

/-- R186, R187, R189, R190: COMPLETION AND FRAME of ADD, SUB, MUL, MAD, MIN, MAX, ABS, AND, OR, XOR, SHL, SHR, SAR, CMP, SEL,
CVT, FADD, FMUL, FMA, FMIN, FMAX, FCMP, FRCP, FRSQ, FEXP2, FLOG2 and JOIN, each in its forms of one, two and three words:
wherever the node's required slots hold tokens and its consumer edges have room, whatever the tokens hold, the
instruction answers a next state, in which the node has gone past at least the position it fired at. Where the block
does not trap on surplus tokens, it changes nothing but its own region's nodes and edges, the status bits of ACS, the
count of lost markers, and what the stall sweep and the dune's round keep: memory byte by byte, the sequencers, the
accumulators and every other region stay. -/
def Obligations.ElementNodesComplete : Prop :=
  ∀ (s : State) (r b n : Nat) (v : NodeV) (d : Nd) (ts : List Token) (i : Instr),
    NodeSeat s r b n v d → Fires d d.req ts → Statements.ElementForm i v →
    ∃ t x, exec i s = .next t ∧ t.rg? r = some x ∧ d.st.pos < (x.nodes.get (128 * b + n) {}).pos ∧
      (d.blk.lmtrap = false →
        t = s.setRg r { d.rg with
          nodes := x.nodes, acs := x.acs, lmc := x.lmc, lms := x.lms, quiet := x.quiet, swept := x.swept, granted := x.granted })

/-! ### Ports, constants and control tokens -/

/-- R194, R195, R207 to R211, R399, R400: a port, constant, counting or routing node's position. INGR emits the next token
of its port and EGR appends to its port; CONST's token stands in each consumer slot; CNT and AGEN emit the value of their
step and advance; SPLIT, MERGE and STEER send the token on to the consumers their rule picks; BARTOK offers, and emits
when its barrier's episode is complete. That a counted trigger's PSN and INV do not reach CNT's result is the model's choice
(notes/assumptions/58.md). -/
def Obligations.ControlNodes : Prop :=
  ∀ (s : State) (r b n : Nat) (v : NodeV) (d : Nd) (i : Instr), NodeSeat s r b n v d →
    d.st.ended = false → d.st.stopped = none →
    let fires := fun (f : Nd → Option Nd) (d1 : Nd) => exec i s = .next (firing d f d1)
    (Forms.here ⟨0x80, .ingr, .ingrN64, .ingrN96⟩ i v → d.room = true → ∀ t l, (d.rg.inPort (v.bits 0 6)).q = t :: l →
      let taken := { d with rg := d.rg.setIn (v.bits 0 6) ({ d.rg.inPort (v.bits 0 6) with q := l } : InPort).settle }
      (t.eos = false → fires Nd.ingr ((taken.emit t).consume [])) ∧ (t.eos = true → fires Nd.ingr taken.finish)) ∧
    (Forms.here ⟨0x81, .egr, .egrN64, .egrN96⟩ i v → (d.rg.outPort (v.bits 0 6)).room = true →
      let x := d.rg.outPort (v.bits 0 6)
      let put := fun (t : Token) => { d with rg := d.rg.setOut (v.bits 0 6) { x with q := x.q ++ [t] } }
      (∀ t, (d.head 0).tok? = some t → t.bub = false → fires Nd.egr ((put t).consume [0])) ∧
      (∀ t, (d.head 0).tok? = some t → t.bub = true → fires Nd.egr (d.consume [0])) ∧
      ((d.head 0).isEnded = true → fires Nd.egr ((put eosToken).upd (fun st => { st with ended := true })))) ∧
    (Forms.here ⟨0x82, .cst, .cstN64, .cstN96⟩ i v → ∃ x, exec i s = .next (s.setRg r x) ∧
      ∀ c ∈ v.cons, ((x.nodes.get (128 * b + c.1) {}).slot c.2).standing = some (constToken v)) ∧
    (Forms.here ⟨0xA7, .cnt, .cntN64, .cntN96⟩ i v → d.room = true → ∀ c t bound it,
      (d.st.x = .cnt c t bound it ∨ (d.st.x = .none ∧ c = 0 ∧ t = v.bits 0 16 + 1 ∧ bound = none ∧ it = 0)) →
      let t1 := if c = 0 then bound.getD t else t
      let step := fun (d : Nd) (mk : BitVec 4) (bub : Bool) (it : Nat) =>
        let mk := if c + 1 = t1 then mk ||| (1#4 <<< v.bits 16 2) else mk
        (d.emit (if bub then { mks := mk, bub := true } else { val := BitVec.ofNat 64 (c % 2 ^ fmtWidth v.fmt), mks := mk })).setX
          (.cnt (if c + 1 = t1 then 0 else c + 1) t1 (if c = 0 then none else bound) it)
      (∀ k, v.flag 18 = true → (d.head 0).tok? = some k → fires Nd.cnt (step (d.consume [0]) k.mks k.bub it)) ∧
      (v.flag 18 = false → iterCount d.rg.trips ≤ it → fires Nd.cnt d.finish) ∧
      (v.flag 18 = false → it < iterCount d.rg.trips → v.flag 19 = false →
        fires Nd.cnt (step (d.consume []) (iterMks d.rg.trips it) false (it + 1))) ∧
      (v.flag 18 = false → it < iterCount d.rg.trips → v.flag 19 = true → fires Nd.cnt (((d.consume []).emit
        { val := BitVec.ofNat 64 (iterIdx d.rg.trips it (v.bits 16 2) % 2 ^ fmtWidth v.fmt)
          mks := iterMks d.rg.trips it }).setX (.cnt c t bound (it + 1))))) ∧
    (Forms.here ⟨0xA8, .agen, .agenN64, .agenN96⟩ i v → d.room = true → ∀ lim bound it,
      (d.st.x = .agen lim bound it ∨ (d.st.x = .none ∧ lim = agenLim d.blk v ∧ bound = none ∧ it = 0)) →
      it < iterCount d.rg.trips →
      let first := iterIdx d.rg.trips it 0 = 0
      let lim1 : W64 := if first then (bound.map (BitVec.ofNat 64)).getD lim else lim
      let a := agenVal (agenRec d.blk v) d.rg.trips it (fmtWidth v.fmt)
      let t : Token := if lim1 ≠ 0 ∧ lim1.toNat ≤ a then { mks := iterMks d.rg.trips it, bub := true }
        else { val := BitVec.ofNat 64 a, mks := iterMks d.rg.trips it }
      fires Nd.agen (((d.consume []).emit t).setX (.agen lim1 (if first then none else bound) (it + 1)))) ∧
    (Forms.here ⟨0xAA, .split, .splitN64, .splitN96⟩ i v → ∀ t, Fires d d.req [t] → ∀ k c, d.group = (k, c) →
      let g := v.bits 0 6 + 1
      fires Nd.split (((d.consume d.req).sendTo [k] t).setX
        (if c + 1 < g then .group k (c + 1) else .group ((k + 1) % v.cons.length) 0))) ∧
    (Forms.here ⟨0xAB, .merge, .mergeN64, .mergeN96⟩ i v → d.room = true → ∀ k c, d.group = (k, c) →
      let g := v.bits 0 6 + 1
      let take := fun (j : Nat) (t : Token) (next : Nat) => fires Nd.merge (((d.consume [j]).emit t).setX
        (if c + 1 < g then .group j (c + 1) else .group next 0))
      (∀ t, v.flag 6 = false → (d.head k).tok? = some t → take k t ((k + 1) % d.req.length)) ∧
      (∀ t, v.flag 6 = true → c ≠ 0 → (d.head k).tok? = some t → take k t k) ∧
      (v.flag 6 = true → c = 0 → (∃ j ∈ d.req, d.holdsGroup g j = true) →
        ∃ j ∈ d.req, ∃ t, d.holdsGroup g j = true ∧ (d.head j).tok? = some t ∧ take j t j)) ∧
    (Forms.here ⟨0xAC, .steer, .steerN64, .steerN96⟩ i v → ∀ ts, Fires d d.req ts →
      let t := ts.getD 0 {}
      let m := BitVec.ofNat 4 (v.bits 0 4)
      let c := ts.getD 1 {}
      let yes := (m = 0 ∧ c.bub = false ∧ c.val.toNat % 256 ≠ 0) ∨ (m ≠ 0 ∧ t.mks &&& m ≠ 0)
      (yes → fires Nd.steer ((d.consume d.req).sendTo [0, 2] t)) ∧
      (¬ yes → v.flag 4 = false → fires Nd.steer ((d.consume d.req).sendTo [1, 3] t)) ∧
      (¬ yes → v.flag 4 = true → fires Nd.steer (d.consume d.req))) ∧
    (Forms.here ⟨0xAD, .bartok, .bartokN64, .bartokN96⟩ i v → ∀ t k, (d.head 0).tok? = some t →
      let bid := v.bits 0 8
      let ps := d.rg.participants bid
      (d.st.x = .bartok false k ∨ (d.st.x = .none ∧ k = 0) → fires Nd.bartok ((d.updBar bid (fun u =>
        ({ u with offers := u.offers ++ [(b, n)] } : BarUnit).test ps)).setX (.bartok true k))) ∧
      (d.st.x = .bartok true k → d.room = true → (∃ u ∈ d.rg.bars, u.bid = bid ∧ (b, n) ∈ u.go) →
        fires Nd.bartok ((((d.updBar bid (fun u => { u with go := u.go.filter (· != (b, n)) })).consume [0]).emit t).setX
          (.bartok false (k + 1)))))

/-! ### Packed and sorted streams -/

/-- R200 to R206: the stream nodes. UNPK3 sends the digits of a T3 byte, BMAND combines bitmaps and gives their count in
IX, PFXPOP sends the offset of each selected bit, SIX passes over the smaller key and pairs equal ones, SUN holds the
smaller key's token back by one, TOPK keeps the highest-ranked tokens of a segment, and SHUF permutes a full group. That a
token SUN holds loses its segment marker (notes/assumptions/55.md), and that all but the last of TOPK's tokens carry no marker
(notes/assumptions/56.md), are the model's choices. -/
def Obligations.StreamNodes : Prop :=
  ∀ (s : State) (r b n : Nat) (v : NodeV) (d : Nd) (i : Instr), NodeSeat s r b n v d →
    d.st.ended = false → d.st.stopped = none → d.room = true →
    let fires := fun (f : Nd → Option Nd) (d1 : Nd) => exec i s = .next (firing d f d1)
    let clean := fun (t : Token) => t.bub = false ∧ t.psn = false ∧ t.inv = false
    (Forms.here ⟨0x9D, .unpk3, .unpk3N64, .unpk3N96⟩ i v → ∀ t, Fires d d.req [t] → clean t →
      let x := t.val.toNat % 256
      let cnt := if t.mks.getLsbD 0 = true ∧ 1 ≤ v.bits 0 3 then v.bits 0 3 else 5
      (x < 243 → fires Nd.unpk3 ((d.consume d.req).emitRun
        ((List.range cnt).map (fun k => { val := BitVec.ofNat 64 (t3Digit x k) })) t.mks)) ∧
      (243 ≤ x → fires Nd.unpk3 (((d.consume d.req).raise fInvalid).emitRun (List.replicate cnt { inv := true }) t.mks))) ∧
    ((∃ x, i = .bmandN64 x ∧ v = view64 0x9E x) ∨ (∃ x, i = .bmandN96 x ∧ v = view96 0x9E x) →
      ∀ t u, Fires d d.req [t, u] → clean t → clean u →
      let x := t.val.toNat % 2 ^ 32
      let y := u.val.toNat % 2 ^ 32
      let z := if v.bits 0 2 = 0 then x &&& y else if v.bits 0 2 = 1 then x &&& (2 ^ 32 - 1 - y) else x ||| y
      fires Nd.bmand ((((d.consume d.req).raise 0)).emit { val := BitVec.ofNat 64 z, mks := t.mks ||| u.mks
                                                           ix := some (BitVec.ofNat 32 (popCount 32 z)) })) ∧
    (Forms.here ⟨0x9F, .pfxpop, .pfxpopN64, .pfxpopN96⟩ i v → ∀ t u base, Fires d d.req [t, u] → clean t → clean u →
      (d.st.x = .pfx base false ∨ (d.st.x = .none ∧ base = 0)) →
      let x := t.val.toNat % 2 ^ 32
      let l := prefixOffsets base.toNat x (u.val.toNat % 2 ^ 32)
      let mk := t.mks ||| u.mks
      let d1 := (d.consume d.req).raise 0
      let out := if l ≠ [] then d1.emitRun (l.map (fun y => { val := BitVec.ofNat 64 y })) mk
        else if mk ≠ 0 then d1.emit { mks := mk, bub := true } else d1
      fires Nd.pfxpop (out.setX (if mk &&& BitVec.ofNat 4 (v.bits 0 4) ≠ 0 then .pfx 0 false
        else .pfx (BitVec.ofNat 32 (base.toNat + popCount 32 x)) false))) ∧
    (∀ x, (x = d.sx ∧ x.ea = none ∧ x.eb = none) → ∀ t u k l,
      (d.head 0).tok? = some t → (d.head 1).tok? = some u → d.sxHead x 0 t = .key k → d.sxHead x 1 u = .key l →
      (Forms.here ⟨0xA0, .six, .sixN64, .sixN96⟩ i v →
        (k < l → fires Nd.six (d.sxTake (x.setKey 0 k) 0 t)) ∧
        (l < k → fires Nd.six (d.sxTake (x.setKey 1 l) 1 u)) ∧
        (k = l → fires Nd.six (((d.sxPair x 0).consume [0, 1]).setSx
          { ((((x.setKey 0 k).setKey 1 l).took 0 (d.segm 0) t.mks).took 1 (d.segm 0) u.mks) with hx := some t, hy := some u }))) ∧
      (Forms.here ⟨0xA1, .sun, .sunN64, .sunN96⟩ i v →
        (k < l → fires Nd.sun (d.sunTake x 0 t k)) ∧
        (l < k → fires Nd.sun (d.sunTake x 1 u l)) ∧
        (k = l →
          let m := sunMerge (v.bits 5 3) v.fmt (Mode.ofAmf d.blk.amf.toNat) t u
          let p := d.sunPut ((x.setKey 0 k).setKey 1 l) m.1
          fires Nd.sun (((p.1.raise m.2).consume [0, 1]).setSx ((p.2.took 0 (d.segm 0) t.mks).took 1 (d.segm 0) u.mks))))) ∧
    (Forms.here ⟨0xA2, .topk, .topkN64, .topkN96⟩ i v → ∀ t l p, (d.head 0).tok? = some t → d.topSet = (l, p) →
      t.bub = false → (v.flag 12 = true → topNaN v.fmt t = false) →
      let kept := (topInsert v.fmt (v.flag 13) (t, t.ix.getD (BitVec.ofNat 32 p)) l).take (v.bits 0 8 + 1)
      (t.mks &&& BitVec.ofNat 4 (v.bits 8 4) = 0 → fires Nd.topk ((d.consume [0]).setX (.topk kept (p + 1)))) ∧
      (t.mks &&& BitVec.ofNat 4 (v.bits 8 4) ≠ 0 → fires Nd.topk (((d.consume [0]).emitRun
        (kept.map (fun e => { e.1 with ix := some e.2 })) t.mks).setX (.topk [] 0)))) ∧
    (Forms.here ⟨0xB7, .shuf, .shufN64, .shufN96⟩ i v → ∀ t l, (d.head 0).tok? = some t →
      (d.st.x = .shuf l ∨ (d.st.x = .none ∧ l = [])) →
      let g := 2 ^ v.bits 3 3
      let all := l ++ [t]
      (all.length < g → t.mks = 0 → fires Nd.shuf ((d.consume [0]).setX (.shuf all))) ∧
      (all.length = g → fires Nd.shuf (((d.consume [0]).emitRun
        ((List.range g).map (fun k => all.getD (shufPi (v.bits 0 3) g (v.bits 6 6) k) { bub := true })) (orMks all)).setX
        (.shuf []))))

/-! ### Matrix, memory and fibre nodes -/

/-- R223 to R230, R243 to R245: the matrix, accumulation and solver nodes. MM and MMPL start a tile when both index sets
are whole, both slots full and the group empty, take steps, and promote a group of steps at its 128th or at the tile's
end, which makes the group full; ACC promotes a token; DRAIN sends or records the rounded value; PIVDIV takes a pivot and
divides by it; RESID keeps the segment's largest magnitude and ends the segment against its reference. DRAIN.MEM forms its
record at the firing (notes/assumptions/33.md) and raises its status only as the record performs (notes/assumptions/127.md),
and what PCOL counts and a poisoned pivot gives (notes/assumptions/63.md): these are the model's choices. -/
def Obligations.MatrixNodes : Prop :=
  ∀ (s : State) (r b n : Nat) (v : NodeV) (d : Nd) (i : Instr), NodeSeat s r b n v d →
    d.st.ended = false → d.st.stopped = none → d.room = true →
    let fires := fun (f : Nd → Option Nd) (d1 : Nd) => exec i s = .next (firing d f d1)
    (Forms.here ⟨0xA3, .mm, .mmN64, .mmN96⟩ i v ∨ Forms.here ⟨0xA4, .mmpl, .mmplN64, .mmplN96⟩ i v →
      ∀ ta tb t, d.rg.tslot d.cfg.dune (v.bits 0 4) = some ta → d.rg.tslot d.cfg.dune (v.bits 4 4) = some tb →
        ta.full = true → tb.full = true → (d.head 2).tok? = some t →
        let x := d.mmx
        (∀ ra rb, x.opened = false → d.ag.tag = .empty → idxSet (v.bits 12 2) (d.slot 0).q = some (ra, false) →
          idxSet (v.bits 14 2) (d.slot 1).q = some (rb, false) → fires Nd.mm (d.startTile ra rb)) ∧
        (x.opened = true → d.ag.tag = .active → t.bub = false →
          let y : MmX := { x with steps := x.steps ++ [d.idxOf 2 t], lastMk := t.mks }
          let d2 := d.consume [2]
          (t.mks.getLsbD (v.bits 16 2) = true → fires Nd.mm ((d2.promote y ta.entry tb.entry).endTile y ta tb)) ∧
          (t.mks.getLsbD (v.bits 16 2) = false → y.steps.length < 128 → fires Nd.mm (d2.setMm y)) ∧
          (t.mks.getLsbD (v.bits 16 2) = false → 128 ≤ y.steps.length →
            fires Nd.mm ((d2.promote y ta.entry tb.entry).setMm { y with steps := [] })))) ∧
    (Forms.here ⟨0xA5, .acc, .accN64, .accN96⟩ i v → ∀ t, Fires d d.req [t] →
      let p := (d.regAcc (v.bits 0 4)).promote (accTerm v.fmt t)
      let d2 := d.consume d.req
      (t.bub = true → fires Nd.acc d2) ∧
      (t.bub = false → fires Nd.acc
        (({ d2 with rg := { d2.rg with accs := d2.rg.accs.set! (v.bits 0 4) p.1 } } : Nd).raise p.2))) ∧
    (Forms.here ⟨0xA6, .drain, .drainN64, .drainN96⟩ i v →
      (v.flag 8 = false →
        (∀ t k, d.st.x = .drain (some t) k → k < d.dGroup.m * d.dGroup.n →
          let x := d.drainAcc (d.dGroup.at k)
          let mk : BitVec 4 := (if (k + 1) % d.dGroup.n = 0 then 1 else 0) |||
            (if k + 1 = d.dGroup.m * d.dGroup.n then 2 else 0)
          let d2 := (d.raise x.2).emit { val := BitVec.ofNat 64 x.1, mks := mk }
          fires Nd.drain (if k + 1 = d.dGroup.m * d.dGroup.n then d2.setGroupEmpty.setX (.drain none 0)
            else d2.setX (.drain (some t) (k + 1)))) ∧
        (∀ t, (∀ y k, d.st.x ≠ .drain (some y) k) → Fires d d.req [t] → t.bub = false →
          (v.flag 0 = true → d.dGroup.tag = .full → fires Nd.drain ((d.consume d.req).setX (.drain (some t) 0))) ∧
          (v.flag 0 = false →
            let x := d.drainAcc (d.regAcc (v.bits 1 4))
            fires Nd.drain (((d.consume d.req).raise x.2).emit { val := BitVec.ofNat 64 x.1, mks := 3 })))) ∧
      (v.flag 8 = true → v.flag 0 = false → d.st.skip = false → ∀ ts, Fires d d.memReq ts →
        (d.memPos ts).done = none → (ts.getD 0 {}).bub = false →
        let a := d.regAcc (v.bits 1 4)
        let x := d.drainAcc a
        let p : MemPos := { d.memPos ts with
          bytes := drainRecord v.fmt (v.bits 5 3) 1 1 (a.wordWith x.2) (v.flag 9) [x]
          bads := recBads v.fmt (v.flag 9) [x] }
        fires Nd.drain (((d.consume d.memReq).upd (fun st => { st with pend := st.pend ++ [p] })).flushed))) ∧
    (Forms.here ⟨0xB5, .pivdiv, .pivdivN64, .pivdivN96⟩ i v → ∀ t, (d.head 0).tok? = some t →
      (∀ p segs, d.piv = (some p, segs) →
        let m := Mode.ofAmf d.blk.amf.toNat
        let rm := if v.flag 2 then v.bits 3 3 else m.rm
        let u := propagate 0x18 [{ t with psn := t.psn || d.pivPsn }] (fun ts => pivQuot rm (fmtVal 0x18 0 (ts.getD 0 {}).val.toNat) (fmtVal 0x18 0 p.toNat))
        let d2 := ((d.consume [0]).raise u.2).emit u.1
        fires Nd.pivdiv (if t.mks &&& BitVec.ofNat 4 (v.bits 6 4) ≠ 0 then
            ({ d2 with rg := { d2.rg with svr := svrCol d2.rg.svr (segs + 1) } } : Nd).setX (.piv none (segs + 1))
          else d2.setX (.piv (some p) segs d.pivPsn))) ∧
      (∀ segs u, d.piv = (none, segs) → d.rg.leadExp = false → (d.head 1).tok? = some u →
        u.psn = false → u.inv = false → u.bub = false →
        let p := u.val.toNat % 2 ^ 32
        let small := ((fmtVal 0x18 0 p).abs.lt (fmtVal 0x18 0 d.pivTh) || (fmtVal 0x18 0 p).abs.eq (fmtVal 0x18 0 d.pivTh)) = true
        (¬ small → fires Nd.pivdiv ((d.pop 1).setX (.piv (some (BitVec.ofNat 32 p)) segs))) ∧
        (small → v.bits 0 2 = 0 → fires Nd.pivdiv ((d.pop 1).pivEnd segs (fun x => putFld x 30 1 1))) ∧
        (small → v.bits 0 2 ≠ 0 →
          let svr := putFld (putFld d.rg.svr 29 1 1) 32 32 (min (svrPtc d.rg.svr + 1) (2 ^ 32 - 1))
          fires Nd.pivdiv (({ d.pop 1 with rg := { (d.pop 1).rg with svr := svr } } : Nd).setX
            (.piv (some (BitVec.ofNat 32 (p / 2 ^ 31 * 2 ^ 31 + d.pivTh))) segs)))) ∧
      (∀ segs, d.piv = (none, segs) → d.rg.leadExp = true →
        fires Nd.pivdiv (d.pivEnd segs (fun x => putFld x 31 1 1)))) ∧
    (Forms.here ⟨0xB6, .resid, .residN64, .residN96⟩ i v → ∀ t f m any opened, (d.head 0).tok? = some t →
      (d.head 1).tok? = some f → (d.st.x = .resid m any opened ∨ (d.st.x = .none ∧ m = 0 ∧ any = false)) → t.bub = false →
      let big := residMax m.toNat (residMag t)
      (t.mks &&& BitVec.ofNat 4 (v.bits 0 4) = 0 →
        fires Nd.resid ((d.consume [0]).setX (.resid (BitVec.ofNat 32 big) true true))) ∧
      (t.mks &&& BitVec.ofNat 4 (v.bits 0 4) ≠ 0 →
        let d2 := (d.consume [0]).pop 1
        let l := listUpd d2.rg.seqs 0 (fun q => (q.tryBest big f.val).1)
        fires Nd.resid ((({ d2 with rg := { d2.rg with seqs := l } } : Nd).emit
          { val := BitVec.ofNat 64 big, mks := t.mks }).setX (.resid 0 false))))

/-- R231, R232, R234, R236 to R241: a memory node that fires begins one position with its address, value, markers and
release scope, that of the RELN whose order token it waits for; a position whose address token carries a flag, or a value token
of which is a bubble or invalid, or poisoned before an atomic, makes no access, and no other does. RELN joins order tokens. STN
into a tile slot writes the next data unit and moves the cursor, at the firing (the model's choice, notes/assumptions/59.md);
MSTORE also sends its value to its port. A position begins in the node's turn and performs in another (the model's choice,
notes/assumptions/116.md). -/
def Obligations.MemoryNodes : Prop :=
  ∀ (s : State) (r b n : Nat) (v : NodeV) (d : Nd) (i : Instr), NodeSeat s r b n v d → d.st.skip = false →
    let fires := fun (f : Nd → Option Nd) (d1 : Nd) => exec i s = .next (firing d f d1)
    let put := fun (ts : List Token) => (d.consume d.memReq).upd (fun st => { st with pend := st.pend ++ [d.memPos ts] })
    (∀ k ∈ [(⟨0xAE, .ldn, .ldnN64, .ldnN96⟩ : Forms), ⟨0xB0, .atomNode, .atomNodeN64, .atomNodeN96⟩,
        ⟨0xB1, .acqn, .acqnN64, .acqnN96⟩, ⟨0xB3, .wcvt, .wcvtN64, .wcvtN96⟩], k.here i v →
      ∀ ts, Fires d d.memReq ts → d.st.pend.length < 64 → fires Nd.begin (put ts).flushed) ∧
    (Forms.here ⟨0xAF, .stn, .stnN64, .stnN96⟩ i v → v.flag 4 = false →
      ∀ ts, Fires d d.memReq ts → d.st.pend.length < 64 → fires Nd.stn (put ts).flushed) ∧
    (Forms.here ⟨0xB4, .mstore, .mstoreN64, .mstoreN96⟩ i v →
      ∀ ts, Fires d d.memReq ts → d.st.pend.length < 64 → (d.rg.outPort (v.bits 21 6)).room = true →
      let t := ts.getD 1 {}
      let x := d.rg.outPort (v.bits 21 6)
      let sent := { put ts with rg := (put ts).rg.setOut (v.bits 21 6) { x with q := x.q ++ [t] } }
      (t.bub = true → fires Nd.begin (put ts).flushed) ∧ (t.bub = false → fires Nd.begin sent.flushed)) ∧
    ((∃ x, i = .relnN64 x ∧ v = view64 0xB2 x) ∨ (∃ x, i = .relnN96 x ∧ v = view96 0xB2 x) →
      let req := (List.range 4).filter d.fed
      ∀ ts, Fires d req ts → fires Nd.reln ((d.consume req).sendTo d.orderPlaces { mks := orMks ts })) ∧
    (Forms.here ⟨0xAF, .stn, .stnN64, .stnN96⟩ i v → v.flag 4 = true → v.flag 5 = false → v.flag 6 = false →
      ∀ ts x, Fires d d.memReq ts → d.rg.tslot d.cfg.dune (v.bits 7 4) = some x → x.full = false →
        x.dc < dcFull x.entry → (ts.getD 0 {}).bub = false → (ts.getD 0 {}).inv = false →
        let y := ({ x with dc := x.dc + 1 } : TileSlot).settle
        let d2 := { d with rg := (d.rg.tileData x.entry x.dc (ts.getD 0 {})).putTslot d.cfg.dune (v.bits 7 4) y }
        fires Nd.stn ((d2.consume d.memReq).sendTo d.orderPlaces { mks := orMks ts })) ∧
    (∀ ts, let p := d.memPos ts
      let a := ts.getD 0 {}
      let w := fmtWidth (d.fmtOf 0)
      let vs := (ts.take d.req.length).drop 1
      let k := d.v.memKind
      p.num = d.st.pos ∧ p.addr = (if w = 0 then a.val else BitVec.ofNat 64 (a.val.toNat % 2 ^ w)) ∧ p.mks = orMks ts ∧
      p.remote = none ∧ p.paused = none ∧ p.pieces = 0 ∧
      p.value = (vs.getD 0 {}).val ∧ p.cmp = (vs.getD 1 {}).val ∧ p.psn = (vs.getD 0 {}).psn ∧
      (k = .load ∨ k = .drain → p.rel = none) ∧
      (k = .store ∨ k = .atom → p.rel =
        ((d.blk.into d.n 3).find? (fun e => e.1.op = 0xB2)).map (fun (e : NodeV × NodeCfg × Nat) => scopeOf (e.1.bits 15 3))) ∧
      (p.done.isSome = true ↔ a.bub = true ∨ a.psn = true ∨ a.inv = true ∨
        ∃ t ∈ vs, t.bub = true ∨ t.inv = true ∨ (k = .atom ∧ t.psn = true)) ∧
      (∀ t, p.done = some t → t.mks = orMks ts ∧ (a.bub = true ∨ (∃ t ∈ vs, t.bub = true) → t.bub = true)))

/-- R231, R232, R235, R316: a position of a memory node performs at its home memory node when no earlier position that
overlaps it has still to perform. A load reads its bytes there and changes no memory; a store without a flag puts its value's
bytes there, little-endian, and every other byte of memory reads as before (neither the stack nor the row being quiesced), where no other residency has a checked store
buffered toward that sector (else that store performs first: notes/assumptions/138.md). -/
def Obligations.NodeAccesses : Prop :=
  ∀ (s : State) (r b n k : Nat) (d : Nd) (p : MemPos) (pa : Nat) (u : Bool),
    s.nodeAt r b n = some d → d.rg.place.isSome = true → d.rg.live = true → d.st.saved = false →
    d.st.stopped = none → d.st.skip = false → d.st.pend[k]? = some p → p.done = none → p.remote = none →
    (∀ q ∈ d.st.pend.take (k + 1), q.paused = none) →
    (∀ q ∈ d.st.pend.take k, q.done = none → d.overlap q p = false) →
    p.addr.toNat % d.v.memAlign = 0 → d.v.flat = true → p.pieces = 0 → p.rel = none → p.psn = false → p.bads = [] →
    xlate s d.rg.core d.rg.ctx p.addr d.v.memKind.acc = .ok (.loc pa u) →
    (d.v.fmt = 0 ∨ tagOk (s.sideAt (sectorOf pa)) d.v.fmt = true) → (u = false → s.race d.rg (sectorOf pa) = none) →
    s.poisonedAt pa d.v.unit = false → s.quiesced pa = false →
    let w := fmtWidth d.v.fmt / 8
    (d.v.op = 0xAE → 0 < w → p.value = 0 → ∃ t, exec (.accessPerformed (.node r b n k)) s = .next t ∧ t.mem = s.mem ∧
      t = ((({ d with s := s.cache d.rg.core d.rg.ctx p.addr } : Nd).updPos k (fun _ => { p with
        pieces := 1
        places := [.loc pa u]
        value := BitVec.ofNat 64 (leNat (s.peekN (s.keyOf d.rg.ctx) pa w))
        done := some { val := BitVec.ofNat 64 (leNat (s.peekN (s.keyOf d.rg.ctx) pa w)), mks := p.mks, ix := p.ix
                       s := if fmtWidth d.v.fmt = 8 ∧ d.v.fmt ≠ 0 then (s.sideAt (sectorOf pa)).sca else 127 } })).flushed).done) ∧
    (d.v.op = 0xAF → 0 < w → (u = true ∨ Statements.Alone s r (sectorOf pa)) → Memory.wf s.mem = true → s.readable (s.keyOf d.rg.ctx) (sectorOf pa) = true →
      ∃ t, exec (.accessPerformed (.node r b n k)) s = .next t ∧
        (∀ a, (a < pa ∨ pa + w ≤ a) → Memory.get t.mem a = Memory.get s.mem a) ∧
        (∀ j < w, Memory.get t.mem (pa + j) = BitVec.ofNat 8 (p.value.toNat / 256 ^ j)))

/-- R247, R256 to R259, R266 to R272: a fibre node that fires starts one operation with its number, its address and pairs
and its markers; FINTER starts two halves; an open segment of FMERGE or FINTER with STR takes one more pair, and the
segment's last pair starts the operation. An address outside fibre space stops the node with a translation trap, once the
operations before it have completed (R430). -/
def Obligations.FibreNodes : Prop :=
  ∀ (s : State) (r b n : Nat) (v : NodeV) (d : Nd) (i : Instr), NodeSeat s r b n v d → d.st.skip = false →
    d.fops.length < 64 → d.rbase.toNat % 16 = 0 →
    let fires := fun (f : Nd → Option Nd) (d1 : Nd) => exec i s = .next (firing d f d1)
    let one := fun (f : Nd → Option Nd) (kind : FKind) => ∀ ts, Fires d d.memReq ts →
      let a := ts.getD 0 {}
      let vs := (ts.take d.req.length).drop 1
      let d2 := d.consume d.memReq
      a.flagged = false → (∀ t ∈ vs, t.bub = false) → (kind ≠ .ins → ∀ t ∈ vs, t.flagged = false) →
      (fibreSpace a.val = false → d.fops ≠ [] → exec i s = .next d.done) ∧
      (fibreSpace a.val = false → d.fops = [] →
        fires f (d.trap 3 a.val (XFault.detail ⟨6, 0, 0⟩ (if isFibreWriter v.op then .write else .read)))) ∧
      (fibreSpace a.val = true → kind ≠ .inter → fires f (d2.startOp (d.newFop a.val (d.ownPairs vs) a.mks))) ∧
      (fibreSpace a.val = true → kind = .inter → fibreSpace (vs.getD 0 {}).val = true →
        let o := d.newFop a.val (d.ownPairs vs) a.mks
        fires f ((d2.startOp { o with other := some (s.nextId + 1) }).putFop
          { o with addr := (vs.getD 0 {}).val, half := some s.nextId, rec_ := none }))
    let stream := fun (f : Nd → Option Nd) (bs : List Nat) => ∀ as_ a ts cnt seg used,
      as_ = (if d.fed 3 then [0, 3] else [0]) → (∀ k ∈ as_, (d.head k).isMissing = false) → (d.head 0).tok? = some a →
      d.st.x = .fib cnt seg true used → bs.map (fun k => (d.head k).tok?) = ts.map some → d.st.ended = false →
      d.st.stopped = none →
      let seg1 := if ts.any (·.bub) then seg else seg ++ [d.pairOf ts]
      let d2 := bs.foldl Nd.pop d
      (orMks ts &&& BitVec.ofNat 4 (v.bits 12 4) = 0 → fires f (d2.setX (.fib cnt seg1 true used))) ∧
      (orMks ts &&& BitVec.ofNat 4 (v.bits 12 4) ≠ 0 →
        fires f (((d2.consume as_).putFop (d2.newFop a.val seg1 a.mks)).setX (.fib (cnt + 1) [] false true)))
    (Forms.here ⟨0xB8, .fmerge, .fmergeN64, .fmergeN96⟩ i v → stream Nd.fibStream (if v.flag 16 then [1, 2] else [1])) ∧
    (Forms.here ⟨0xB9, .fins, .finsN64, .finsN96⟩ i v → one Nd.fibNode .ins) ∧
    (Forms.here ⟨0xBA, .fscan, .fscanN64, .fscanN96⟩ i v → one Nd.fibNode .scan) ∧
    (Forms.here ⟨0xBB, .fprobe, .fprobeN64, .fprobeN96⟩ i v → one Nd.fibNode .probe) ∧
    (Forms.here ⟨0xBC, .finter, .finterN64, .finterN96⟩ i v → v.flag 17 = false → one Nd.finter .inter) ∧
    (Forms.here ⟨0xBC, .finter, .finterN64, .finterN96⟩ i v → v.flag 17 = true → stream Nd.finter [1]) ∧
    ((∃ x, i = .fcountN64 x ∧ v = view64 0xBD x) ∨ (∃ x, i = .fcountN96 x ∧ v = view96 0xBD x) → one Nd.fibNode .count) ∧
    ((∃ x, i = .fclearN64 x ∧ v = view64 0xBE x) ∨ (∃ x, i = .fclearN96 x ∧ v = view96 0xBE x) → one Nd.fibNode .clear) ∧
    ((∃ x, i = .fcompactN64 x ∧ v = view64 0xBF x) ∨ (∃ x, i = .fcompactN96 x ∧ v = view96 0xBF x) →
      one Nd.fibNode .compact) ∧
    (Forms.here ⟨0xC0, .ftopk, .ftopkN64, .ftopkN96⟩ i v → one Nd.fibNode .topk) ∧
    ((∃ x, i = .fstatN64 x ∧ v = view64 0xC1 x) ∨ (∃ x, i = .fstatN96 x ∧ v = view96 0xC1 x) → one Nd.fibNode .stat)

/-! ### Events of the engines and of the Erg array -/

/-- R151, R156, R158, R162, R164, R176, R178: the first command of an engine queue starts once no fence holds it and
its ports are not bound to another queue's command: it binds them, or ends with FORMAT where their nodes do not match.
A started SLOAD whose port has room gives it its next token, and at its end an end-of-stream token, unless it keeps
the stream. A finished command leaves its queue and DONE takes its number; with CMPL the number is stored as a release
at the completion word. A multicast member stalled for STALL cycles is detached and receives an end-of-stream (it loses the
tokens that wait for it, and its end is fed beyond the port's room: the model's choice, notes/assumptions/44.md). A held
chain that rereads NEXT ends, waits again or goes on. -/
def Obligations.EngineEvents : Prop :=
  ∀ (s : State) (r k : Nat) (rg : Region) (ahead : List EqEntry) (c : Cmd),
    s.rg? r = some rg → rg.resident = true → headCmd (rg.eq k).entries = (ahead, some c) →
    let put := fun (c : Cmd) (x : Region) => x.setEq k ((x.eq k).putCmd c)
    let e : Eng := { r := r, q := k, rg := rg, c := c, s := s }
    let p := fld (dw c.desc 8) 0 6
    (c.started = false → (∀ x ∈ ahead, rg.fencePasses c x = true) → rg.portBusy k c = false →
      (c.decodes = true → rg.loading (fld (dw c.desc 4) 44 2) = false) →
      (rg.portFits c = true → exec (.engineCommandStart r k) s =
        .next ((s.updRg r (fun x => x.bindPorts k c)).updRg r (put (c.start rg)))) ∧
      (rg.portFits c = false → exec (.engineCommandStart r k) s =
        .next (s.updRg r (put ((c.start rg).finish 1))))) ∧
    (c.started = true → c.finished = false → c.paused = none → c.remote = none → c.sent = [] → c.op = .sload →
      (rg.inPort p).room = true →
      (∀ t ts, c.toks = t :: ts → exec (.engineElement r k) s =
        .next ((s.updRg r (fun x => x.feed p t)).updRg r
          (put { c with toks := ts, elems := c.elems + (if t.bub then 0 else 1) }))) ∧
      (c.toks = [] → dTotal c.desc ≤ c.pos →
        (bit (dw c.desc 8) 8 = true → exec (.engineElement r k) s =
          .next (s.updRg r (put { c with finished := true }))) ∧
        (bit (dw c.desc 8) 8 = false → exec (.engineElement r k) s =
          .next ((s.updRg r (fun x => x.feed p eosToken)).updRg r (put { c with finished := true }))))) ∧
    (c.finished = true → c.paused = none → c.remote = none → c.sent = [] → c.cwa = false → c.link = none →
      let retired := fun (t : State) =>
        let t := t.updRg r (fun x => x.retireCmd k c)
        ({ t with regions := t.regions.map (fun x => (x.1, x.2.gone r k c.seq)) } : State)
      (dCmpl c.desc = false → exec (.engineCommandComplete r k) s = .next (retired s)) ∧
      (dCmpl c.desc = true → c.op ≠ .pref → c.op ≠ .flush → ∀ pa u,
        xlate s rg.core rg.ctx (dw c.desc 1) .write = .ok (.loc pa u) → s.quiesced pa = false →
        let t := (retired ((s.cache rg.core rg.ctx (dw c.desc 1)).bump r)).settle1 r pa u
        let w := t.write (t.keyOf rg.ctx) pa (leBytes 8 c.seq)
        exec (.engineCommandComplete r k) s = .next (if u then w else w.setTag (sectorOf pa) (w.tagOf r)))) ∧
    (c.op = .mcast → c.started = true → c.finished = false → ∀ j,
      fld (dw c.desc 2) 32 32 ≠ 0 → (c.mbuf.find j).isSome = true → fld (dw c.desc 2) 32 32 ≤ c.stall.get j 0 →
      let d := { c.note 8 with mbuf := c.mbuf.del j, stall := c.stall.del j, detmask := c.detmask ||| (1#16 <<< j) }
      ∀ m, s.memberOf rg j = some m →
        exec (.mcastDetach r k j) s = .next ((s.updRg r (put d)).updRg m
          (fun x => x.feed (fld (dw c.desc (3 + j / 8)) (8 * (j % 8)) 8) eosToken))) ∧
    (c.op = .chainw → c.hold = true → c.finished = false → c.paused = none → c.remote = none → c.sent = [] → ∀ l g e1,
      c.link = some l → l.toNat % 8 = 0 → e.readFlat l 8 = .ok (g, e1) → g.failed = false → g.bad = false →
      let x := w64 (leNat g.bytes)
      (x = 0 → exec (.chainHoldReread r k) s = .next ({ e1 with c := e1.c.finish 0 } : Eng).done) ∧
      (x ≠ 0 → bit x 0 = true → exec (.chainHoldReread r k) s =
        .next ({ e1 with c := { e1.c with hold := true } } : Eng).done) ∧
      (x ≠ 0 → bit x 0 = false → exec (.chainHoldReread r k) s =
        .next ({ e1 with c := { e1.c with hold := false, link := some x, sub := 0, buf := [] } } : Eng).done))

/-- R279, R280, R281, R282, R284, R278: a pipe of the Erg array starts its first command that has not started, unless one
ahead on the other pipe shares a slot; the started command at the head has its effect, on the banks as it finds them where
nothing else wrote them meanwhile, and then leaves, or first writes its record: dword 1, an ordinary write, then its
sequence number as a release. A cleared or restored array is Owned; a saved one is free and its image is kept for its
owner, and fails where an uncorrectable error lies in what the save reads. That a command has its whole effect at its
completion, on the banks found then, and that ESEL takes slots as given, are the model's choices (notes/assumptions/69.md). -/
def Obligations.ErgEvents : Prop :=
  ∀ (s : State) (r : Nat) (rg : Region) (e : Erg), s.ergOf r = some (rg, e) →
    let queue := fun (x : Region) (l : List ErgCmd) => { x with ergq := { x.ergq with entries := l } }
    (∀ (load : Bool) (pre post : List ErgCmd) (c : ErgCmd), rg.ergq.entries = pre ++ c :: post →
      (∀ x ∈ pre, x.op.loads = load → x.started = true) → c.op.loads = load → c.started = false →
      ergBlocked e pre c = false →
      exec (.ergCommandStart r load) s =
        .next (s.setRg r (queue rg (pre ++ { c with started := true, since := rg.bankStamp } :: post)))) ∧
    (∀ (c : ErgCmd) (rest : List ErgCmd), rg.ergq.entries = c :: rest → c.started = true → c.paused = none →
      c.remote = none →
      let pop := fun (x : Region) =>
        { queue x x.ergq.entries.tail with bankOld := x.bankOld.filter (fun o =>
            if o.erg then x.eqs.any (fun y => y.cmds.any (fun z => z.since ≤ o.at_)) else rest.any (·.started)) }
      let w := ergEffect s.freeIx rg e c
      let bare := ({ rg := rg, e := e } : ErgWork).run c
      let recorded := fun (t : State) (va x : W64) (pa : Nat) (u : Bool) =>
        let y := ((t.cache rg.core rg.ctx va)).settle1 r pa u
        let z := y.write (y.keyOf rg.ctx) pa (leBytes 8 x.toNat)
        if u then z else z.setTag (sectorOf pa) (z.tagOf r)
      (rg.bankOld = [] → w.e = bare.e ∧ w.status = bare.status ∧ w.units = bare.units ∧ w.idx = bare.idx ∧
        w.rg = if c.op = .epop ∨ c.op = .exb then bare.rg else rg) ∧
      (c.op = .esel → c.word = none → exec (.ergCommandComplete r) s =
        .next ((s.setRg r (pop rg)).setErg rg.core { e with aw := (dw c.desc 0).toNat, at_ := (dw c.desc 1).toNat })) ∧
      (c.word = none → c.op ≠ .epop → c.op ≠ .exb → (c.op = .esel ∨ c.op = .eeval ∨ dCmpl c.desc = false) →
        exec (.ergCommandComplete r) s = .next ((s.setRg r (pop w.rg)).setErg rg.core w.e)) ∧
      (c.word = none → (c.op = .epop ∨ c.op = .exb ∨ (c.op ≠ .esel ∧ c.op ≠ .eeval ∧ dCmpl c.desc = true)) →
        exec (.ergCommandComplete r) s = .next ((s.setRg r (w.rg.ergHead
          { c with word := some (w64 (w.units % 2 ^ 32 * 2 ^ 32 + (if w.status = 12 then w.idx * 2 ^ 8 else 0) + w.status)) })).setErg
            rg.core w.e)) ∧
      (∀ x, c.word = some x → dCmpl c.desc = false → exec (.ergCommandComplete r) s = .next (s.setRg r (pop rg))) ∧
      (∀ x pa u, c.word = some x → dCmpl c.desc = true → c.half = false →
        xlate s rg.core rg.ctx (dw c.desc 1 + 8) .write = .ok (.loc pa u) → s.quiesced pa = false →
        exec (.ergCommandComplete r) s = .next ((recorded s (dw c.desc 1 + 8) x pa u).updRg r
          (fun x => x.ergHead { c with half := true }))) ∧
      (∀ x pa u, c.word = some x → dCmpl c.desc = true → c.half = true →
        xlate s rg.core rg.ctx (dw c.desc 1) .write = .ok (.loc pa u) → s.quiesced pa = false →
        exec (.ergCommandComplete r) s =
          .next ((let y := (((s.cache rg.core rg.ctx (dw c.desc 1))).bump r).settle1 r pa u
            let z := y.write (y.keyOf rg.ctx) pa (leBytes 8 (w64 c.seq).toNat)
            if u then z else z.setTag (sectorOf pa) (z.tagOf r)).updRg r (fun x => x.ergPop)))) ∧
    (∀ (t : State) (core r2 : Nat) (x : Region) (f : Erg), (t.core core).erg = f → f.owner = some r2 →
      t.rg? r2 = some x →
      (f.st = .clearing → exec (.ergClearDone core) t =
        .next (t.setErg core { f with st := if x.snap then .saving else .owned })) ∧
      (f.st = .restoring → exec (.ergRestoreDone core) t =
        .next (t.setErg core { f with st := if x.snap then .saving else .owned })) ∧
      (f.st = .saving → ∀ bad, exec (.ergSaveDone core bad) t =
        .next ((t.setErg core {}).updRg r2 (fun y =>
          { y with ergImage := some { f with st := .free, owner := none }, imageBad := y.imageBad || bad || f.failed }))))

/-! ### Fibre operations and views -/

/-- R260, R263, R264, R265, R268, R270, R273: a staged operation arrives once the earlier ones of its node have,
takes its place in the order of its fibre, and is served, or refused with its status when it stands at the head; a scan reads its segments one by
one; a completed operation writes dword 1 and then dword 0 of its record, and when the record stands and the earlier
operations of its node have completed the node emits its tokens. -/
def Obligations.FibreEvents : Prop :=
  ∀ (s : State) (id : Nat) (o : FOp) (rg : Region), s.fops.find id = some o → s.rg? o.rid = some rg →
    rg.resident = true →
    let first := ∀ e ∈ s.fops, ¬ (e.1 < id ∧ e.2.sameNode o = true ∧ e.2.half.isNone = true)
    (o.st = .staged → o.noop = false →
      (∀ e ∈ s.fops, ¬ (e.1 < id ∧ e.2.sameNode o = true ∧ e.2.st = .staged ∧ e.2.noop = false)) →
      let o1 : FOp := { o with order := s.nextId, st := .waiting }
      let s1 : State := { s with nextId := s.nextId + 1 }
      exec (.fibreOpArrive id) s = .next ((s1.putFop id o1).serveAll) ∧
      (s1.fopCheck o1 ≠ 0 → o.half = none → o.other = none → o.waited = false →
        (∀ e ∈ s.fops, e.1 ≠ id → e.2.st ≠ .waiting ∧ e.2.st ≠ .held ∧ e.2.st ≠ .scanning) →
        exec (.fibreOpArrive id) s = .next (s1.putFop id
          { o1 with st := .done, status := s1.fopCheck o1, hold := 0, segrd := 0, todo := [] }))) ∧
    (o.st = .scanning → ∀ j more g, o.todo = j :: more →
      (s.fibreAt o.ctx o.addr).segs.find? (fun g => g.num = j) = some g →
      let o1 : FOp := { o with todo := more, got := o.got ++ g.pairs.map (fun p => (p.1, p.2, g.bad)) }
      (more ≠ [] → exec (.scanSegmentDone id) s = .next (s.putFop id o1).serveAll) ∧
      (more = [] → exec (.scanSegmentDone id) s = .next (s.endScan id o1).serveAll)) ∧
    (∀ st, rg.nodes.get (128 * o.blk + o.nidx) {} = st → o.half = none → o.st = .done → o.paused = none →
      o.remote = none → o.trapped = false → o.lost = 0 → st.stopped = none →
      (∀ base pa u, o.stage = 0 → o.rec_ = some base → rg.place.isSome = true →
        xlate s rg.core rg.ctx (base + 8) .write = .ok (.loc pa u) → s.quiesced pa = false →
        let s1 := (s.cache rg.core rg.ctx (base + 8)).settle1 o.rid pa u
        let w := s1.write (s1.keyOf rg.ctx) pa (leBytes 8 o.dw1.toNat)
        exec (.fibreOpComplete id) s =
          .next ((if u then w else w.setTag (sectorOf pa) (w.tagOf o.rid)).putFop id { o with stage := 1 })) ∧
      (∀ base pa u, o.stage = 1 → o.rec_ = some base → rg.place.isSome = true →
        xlate s rg.core rg.ctx base .write = .ok (.loc pa u) → s.quiesced pa = false →
        let s1 := ((s.cache rg.core rg.ctx base).bump o.rid).settle1 o.rid pa u
        let w := s1.write (s1.keyOf rg.ctx) pa (leBytes 8 o.dw0.toNat)
        exec (.fibreOpComplete id) s =
          .next ((if u then w else w.setTag (sectorOf pa) (w.tagOf o.rid)).putFop id { o with stage := 2 })) ∧
      (∀ d, (o.stage = 2 ∨ o.rec_ = none) → st.saved = false → first → s.nodeAt o.rid o.blk o.nidx = some d →
        d.room = true →
        exec (.fibreOpComplete id) s = .next { (d.emitFop o).done with fops := (d.emitFop o).done.fops.del id }))

/-- R295, R298, R301 to R303: the first child that is not settled merges once it has ended, and after the last a final
merge asked for starts; each element of a bank view is combined into the target's element by the operator and the
status bits are ORed; a merge with no view left completes as a release, a child is Merged and its views are free, and
a final merge closes the epoch. -/
def Sys2Proof.Statements.ViewMergeEvents : Prop :=
  ∀ (s : State) (r : Nat) (rg : Region), s.rg? r = some rg → rg.resident = true →
    let e := rg.task.epoch
    (∀ i c, e.merge = none → e.turn = some (i, c) → c.st = .ended →
      exec (.viewMergeStart r) s = .next (s.setRg r (rg.setEpoch { e with
        children := listUpd e.children i (fun c => { c with st := .merging })
        merge := some { src := some i, v := nextView c.views 0 } }))) ∧
    (e.merge = none → e.turn = none → e.fm = .running →
      exec (.viewMergeStart r) s =
        .next (s.setRg r (rg.setEpoch { e with merge := some { src := none, v := nextView e.accs 0 } }))) ∧
    (∀ w a b src, s.mergeAt r = some w → w.v.loc = .bank a → w.x.loc = .bank b → w.x.op < 12 → w.m.x < w.v.count →
      s.rg? (w.bankOf false) = some src → src.bankBad (a + w.m.x * w.v.z) w.v.z = false →
      rg.bankBad (b + w.m.x * w.x.z) w.x.z = false →
      let old := leNat (bankPeek rg.bank (b + w.m.x * w.x.z) w.x.z)
      let new := leNat (bankPeek src.bank (a + w.m.x * w.v.z) w.v.z)
      let y := combine w.x.fmt w.x.op old new
      exec (.viewMergeElement r) s = .next (({ w with
        s := s.updRg r (fun x => x.bankWrite (b + w.m.x * w.x.z) (leBytes w.x.z y.1))
        m := { w.m with owe := y.2, x := w.m.x + 1, gave := w.m.gave.tail } } : Mw).raise y.2).settle) ∧
    (∀ m, e.merge = some m → m.faulted = false → m.remote = none → m.v = viewsDone →
      (∀ i, m.src = some i → exec (.viewMergeComplete r) s = .next ((s.bump r).updRg r (fun x => (x.setEpoch { e with
        merge := none
        children := listUpd e.children i (fun c => { c with st := .merged, views := [] }) }).taskWake))) ∧
      (m.src = none → exec (.viewMergeComplete r) s =
        .next ((s.bump r).updRg r (fun x => (x.setEpoch {}).taskWake))))

/-- R296, R306, R373: a Pending child whose residency fits a run of free pages on a core of its tree's dies takes its place
there and its load begins, in a group of its own (notes/assumptions/153.md); one whose descriptor is refused is Discarded, with
a retire record where RRA is given. That AFF and the contract set of its root's launch bound it is the model's reading of R414
(notes/assumptions/82.md). -/
def Sys2Proof.Statements.ChildPlacement : Prop :=
  ∀ (s : State) (r i : Nat) (rg : Region) (c : Child) (x : Ctx),
    s.rg? r = some rg → rg.task.epoch.children[i]? = some c → s.ctx? rg.ctx = some x →
    c.st = .pending → x.st = .active → x.becoming = none →
    let discarded := s.updChild r i (fun y => { y with st := .discarded, views := [] })
    let refused := fun (rra : W64) (code ix : Nat) =>
      let l := ({ ctx := rg.ctx } : Region).retireRec 1 code ix
      if rra = 0 then discarded else (discarded.storeRetireTail 0 rg.ctx rra l).storeRetireHead 0 rg.ctx rra l
    (∀ code ix, readResidency (devRead s rg.ctx) c.kdesc = .error (code, ix) →
      exec (.childPlaced r i) s = .next (refused (readRra (devRead s rg.ctx) c.kdesc) code ix)) ∧
    (∀ d core first, readResidency (devRead s rg.ctx) c.kdesc = .ok d →
      let nr := { childRegion rg r i c d (s.nextId + 1) with st := .loading }
      let w := s.boundsOf (s.launchOf 64 rg)
      s.bestRun (s.coresFor w.aff nr.erg w.set) (nr.pm1 + 1) = some (core, first) →
      s.pagesOf rg.ctx + nr.pm1 + 1 ≤ x.pageq → s.slotsOf rg.ctx < x.slots →
      let s1 : State := { s with
        nextId := s.nextId + 2
        regions := s.regions.put s.nextId nr
        groups := s.groups.put (s.nextId + 1) { st := .loading, members := [s.nextId], from_ := none, since := s.freeIx } }
      exec (.childPlaced r i) s = .next ((s1.takePlace s.nextId core first w.ctr true).updChild r i
        (fun y => { y with st := .running, rid := some s.nextId })))

/-- R295 to R303, R306, R373: view merges, and the placement of children. -/
def Obligations.ViewsAndChildren : Prop :=
  Statements.ViewMergeEvents ∧ Statements.ChildPlacement

/-! ### Scheduling -/

/-- R359, R361 to R363, R368, R373, R374, R378: the first ready head that can start does so: a record's command, or
the group of a LAUNCH, which loads; the last load of a group starts every member's sequencers, or one that is refused
ends the group; a drained configuration gives up its clone sets and leaves its region armed; a residency that is done
writes dwords 1 to 7 of its record, and then retires with dword 0; a finished WRITE stores its value, and a finished
command's completion record is written, dword 1 and then dword 0, each once what was stored before it has performed, after
which DONE rises. That every member of a group refused at its load retires with status 1, and that each record carries the
code and index of that one refusal, is the model's reading (notes/assumptions/73.md). -/
def Obligations.Dispatch : Prop :=
  ∀ (s : State),
    (∀ x r q, let u0 := s.readHeads
      let t := u0.makeRoom u0.pressRuns
      t.firstStart = some (x, none) → x.what = .record r → t.queue? x.q = some q →
      let u := t.startRecord x.q q r
      (∀ q', u.queue? x.q = some q' → q'.taken = q.taken → exec .dispatchDecision s = .next u) ∧
      (∀ q' q'', u.queue? x.q = some q' → q'.taken ≠ q.taken → (t.age x).queue? x.q = some q'' →
        exec .dispatchDecision s = .next ((t.age x).startRecord x.q q'' r))) ∧
    (∀ x y gid g t, let u := s.readHeads
      u.firstStart = some (x, some y) → x.what = .group gid g → g.st = .pending →
      (u.age x).placeGroup gid { g with skip := (u.queue? x.q).elim 0 (u.headSkip x.q) } (u.openDies x) = some t →
      exec (.groupAdmit gid) s = .next ((u.age x).startGroup x gid t)) ∧
    (∀ gid g, s.group? gid = some g → g.st = .loading → g.members.any s.asleep = false →
      (∀ l, loadAll s g.since (s.liveOf g) = .ok l → exec (.loadComplete gid) s =
        .next (({ l.foldl (fun (s : State) (e : Nat × Image) => (s.startMember e.1 e.2).updRg e.1 Region.fillViews) s with
          selfRefresh := [] } : State).updGroup gid (fun g => { g with st := .running }))) ∧
      (∀ bad code i c, loadAll s g.since (s.liveOf g) = .error (bad, code, i) → s.groupCtx g = some c →
        exec (.loadComplete gid) s = .next ((g.members.foldl (fun (s : State) r => s.retire r 1 code i)
          (s.updGroup gid (fun g => { g with refused := g.members.findIdx? (· = bad) }))).settle c))) ∧
    (∀ r rg, s.rg? r = some rg → rg.live = true → rg.resident = true → s.drained r rg = true →
      exec (.configDrained r) s =
        .next ((s.setRg r { rg with live := false, st := if rg.st = .draining then .draining else .armed }).freeClones r)) ∧
    (∀ r rg, s.rg? r = some rg → s.mayRetire r rg = true → s.devBusy (8192 + r) = false →
      let code := if rg.faulted then 6 else 0
      (rg.rra ≠ 0 → rg.recHalf = false → exec (.residencyRetire r) s =
        .next ((s.devStore { who := 8192 + r, ctx := rg.ctx, va := rg.rra + 8
                             bytes := dwBytes (rg.retireRec code 0 0).tail }).updRg r (fun x => { x with recHalf := true }))) ∧
      (rg.rra = 0 ∨ rg.recHalf = true → exec (.residencyRetire r) s =
        let dead := ((List.range 8).zip rg.eqs).flatMap (fun q => q.2.cmds.map (fun c => (q.1, c.seq)))
        .next ((({ s with
          fops := s.fops.filter (fun (e : Nat × FOp) => e.2.rid != r)
          regions := s.regions.map (fun (e : Nat × Region) =>
            (e.1, dead.foldl (fun (g : Region) x => g.gone r x.1 x.2) e.2)) } : State).retire r code 0 0).settle rg.ctx))) ∧
    (∀ k q t pre post, s.queue? k = some q → q.st ≠ .lost → q.started = pre ++ t :: post → (∀ x ∈ pre, x.seq ≠ t.seq) →
      t.finished = true → t.reported = false → (t.atOnce = true ∨ s.devBusy k = false) → s.groupBusy t = false →
      let (exh, miss) := match s.activation k q t.seq with
        | some (_, _, a) => (a.exh, a.miss)
        | none => (false, false)
      let word := w64 (t.index * 2 ^ 32 + t.code * 2 ^ 24 + (if miss then 2 ^ 9 else 0) + (if exh then 2 ^ 8 else 0) + t.status)
      let cra := (t.rec_.dw.getD 7 0)
      let own := t.status = 0 ∧ t.rec_.cmd = 3
      let put := fun (n : Nat) (va x : W64) => exec (.queueCommandComplete k t.seq) s =
        .next ((s.setQueue k { q with started := q.started.map (fun y => if y.seq = t.seq then { y with stage := n } else y) }).devStore
          { who := k, ctx := q.ctx, va := va, bytes := leBytes 8 x.toNat })
      (t.stage = 0 → own → put 1 (t.rec_.dw.getD 5 0) (t.rec_.dw.getD 6 0)) ∧
      (cra ≠ 0 → (t.stage = 0 ∧ ¬ own) ∨ t.stage = 1 → put 2 (cra + 8) word) ∧
      (cra ≠ 0 → t.stage = 2 → put 3 cra (w64 t.seq)) ∧
      (3 ≤ t.stage ∨ (cra = 0 ∧ (t.stage ≠ 0 ∨ ¬ own)) → pre = [] → post = [] → t.seq = (q.done + 1).toNat →
        let s2 := s.setQueue k { q with done := q.done + 1, started := [] }
        let left := fun (c : Contract) =>
          { c with acts := c.acts.filter (fun a => !(a.queue = k && tailReached (q.done + 1) a.last)) }
        exec (.queueCommandComplete k t.seq) s =
          .next (({ s2 with contracts := s2.contracts.map (fun (e : Nat × Contract) => (e.1, left e.2)) } : State).storeDone k)))

/-- R364, R380, R381, R405, R407 to R409, R412, R415, R416: a budget or window of a contract ends when its cycles have
passed; a node back-pressured for 49,152 of 65,536 cycles gets a clone set, which dissolves when it is no longer
wanted; a notice wakes the sequencers that watched its sector when the write performed, MONARM.CLR not having emptied their
filter since (R133), and a reply clears the watch; a sweep of a quiet
configuration reports the stalled nodes; a claim's move reserves its destination; a remap withdraws the page and takes
a spare. What the model chose: the cycles left of a budget or window pass in one turn (notes/assumptions/115.md), which pages
a clone set borrows (83), what the stall report reads (95), and what becomes of an operator's page (137). -/
def Obligations.CoreServices : Prop :=
  ∀ (s : State),
    (∀ cid core k a, s.contracts.find cid = some k → k.acts.find? (fun a => !a.exh && s.actOn core a) = some a →
      contractHas k core = true →
      let t := s.pass core (k.budget - a.cycles.get core 0)
      let acts := t.contracts.upd cid (fun k => k.setAct a.order (fun a => { a with exh := true }))
      exec (.contractBudgetExhaust cid core) s = .next { t with contracts := acts }) ∧
    (∀ cid k a, s.contracts.find cid = some k → k.acts.find? (fun a => !a.miss) = some a →
      let t := s.pass k.lead (k.window - ((s.core k.lead).cyc - w64 a.at_).toNat)
      let acts := t.contracts.upd cid (fun k => k.setAct a.order (fun a => { a with miss := true }))
      exec (.contractWindowExpire cid) s = .next { t with contracts := acts }) ∧
    (∀ r rg b n, s.rg? r = some rg → rg.live = true → rg.resident = true →
      let st := rg.nodes.get (128 * b + n) {}
      65536 ≤ st.win ∨ 49152 ≤ st.press →
      let s1 := if st.win < 65536 then s
        else s.setRg r { rg with nodes := rg.nodes.put (128 * b + n) { st with win := 0, press := 0 } }
      (st.press < 49152 → exec (.cloneWindow r b n) s = .next s1) ∧
      (49152 ≤ st.press → (∀ x ∈ rg.cloneSets, ¬ (x.1 = b ∧ x.2.1 = n)) → rg.cloneSets.length < 4 →
        let free := (List.range 12).filter (fun p => (s.page rg.core p).st = .free)
        0 < min free.length ((s.ctx? rg.ctx).elim 0 (fun x => x.pageq - s.pagesOf rg.ctx)) →
        ∃ k, 1 ≤ k ∧ k ≤ 3 ∧ k ≤ free.length ∧ exec (.cloneWindow r b n) s =
          .next ((((free.take k).map (fun p => (rg.core, p))).foldl (fun (s : State) (p : Nat × Nat) =>
            s.setPage p.1 p.2 { s.page p.1 p.2 with
              st := .spare, ctx := rg.ctx, member := rg.member, first := rg.first, pm1 := rg.pm1
              ctr := (s.page rg.core rg.first).ctr, rid := some r }) s1).updRg r (fun x =>
              { x with cloneSets := x.cloneSets ++ [(b, n, (free.take k).map (fun p => (rg.core, p)))]
                       clones := min 255 (x.clones + 1) })))) ∧
    (∀ r rg, s.rg? r = some rg → (rg.live = false ∨ rg.faulted = true ∨ rg.snap = true ∨ s.wantsBorrowed rg = true) →
      exec (.cloneDissolve r) s = .next (s.freeClones r)) ∧
    (∀ core sector n, s.notices.find? (fun n => n.core = core && n.sector = sector) = some n →
      let wake := fun (r : Nat) (x : Region) => { x with seqs := ((List.range x.seqs.length).zip x.seqs).map (fun y =>
        if (r, y.1, y.2.clrs) ∈ n.who then y.2.wake else y.2) }
      exec (.monitorNotice core sector) s = .next { s with
        notices := s.notices.erase n
        clears := if s.regions.all (fun (e : Nat × Region) => !e.2.onCore core || e.2.seqs.all (fun q => q.filter = 0))
          then s.clears ++ [(core, sector)] else s.clears
        regions := s.regions.map (fun (e : Nat × Region) => if e.2.onCore core then (e.1, wake e.1 e.2) else e) }) ∧
    (∀ core sec r pg x q, (r, x) ∈ s.regions → x.onCore core = true → x.seqs[pg]? = some q →
      (q.watches sec = true ↔ q.monmask.getLsbD 0 = true ∧ q.filter.getLsbD (sec % 256) = true ∧
        q.filter.getLsbD (sec / 256 % 256) = true) ∧
      (q.watches sec = true → (r, pg, q.clrs) ∈ s.watchers core sec)) ∧
    (∀ core sector, (core, sector) ∈ s.clears → exec (.watchClearReply core sector) s = .next (s.watchClear core sector)) ∧
    (∀ r rg x q, s.rg? r = some rg → rg.live = true → rg.resident = true → rg.seqs ≠ [] → 65536 ≤ rg.quiet →
      rg.swept = false → s.drained r rg = false → s.ctx? rg.ctx = some x → s.queue? x.faultq = some q →
      let s1 := s.setRg r { rg with swept := true, sweeps := rg.sweeps + 1 }
      let l := s1.stallReport r rg
      q.slotsUsed + l.length ≤ q.nslot → rg.leadHalted = false →
      exec (.stallSweep r) s = .next (((s1.pushAll x.faultq l).updSeq r 0 Seq.endSleep).raise r
        { cause := 6, einfo := q.issued + 1 } (.seq 0))) ∧
    (∀ x k g q m t r rg d gid, s.claim = some x → x.what = .group k g → s.queue? x.q = some q → q.claimed = false →
      s.move = none → s.unplaced q.aff (s.groupBounds g).set g.members = some (m, t) →
      s.bestMove t q.aff g (s.coresFor q.aff m.erg (s.groupBounds g).set) (m.pm1 + 1) = some (r, rg, d) → rg.gid = some gid →
      let s1 := s.setRun rg.core d (rg.pm1 + 1) (fun p =>
        { p with st := .reserved, ctx := rg.ctx, member := rg.member, first := d, pm1 := rg.pm1 })
      exec .claimMove s = .next { s1 with
        move := some (r, 12 * rg.core + d)
        queues := s1.queues.upd x.q (fun q => { q with claimed := true })
        groups := s1.groups.upd gid (fun g => g.ask .move) }) ∧
    (∀ core page pos, core < 192 → page < 12 → pos < 8 → s.worn core page pos = true →
      let p := s.page core page
      p.want.contains pos = false →
      (p.st = .free ∨ p.st = .quarantined → exec (.remapRequest core page pos) s =
        .next (s.setPage core page { p with want := p.want ++ [pos], wear := p.wear ++ [pos], st := .quarantined })) ∧
      (p.st ≠ .free → p.st ≠ .quarantined →
        let s1 := s.setPage core page { p with want := p.want ++ [pos], wear := p.wear ++ [pos] }
        (p.ctr = true ∨ s1.holder core page = none → exec (.remapRequest core page pos) s = .next s1) ∧
        (∀ id rg gid, p.ctr = false → s1.holder core page = some id → s1.rg? id = some rg → rg.gid = some gid →
          exec (.remapRequest core page pos) s =
            .next ({ s1 with groups := s1.groups.upd gid (fun g => g.ask .remap) } : State).spoilMove))) ∧
    (∀ core page pos, let p := s.page core page
      p.st = .quarantined → 0 < (s.core core).spLeft →
      (if s.windowOpen then p.want.find? (fun x => !p.wear.contains x) else p.want.head?) = some pos →
      let left := p.want.filter (· != pos)
      let done := { p with remap := p.remap ||| BitVec.ofNat 8 (2 ^ pos), want := left, wear := p.wear.filter (· != pos) }
      let s1 := s.setPage core page (if left = [] then done.clear else done)
      exec (.remapComplete core page) s = .next ((s1.setCore core { s1.core core with
        spLeft := (s.core core).spLeft - 1, wear := (s1.core core).wear.del (8 * page + pos) }).report
          (.remap core page pos)))
/-! ### Snapshots and the outside -/

/-- R384 to R388, R392 to R395: a request stops the members of a running group and abandons a load for a contract; a
node that markers have reached saves, once no clone set is attached, and when no node can fire the rest do (the model's
account of which can is notes/assumptions/84.md); when every image is complete the pages are freed; an
uncorrectable error that the save meets, in a bank too, loses the context at once; a saved group is placed and its members
resume together, or the context is Lost. -/
def Obligations.GroupSnapshots : Prop :=
  ∀ (s : State),
    (∀ gid g why, s.group? gid = some g → g.req = some why →
      (g.st = .running → ¬ (why = .remap ∧ s.windowOpen = true ∧ s.wearOnly g = true) → exec (.preemptRequest gid why) s =
        .next (((s.liveOf g).foldl (fun (s : State) (e : Nat × Region) => s.beginSnap e.1 why) s).updGroup gid
          (fun g => { g with st := .snapshotting }))) ∧
      (∀ c, (g.st = .loading ∨ g.st = .restoring) → why = .contract → (s.abandonPlace gid g).groupCtx g = some c →
        exec (.preemptRequest gid why) s = .next ((s.abandonPlace gid g).settle c))) ∧
    (∀ r rg b n blk cfg, s.rg? r = some rg → rg.nodeCfg b n = some (blk, cfg) → rg.snap = true → rg.live = true →
      rg.cloneSets = [] →
      let st := rg.nodes.get (128 * b + n) {}
      st.saved = false → (∀ i ∈ blk.markerSlots n, (st.slot i).mark = true) →
      exec (.nodeSnapshotSave r b n) s = .next (s.setRg r (rg.saveNode b n cfg.view))) ∧
    (∀ r rg, s.rg? r = some rg → rg.snap = true → rg.live = true → rg.cloneSets = [] →
      (∀ e ∈ rg.allNodes, (rg.nodes.get e.1 {}).saved = false → s.fires r e.1 = false ∧
        ∃ i ∈ e.2.1.markerSlots (e.1 % 128), ((rg.nodes.get e.1 {}).slot i).mark = false) →
      exec (.haboobQuiescence r) s = .next (s.setRg r { rg with
        nodes := rg.allNodes.map (fun e => (e.1, { rg.nodes.get e.1 {} with saved := true })) })) ∧
    (∀ gid g c, s.group? gid = some g → g.st = .snapshotting → s.groupCtx g = some c →
      exec (.snapshotComplete gid true) s = .next (s.lose c .save) ∧
      ((∃ e ∈ s.liveOf g, e.2.unsaved = true) →
        exec (.snapshotComplete gid false) s = .next (s.lose c .save)) ∧
      ((∀ e ∈ s.liveOf g, e.2.unsaved = false ∧ s.imaged e.1 e.2 = true) →
        exec (.snapshotComplete gid false) s =
        .next ((((s.liveOf g).foldl (fun (s : State) (e : Nat × Region) =>
          ((s.leavePlace e.1).withdrawOpers e.1 e.2).updRg e.1 (fun x => { x with st := .saved, snap := false })) s).updGroup gid
            (fun g => { g with st := .saved, req := none })).spoilMove.settle c))) ∧
    (∀ gid g, let u := s.readHeads
      u.group? gid = some g → g.st = .saved →
      (∀ c x t, g.from_ = none → u.groupCtx g = some c → u.ctx? c = some x → x.st = .active → x.becoming = none →
        u.placeGroup gid g 15 = some t → exec (.groupRestore gid) s = .next t) ∧
      (∀ f x y g2 t, g.from_ = some f → u.firstStart = some (x, some y) → x.what = .group gid g2 →
        (u.age x).placeGroup gid g (u.openDies x) = some t →
        exec (.groupRestore gid) s = .next t)) ∧
    (∀ gid g c, s.group? gid = some g → g.st = .restoring → g.members.any s.asleep = false → s.groupCtx g = some c →
      exec (.restoreComplete gid true) s = .next (s.lose c .restore) ∧
      ((∃ e ∈ s.liveOf g, e.2.unsaved = true) → exec (.restoreComplete gid false) s = .next (s.lose c .restore)) ∧
      ((∀ e ∈ s.liveOf g, e.2.unsaved = false) →
        let u := s.updGroup gid (fun g => { g with st := .running })
        exec (.restoreComplete gid false) s =
          .next (((u.liveOf g).foldl (fun (s : State) (e : Nat × Region) => s.resumeMember e.1) u).settle c)))

/-- R333, R390, R417, R420 to R422, R441: a fault whose entry has been written lets its waiters retry; a reply to a remote load ends the sequencer's wait with the value, and a spent
retry budget with the translation trap; the acknowledgement of a store is no longer awaited. An access that arrives
from outside reads or writes its context's memory and is answered; one under another generation is refused and touches
nothing; one of more than 4,096 bytes, or that the profile leaves out, is dropped and counted. That the load's reply acquires
as an access of no tag is the model's reading (notes/assumptions/94.md). -/
def Obligations.RemoteAndOutside : Prop :=
  (∀ (s : State) (id : Nat) (x : Remote) (rg : Region) (q : Seq), s.remotes.find id = some x →
    x.result = none → x.failed = false → s.rg? x.rid = some rg → rg.resident = true → rg.seqs[x.pg]? = some q →
    s.ports.any Port.carries = true →
    (∀ d ty n v, x.kind = .ld → q.wait = some (.ld id d ty n) →
      let s1 : State := { s with remotes := (s.remotes.put id { x with result := some v }).del id }
      exec (.remoteAck id v) s = .next (s1.setSeq x.rid x.pg
        { ({ q with wait := none, pc := q.pc + w64 (4 * n) } : Seq).setG d (tyExtend ty (v.toNat % 2 ^ (8 * tySize ty))) with
          lastTag := some {}, armed := none })) ∧
    (∀ d ty n, x.kind = .ld → q.wait = some (.ld id d ty n) →
      let s1 : State := { s with remotes := (s.remotes.put id { x with failed := true }).del id }
      exec (.remoteRetryExhausted id) s = .next ((s1.setSeq x.rid x.pg { q with wait := none }).trap x.rid x.pg q.pc
        (xlateTrap x.va remoteFault .read))) ∧
    (∀ v, x.kind = .st →
      let s1 : State := { s with remotes := (s.remotes.put id { x with result := some v }).del id }
      exec (.remoteAck id v) s = .next (s1.updSeq x.rid x.pg (fun q => q.acked id)))) ∧
  (∀ (s : State) (x : Rma), s.sec.boot = .running →
    (s.rmaCtx x = false →
      (∀ data, data.length ≤ 4096 → exec (.rmaWrite x data) s = .next s.rmaRefuse) ∧
      (∀ n, n ≤ 4096 → exec (.rmaRead x n) s = .next s.rmaRefuse)) ∧
    (let dropped := ({ s with tele := { s.tele with dropped := s.tele.dropped + 1 } } : State).send .rmaError;
      (∀ data, 4096 < data.length → exec (.rmaWrite x data) s = .next dropped) ∧
      (∀ n, 4096 < n → exec (.rmaRead x n) s = .next dropped)) ∧
    (∀ c, s.ctx? x.ctx = some c → c.st ≠ .lost → c.st ≠ .destroying → c.gen = x.gen → s.sec.life ≠ .decommissioned →
      (∀ (data : List Byte) l, data.length ≤ 4096 → s.outMap x.ctx x.addr data.length .write = some l → exec (.rmaWrite x data) s =
        .next ((s.outWrite x.ctx l data (0, 0, 0) (if x.host then 0xFFF else 0xFFE)).send (.rmaReply []))) ∧
      (∀ n l, n ≤ 4096 → s.outMap x.ctx x.addr n .read = some l →
        exec (.rmaRead x n) s = .next (s.send (.rmaReply (s.outRead x.ctx l)))) ∧
      (∀ (op : Aop) (v cmp : W64) (p : OutPiece), x.addr.toNat % 8 = 0 → s.outMap x.ctx x.addr 8 .atomic = some [p] →
        s.poisonedAt p.pa 8 = false →
        let old := leNat (s.outRead x.ctx [p])
        let t := s.send (.rmaReply (s.outRead x.ctx [p]))
        (amoWrites op old cmp.toNat = false → exec (.rmaAtomic x op true v cmp) s = .next t) ∧
        (amoWrites op old cmp.toNat = true → exec (.rmaAtomic x op true v cmp) s =
          .next (t.write (s.keyOf x.ctx) p.pa (leBytes 8 (amoNew op 8 old v.toNat cmp.toNat))))))) ∧
  (∀ (s : State) (id : Nat) (f : FaultRec), s.faults.find id = some f → f.woken = true →
    exec (.faultRetry id) s = .next { s with
      faults := s.faults.del id
      regions := s.regions.map (fun (e : Nat × Region) => (e.1, e.2.retry id))
      fops := s.fops.map (fun (e : Nat × FOp) =>
        (e.1, { e.2 with paused := if e.2.paused = some id then none else e.2.paused })) }) ∧
  (∀ (s : State) (n : Nat) (p : Port), s.ports[n]? = some p → (p.st = .up ∨ p.st = .degraded) →
    exec (.unsupportedPacket n) s =
      .next (({ s with tele := { s.tele with dropped := s.tele.dropped + 1 } } : State).send (.nack n)))

/-! ### Host commands -/

/-- A command on a context that passes the checks of R422 to R425. -/
structure Sys2Proof.CtxMsg (s : State) (m : Msg) (op : Nat) (win lost : Bool) (n : Nat) (c : Nat) (x : Ctx) : Prop where
  running : s.sec.boot = .running
  opcode : msgOpc m = op
  ctx : msgCtx m = c
  accepted : ctxGate s m op win lost (dwords n m) = 0
  there : s.ctx? c = some x

/-- A command on the device that passes the checks of R423 and R425. -/
structure Sys2Proof.DevMsg (s : State) (m : Msg) (op n : Nat) : Prop where
  running : s.sec.boot = .running
  opcode : msgOpc m = op
  accepted : devGate s m op (dwords n m) = 0

/-- R339 to R351, R411, R423 to R425: DEV_INFO and PAGE_STAT answer; CTX_CREATE makes a context at the lowest free number under a new
generation; each command on a context moves it as the state table says, or is refused with its status and changes
nothing; the end of CTX_SYNC leaves no cached translation of the context; teardown leaves none of its queues,
contracts, pools and translations. What the model chose: the layout of each payload and which of several refusals answers
(notes/assumptions/96.md, 97.md), which descriptors break their map and what the reserved memory holds (98.md), and the order
in which CTX_SYNCs and a teardown answer (101.md). -/
def Obligations.ContextCommands : Prop :=
  (∀ (s : State) (m : Msg),
    let no := fun (st : Nat) => Host.Outcome.next (s.send (.response (msgOpc m) m.tag st []))
    (DevMsg s m 0x01 0 → exec (.devInfo m) s = .next (s.send (.response 0x01 m.tag 0
      [w64 ((s.sec.nodeId.map BitVec.toNat).getD 0), w64 s.sec.life.code, Config.firmwareVersion s.sec.image]))) ∧
    (DevMsg s m 0x02 2 → (msgDw m 0).toNat < 192 → (msgDw m 1).toNat < 12 → exec (.pageStat m) s =
      .next (s.send (.response 0x02 m.tag 0 [s.pageWord (msgDw m 0).toNat (msgDw m 1).toNat]))) ∧
    (∀ c, DevMsg s m 0x10 8 → ctxDescBad m.payload = false → s.freeCtx = some c →
      s.queue? (fld (dw m.payload 6) 0 13) = none → s.reservable (ctxReserve m.payload) = true →
      exec (.ctxCreate m) s = .next ((s.newCtx c m.payload).send (.response 0x10 m.tag 0 [(s.newCtx c m.payload).ctxid c]))) ∧
    (DevMsg s m 0x10 8 → ctxDescBad m.payload = true → exec (.ctxCreate m) s = no 1) ∧
    (DevMsg s m 0x10 8 → ctxDescBad m.payload = false →
      (s.freeCtx = none ∨ (s.queue? (fld (dw m.payload 6) 0 13)).isSome = true ∨ s.reservable (ctxReserve m.payload) = false) →
      exec (.ctxCreate m) s = no 2) ∧
    (∀ st, s.sec.boot = .running → msgOpc m = 0x10 → devGate s m 0x10 (dwords 8 m) = st → st ≠ 0 →
      exec (.ctxCreate m) s = no st)) ∧
  (∀ (s : State) (m : Msg) (c : Nat) (x : Ctx),
    let ok := fun (t : State) => Host.Outcome.next (t.send (.response (msgOpc m) m.tag 0 []))
    let no := fun (st : Nat) => Host.Outcome.next (s.send (.response (msgOpc m) m.tag st []))
    (CtxMsg s m 0x11 false true m.payload.length c x → 9 ≤ m.payload.length →
      (x.st = .created → exec (.ctxKey m) s = ok (s.setCtx c { x with st := .keyed, keys := m.payload.drop 1 })) ∧
      (x.st ≠ .created → exec (.ctxKey m) s = no 3)) ∧
    (CtxMsg s m 0x12 false true 1 c x →
      (x.st = .keyed → exec (.ctxStart m) s = ok (s.setCtx c { x with st := .active })) ∧
      (x.st ≠ .keyed → exec (.ctxStart m) s = no 3)) ∧
    (CtxMsg s m 0x13 false true 1 c x →
      (x.st = .active → x.becoming = none →
        exec (.ctxSuspend m) s = .next (s.hold c .suspended [.response 0x13 m.tag 0 []])) ∧
      (x.st ≠ .active → exec (.ctxSuspend m) s = no 3)) ∧
    (CtxMsg s m 0x14 false true 1 c x →
      ((x.st = .suspended ∨ x.st = .faulted) → x.becoming = none →
        exec (.ctxResume m) s = ok ((s.setCtx c { x with st := .active }).refillAll c x.heldRecs.length)) ∧
      (x.st ≠ .suspended → x.st ≠ .faulted → exec (.ctxResume m) s = no 3)) ∧
    (CtxMsg s m 0x15 false true 1 c x →
      let t := if x.st = .active ∨ x.st = .suspended ∨ x.st = .faulted then s.stop c .destroying .destroy else s
      let gone := fun (x : Ctx) => { x with st := .destroying, becoming := none, note := [.response 0x15 m.tag 0 []] }
      exec (.ctxDestroy m) s = .next { t with ctxs := t.ctxs.upd c gone }) ∧
    (CtxMsg s m 0x16 false true 5 c x → 1 ≤ (msgDw m 1).toNat → (msgDw m 1).toNat ≤ 8192 → 1 ≤ (msgDw m 2).toNat →
      (msgDw m 2).toNat ≤ 2304 → (msgDw m 3).toNat ≤ 256 → (msgDw m 4).toNat ≤ 294912 →
      exec (.ctxQuota m) s = ok (s.setCtx c { x with
        nq := (msgDw m 1).toNat, pageq := (msgDw m 2).toNat, spq := (msgDw m 3).toNat, pinq := (msgDw m 4).toNat })) ∧
    (CtxMsg s m 0x17 false false 1 c x →
      exec (.ctxSync m) s = .next (s.setCtx c { x with syncs := x.syncs ++ [m] })) ∧
    (∀ more, s.ctx? c = some x → x.syncs = m :: more →
      exec (.ctxSyncDone c) s = ok { s with
        ctxs := s.ctxs.put c { x with syncs := more }
        cores := s.cores.map (fun (e : Nat × Core) => (e.1, { e.2 with tlb := e.2.tlb.filter (fun t => t.ctx != c) }))
        faults := s.faults.map (fun (e : Nat × FaultRec) => if e.2.ctx = c then (e.1, { e.2 with woken := true }) else e) }) ∧
    (s.ctx? c = some x → x.st = .destroying → ∃ t, exec (.contextTeardownDone c) s = .next t ∧ t.ctx? c = none ∧
      (∀ e ∈ t.queues, e.2.ctx ≠ c) ∧ (∀ e ∈ t.contracts, e.2.ctx ≠ c) ∧ (∀ e ∈ t.pools, e.1 / 4096 ≠ c) ∧
      (∀ e ∈ t.cores, ∀ u ∈ e.2.tlb, u.ctx ≠ c) ∧ t.sent = s.sent ++ x.syncs.map (fun m => .response (msgOpc m) m.tag 0 []) ++ x.note ∧ t.mem = s.mem))

/-- R248, R249, R352 to R367: queues, contracts and pools. -/
def Sys2Proof.Statements.Queues : Prop :=
  ∀ (s : State) (m : Msg) (c : Nat) (x : Ctx),
    let ok := fun (t : State) => Host.Outcome.next (t.send (.response (msgOpc m) m.tag 0 []))
    let no := fun (st : Nat) => Host.Outcome.next (s.send (.response (msgOpc m) m.tag st []))
    let k := (msgDw m 1).toNat
    let d := m.payload.drop 1
    (CtxMsg s m 0x20 false false 9 c x → queueDescBad d = false → ({ ctx := c, desc := d } : Queue).cid = none →
      (∀ q, s.queue? (fld (dw d 0) 32 13) = some q → exec (.qCreate m) s = no 4) ∧
      (s.queue? (fld (dw d 0) 32 13) = none → x.nq ≤ s.queuesOf c → exec (.qCreate m) s = no 5) ∧
      (s.queue? (fld (dw d 0) 32 13) = none → s.queuesOf c < x.nq → (bit (dw d 0) 8 = true → s.reservable (64 * fld (dw d 0) 16 16) = true) →
        exec (.qCreate m) s = ok (s.setQueue (fld (dw d 0) 32 13) { ctx := c, desc := d })) ∧
      (s.queue? (fld (dw d 0) 32 13) = none → s.queuesOf c < x.nq → bit (dw d 0) 8 = true →
        s.reservable (64 * fld (dw d 0) 16 16) = false → exec (.qCreate m) s = no 2)) ∧
    (∀ q, s.queue? k = some q → q.ctx = c →
      (CtxMsg s m 0x21 false true 2 c x →
        (q.st = .disabled → exec (.qEnable m) s = ok (s.setQueue k { q with st := .enabled })) ∧
        (q.st ≠ .disabled → exec (.qEnable m) s = no 3)) ∧
      (CtxMsg s m 0x22 false true 2 c x →
        ((q.st = .enabled ∨ q.st = .stopped) → exec (.qDisable m) s = ok (s.setQueue k { q with st := .disabled })) ∧
        (q.st ≠ .enabled → q.st ≠ .stopped → exec (.qDisable m) s = no 3)) ∧
      (CtxMsg s m 0x25 false true 2 c x →
        (q.st = .stopped → exec (.qRestart m) s =
          ok (s.setQueue k { q with st := .enabled, store := if q.dev then q.store else [] })) ∧
        (q.st ≠ .stopped → exec (.qRestart m) s = no 3)) ∧
      (CtxMsg s m 0x24 false true 2 c x → q.st = .disabled → q.consuming = false →
        exec (.qFlush m) s = ok ((s.dropPending k q).flush k (q.issued - q.taken).toNat)) ∧
      (CtxMsg s m 0x26 false true 2 c x → q.st ≠ .enabled → x.faultq ≠ k → (∀ t ∈ q.started, t.reported = true) →
        exec (.qDestroy m) s = ok { s.dropPending k q with
          queues := (s.dropPending k q).queues.del k, goneQ := (s.dropPending k q).goneQ.put k (c, q.done)
          contracts := (s.dropPending k q).contracts.map
            (fun (e : Nat × Contract) => (e.1, { e.2 with acts := e.2.acts.filter (fun a => a.queue != k) })) }) ∧
      (CtxMsg s m 0x27 true false 2 c x → q.consuming = true → (q.st = .disabled ∨ q.st = .enabled) →
        (s.takeRec k = none → exec (.qPop m) s = no 12) ∧
        (∀ l t, s.takeRec k = some (l, t) →
          exec (.qPop m) s = .next (t.send (.response 0x27 m.tag 0 ((List.range 8).map (dw l))))))) ∧
    (∀ q, CtxMsg s m 0x23 true false 3 c x → let j := fld (msgDw m 1) 0 13
      s.queue? j = some q → q.ctx = c → q.dev = false → (q.st = .disabled ∨ q.st = .enabled) →
      (msgDw m 2 = q.issued → exec (.qTail m) s = ok s) ∧
      (msgDw m 2 ≠ q.issued → tailReached (msgDw m 2) q.issued = true → q.cid = none →
        exec (.qTail m) s = ok (s.setQueue j { q with issued := msgDw m 2, tails := q.tails ++ [(msgDw m 2, s.freeIx)] }))) ∧
    (CtxMsg s m 0x30 false false 9 c x → contractDescBad d = false →
      ∀ n, (List.range 256).find? (fun n => (s.contracts.find n).isNone) = some n →
      (admits (s.contracts.map (·.2)) { ctx := c, desc := d } = true → exec (.contractCreate m) s =
        .next (({ s with contracts := s.contracts.put n { ctx := c, desc := d } } : State).send
          (.response 0x30 m.tag 0 [w64 n]))) ∧
      (admits (s.contracts.map (·.2)) { ctx := c, desc := d } = false → exec (.contractCreate m) s = no 6)) ∧
    (∀ y, CtxMsg s m 0x31 false true 2 c x → s.contracts.find k = some y → y.ctx = c →
      (∀ e ∈ s.queues, e.2.cid ≠ some k) → exec (.contractDestroy m) s =
        .next (({ s with contracts := s.contracts.del k } : State).send (.response 0x31 m.tag 0 [w64 k]))) ∧
    (CtxMsg s m 0x38 false false 5 c x → poolDescBad (d.take 2) = false → 1 ≤ (msgDw m 3).toNat →
      (msgDw m 3).toNat ≤ 2 ^ 44 → 1 ≤ (msgDw m 4).toNat → (msgDw m 4).toNat < 2 ^ 32 →
      let p : Pool := { d0 := dw (d.take 2) 0, fibres := (msgDw m 3).toNat, perStack := (msgDw m 4).toNat }
      let key := 4096 * c + fld (dw (d.take 2) 0) 40 12
      ((s.pools.find key).isSome = true → exec (.poolReg m) s = no 4) ∧
      (s.pools.find key = none → s.fibUsed c + p.charge ≤ 2 ^ 20 * fld (dw x.desc 7) 0 16 →
        exec (.poolReg m) s = ok { s with pools := s.pools.put key p })) ∧
    (CtxMsg s m 0x39 false false 5 c x → let n := fld (msgDw m 1) 40 12
      (s.pools.find (4096 * c + n)).isSome = true → (∀ e ∈ s.fops, ¬ (e.2.ctx = c ∧ e.2.onPool = true ∧ fibrePoolNo e.2.addr = n)) →
      exec (.poolFree m) s = ok { s with
        pools := s.pools.del (4096 * c + n)
        fibres := s.fibres.filter (fun (e : Nat × Fibre) => e.1 / 2 ^ 44 != 4096 * c + n) })

/-- R40, R324, R419, R424: the window's memory commands and channel bindings. -/
def Sys2Proof.Statements.HostMemory : Prop :=
  ∀ (s : State) (m : Msg) (c : Nat) (x : Ctx),
    let ok := fun (t : State) => Host.Outcome.next (t.send (.response (msgOpc m) m.tag 0 []))
    let no := fun (st : Nat) => Host.Outcome.next (s.send (.response (msgOpc m) m.tag st []))
    let data := dwBytes (m.payload.drop 3)
    (CtxMsg s m 0x40 true false m.payload.length c x → 3 ≤ m.payload.length → bit (msgDw m 2) 24 = false →
      (s.outMap c (msgDw m 1) data.length .write = none → exec (.memWrite m) s = no 11) ∧
      (∀ l, s.outMap c (msgDw m 1) data.length .write = some l →
        exec (.memWrite m) s = ok (s.outWrite c l data (0, 0, 0) 0xFFF))) ∧
    (CtxMsg s m 0x41 true false 3 c x → (msgDw m 2).toNat ≤ 4080 →
      (s.outMap c (msgDw m 1) (msgDw m 2).toNat .read = none → exec (.memRead m) s = no 11) ∧
      (∀ l, s.outMap c (msgDw m 1) (msgDw m 2).toNat .read = some l → exec (.memRead m) s =
        .next ((s.rouseVa c (msgDw m 1) (msgDw m 2).toNat).send (.response 0x41 m.tag 0 (leDwords (((msgDw m 2).toNat + 7) / 8) (s.outRead c l)))))) ∧
    (CtxMsg s m 0x48 false false 4 c x → (msgDw m 1).toNat < 64 → (msgDw m 2).toNat < 65536 →
      fld (msgDw m 3) 10 6 = 0 → fld (msgDw m 3) 32 32 = 0 →
      let b : ChanBind := { rnode := .ofNat 16 (msgDw m 2).toNat, rctx := fld (msgDw m 3) 0 10, rgen := .ofNat 16 (fld (msgDw m 3) 16 16) }
      exec (.chanBind m) s = ok (s.setCtx c { x with chans := x.chans.put (msgDw m 1).toNat b }))

/-- R40, R248, R249, R324, R352 to R367, R419, R424: what each command of a host does to queues, contracts, pools, memory and channels, and
the response it sends. What the model chose: the payload layouts (notes/assumptions/97.md), the Pending group that leaves with
its record (99.md), the lowest free contract number (100.md), what pends on a pool (128.md) and what is known of a queue
destroyed (130.md). -/
def Obligations.QueueAndMemoryCommands : Prop :=
  Statements.Queues ∧ Statements.HostMemory

/-! ### Links, identity and power -/

/-- R426, R427: the ports. -/
def Sys2Proof.Statements.Links : Prop :=
  (∀ (s : State) (m : Msg) (p : Port),
    let n := (msgDw m 0).toNat
    s.ports[n]? = some p →
    let ok := fun (t : State) => Host.Outcome.next (t.send (.response (msgOpc m) m.tag 0 []))
    (DevMsg s m 0x50 1 → ∃ ll fe, ll ≤ p.llrr ∧ fe ≤ p.ferr ∧
      exec (.linkStat m) s = .next (s.send (.response 0x50 m.tag 0 [p.word ll fe])) ∧
      fld (p.word ll fe) 0 8 = p.st.code ∧ fld (p.word ll fe) 8 8 = p.tries % 256 ∧ fld (p.word ll fe) 16 8 = p.lanes % 256 ∧
      fld (p.word ll fe) 32 16 = min fe 65535 ∧ fld (p.word ll fe) 48 16 = min ll 65535) ∧
    (DevMsg s m 0x51 1 → p.st ≠ .isolated → exec (.linkIsolate m) s =
      ok (s.setPort n { p with st := .isolated, lanes := 0, timer := false, low := false })) ∧
    (DevMsg s m 0x52 1 → p.st = .isolated → ∃ f l, ((f, l) = (p.ferr, p.llrr) ∨ (f, l) = (0, 0)) ∧ exec (.linkRestore m) s =
      ok (s.setPort n { p with st := .training, lanes := 0, tries := 1, timer := false, low := false, ferr := f, llrr := l }))) ∧
  (∀ (s : State) (n : Nat) (p : Port), s.ports[n]? = some p →
    let now := fun (q : Port) => Host.Outcome.next (s.setPort n q)
    let train := fun (k : Nat) => { p with st := .training, lanes := 0, tries := min 255 k, timer := false, low := false }
    (s.sec.boot = .running → p.st = .down → p.timer = false → exec (.linkEnable n) s = now (train (p.tries + 1))) ∧
    (p.st = .down → p.timer = true → exec (.linkRetryTimer n) s = now (train (p.tries + 1))) ∧
    (p.st = .training →
      exec (.linkTrainingEnd n 8) s = now { p with st := .up, lanes := 8, tries := 0 } ∧
      (∀ l, 4 ≤ l → l < 8 → exec (.linkTrainingEnd n l) s = now { p with st := .degraded, lanes := l }) ∧
      (∀ l, l < 4 → p.tries < 3 → exec (.linkTrainingEnd n l) s = now (train (p.tries + 1))) ∧
      (∀ l, l < 4 → 3 ≤ p.tries → exec (.linkTrainingEnd n l) s = now { p with st := .down, timer := true })) ∧
    (∀ l, l < p.lanes → (p.st = .up → 4 ≤ l → exec (.linkLaneFail n l) s = now { p with st := .degraded, lanes := l }) ∧
      (p.st = .up → l < 4 → exec (.linkLaneFail n l) s = now (train p.tries)) ∧
      (p.st = .degraded → exec (.linkLaneFail n l) s = now (train p.tries))) ∧
    (p.st ≠ .isolated → 16 < p.ferr → exec (.linkFerrIsolate n) s =
      now { p with st := .isolated, lanes := 0, timer := false, low := false }) ∧
    ((p.st = .up ∨ p.st = .degraded) →
      ∃ f l, ((f, l) = (p.ferr, p.llrr) ∨ (f, l) = (0, 0)) ∧
        exec (.linkLevelRetry n true) s = now { p with ferr := min 65535 (f + 1), llrr := l } ∧
        exec (.linkLevelRetry n false) s = now { p with ferr := f, llrr := min 65535 (l + 1) }) ∧
    exec (.linkEqualisation n) s = .next s)

/-- R447 to R454: boot, attestation, lifecycle and debug unlock. -/
def Sys2Proof.Statements.Identity : Prop :=
  (∀ (s : State), s.sec.boot = .running → s.sec.life ≠ .decommissioned →
    let y := s.sec
    let say := fun (l : List Byte) => l ++ signWith y.aliasKey l
    (∀ tag nonce,
      exec (.getDigests tag) s = .next (s.send (.spdm tag (digestBytes (sha384 y.chain)))) ∧
      exec (.getCertificate tag) s = .next (s.send (.spdm tag y.chain)) ∧
      exec (.challenge tag nonce) s =
        .next (s.send (.spdm tag (say (digestBytes (sha384 y.chain) ++ y.measured 8 ++ nonce)))) ∧
      exec (.getMeasurements tag nonce) s = .next (s.send (.spdm tag (say (y.measured 8 ++ nonce)))) ∧
      exec (.getVersion tag) s = .next (s.send (.spdm tag (leBytes 2 0x1300))) ∧
      exec (.getCapabilities tag) s = .next (s.send (.spdm tag (leBytes 4 0x16))) ∧
      exec (.negotiateAlgorithms tag) s = .next (s.send (.spdm tag (leBytes 4 2 ++ Config.extAlgorithm)))) ∧
    (∃ l, exec .dbgNonce s = .next (({ s with sec := { y with nonce := some l } } : State).send (.spdm 0 l)) ∧ l.length = 32) ∧
    (∀ x, let done := fun (z : Security) => Host.Outcome.next (({ s with sec := z } : State).send (.lifecycle true))
      let no := Host.Outcome.next (s.send (.lifecycle false))
      (y.life = .manufacture → sha384 x.key = Config.manufacturingDigest → ecdsaVerify x.key x.data x.sig = true →
        48 ≤ x.data.length → exec (.provision x) s = done (({ y with
          life := .provisioned, teleAddr := x.data.drop 48
          ownerDigest := some (.ofNat 384 (beNat (x.data.take 48))) } : Security).extendM3.extendM4)) ∧
      (y.life ≠ .manufacture → exec (.provision x) s = no) ∧
      (∀ node, y.life = .provisioned → y.owned x (1 :: leBytes 2 node.toNat) = true →
        exec (.setNode x node) s = done (({ y with nodeId := some node, nonce := none } : Security).extendM4)) ∧
      (y.life = .provisioned → y.nodeId.isSome = true → y.owned x [2] = true →
        exec (.deploy x) s = done (({ y with life := .deployed, nonce := none } : Security).extendM3)) ∧
      (y.life ≠ .provisioned → exec (.deploy x) s = no) ∧
      (y.owned x [3] = true → ∃ t, exec (.decommission x) s = .next t ∧ t.sec.life = .decommissioned ∧
        t.sec.seed = false ∧ t.sec.nonce = none ∧ (∀ e ∈ t.ctxs, e.2.keys = []) ∧ t.mem = s.mem) ∧
      (y.owned x [3] = false → exec (.decommission x) s = no)) ∧
    (∀ t, (y.tokenOk t = false → exec (.dbgUnlock t) s = .next (s.send (.lifecycle false))) ∧
      (y.tokenOk t = true → y.life ≠ .provisioned → y.life ≠ .deployed →
        exec (.dbgUnlock t) s = .next (({ s with sec := { y with nonce := none } } : State).send (.lifecycle false))) ∧
      (y.tokenOk t = true → (y.life = .provisioned ∨ y.life = .deployed) → ∃ u, exec (.dbgUnlock t) s = .next u ∧ u.sec.life = .debugUnlocked ∧ u.sec.unlockFrom = y.life ∧
        u.sec.unlocks = y.unlocks + 1 ∧ u.sec.nonce = none ∧ (∀ e ∈ u.ctxs, e.2.keys = [])))) ∧
  (∀ (s : State) (tag : Nat) (i : Instr), s.sec.boot = .running → s.sec.life = .decommissioned →
    i = .getVersion tag ∨ i = .getDigests tag ∨ i = .getCertificate tag ∨ i = .dbgNonce →
    exec i s = .next (s.send (.refusal 3))) ∧
  (∀ (s : State) (off : Nat) (data : List Byte), s.sec.boot = .streaming → data.length ≤ 4096 →
    let x : Security := { s.sec with image := slotWrite s.sec.image off data }
    exec (.bootImagePacket off data false) s = .next { s with sec := x } ∧
    (x.imageOk = true → exec (.bootImagePacket off data true) s = .next { s with sec := x.bootFalim }) ∧
    (x.imageOk = false → exec (.bootImagePacket off data true) s = .next { s with sec := { x with boot := .streaming, image := [] } })) ∧
  (∀ (s : State), ∃ t, exec .coldReset s = .next t ∧ t.mem = [] ∧ t.ctxs = [] ∧ t.regions = [] ∧ t.sec = s.sec.romStart ∧
    (∀ e ∈ t.cores, e.2.cyc = 0 ∧ ∃ f ∈ s.cores, f.1 = e.1 ∧ e.2.spLeft = f.2.spLeft ∧
      e.2.pages.map (·.remap) = f.2.pages.map (·.remap))) ∧
  (∀ (s : State), ∃ t, exec .warmReset s = .next t ∧ t.mem = s.mem ∧ (∀ e ∈ t.cores, ∃ f ∈ s.cores, f.1 = e.1 ∧ e.2.cyc = f.2.cyc))

/-- R455 to R459: power states, limits and services. -/
def Sys2Proof.Statements.Power : Prop :=
  ∀ (s : State),
    (∀ core, core < 192 → (s.core core).waking = false → s.idle core = true →
      let d := s.deepest core
      let s1 := if (s.core core).power = d then s else s.report (.power core d)
      let t := s1.setCore core { s.core core with power := d }
      ∃ dozing ports, exec (.powerStateEnter core) s = .next { t with selfRefresh := dozing, ports := ports } ∧
        (∀ k ∈ dozing, k ∈ s.selfRefresh ∨ (t.allAt .selfRefresh = true ∧ k < 12 ∧ k ∉ s.retraining)) ∧
        (∀ (n : Nat) (p : Port), ports[n]? = some p → s.ports[n]? = some p ∨
          ∃ q, s.ports[n]? = some q ∧ p = { q with low := true } ∧ t.allAt .linkLow = true ∧ q.carries = true)) ∧
    (∀ core, core < 192 → (s.core core).power ≠ .active →
      ((s.core core).waking = true ∨ (s.deepest core).depth < (s.core core).power.depth) →
      exec (.powerStateWake core) s =
        .next ((s.setCore core { s.core core with power := .active, waking := false }).report (.power core .active))) ∧
    (∀ l, (s.shutDown l).sec.boot = .shutDown ∧ (s.shutDown l).mem = [] ∧ (s.shutDown l).regions = [] ∧
      (s.sec.boot = .running → (∃ p ∈ s.ports, p.st = .up ∨ p.st = .degraded) →
        (s.shutDown l).sent = s.sent ++ l.map Sent.telemetry)) ∧
    (∀ temps, ((∃ t ∈ temps, (110 : Int) ≤ t) → exec (.thermalSensing temps) s =
        .next (s.shutDown (if s.throttle then [.thermal 110 true] else [.thermal 100 true, .thermal 110 true]))) ∧
      ((∀ t ∈ temps, t < (110 : Int)) → (∃ t ∈ temps, (100 : Int) < t) → s.throttle = false →
        exec (.thermalSensing temps) s = .next { s.report (.thermal 100 true) with throttle := true }) ∧
      ((∀ t ∈ temps, t < (95 : Int)) → s.throttle = true → exec (.thermalSensing temps) s =
        .next { s.report (.thermal 95 false) with throttle := false })) ∧
    exec .supplyFault s = .next (s.shutDown [.supply]) ∧
    (∀ stack sector, s.windowOpen = true → installed (64 * sector) = true → homeStack (64 * sector) = stack →
      exec (.hbmPatrolScrub stack sector) s = .next s ∨
      exec (.hbmPatrolScrub stack sector) s = .next (s.report (.delay stack))) ∧
    (s.windowOpen = false →
      (∀ stack sector, installed (64 * sector) = true → homeStack (64 * sector) = stack → s.quiesced (64 * sector) = false →
        let k := rowKey stack (Config.rowOf sector)
        ∃ n c, n ≤ c ∧ c ≤ s.rowErrs.get k 0 + n ∧ exec (.hbmPatrolScrub stack sector) s =
          .next ((({ s with rowErrs := s.rowErrs.store k c 0 } : State).rouse sector).corrected n)) ∧
      (∀ core, core < 192 → ∃ n, exec (.sramScrub core) s = .next (s.corrected n) ∨
        ∃ d c, d < 96 ∧ n ≤ c ∧ c ≤ (s.core core).wear.get d 0 + n ∧ exec (.sramScrub core) s =
          .next ((s.setCore core { s.core core with wear := (s.core core).wear.store d c 0 }).corrected n)) ∧
      (∀ stack, stack < 12 → stack ∉ s.retraining → exec (.hbmRetraining stack) s =
        .next { s with retraining := s.retraining ++ [stack], selfRefresh := s.selfRefresh.filter (· != stack) }) ∧
      (∀ stack row, stack < 12 → (stack, row) ∉ s.repairing → 4 ≤ s.rowErrs.get (rowKey stack row) 0 →
        exec (.hbmRowRepair stack row) s = .next { s with
          repairing := s.repairing ++ [(stack, row)], selfRefresh := s.selfRefresh.filter (· != stack) })) ∧
    (∀ stack, exec (.hbmRetrainingDone stack) s = .next { s with retraining := s.retraining.filter (· != stack) }) ∧
    (∀ stack row, (stack, row) ∈ s.repairing → exec (.hbmRowRepairDone stack row) s = .next { s with
      repairing := s.repairing.filter (· != (stack, row)), rowErrs := s.rowErrs.del (rowKey stack row) }) ∧
    (∀ r rest, s.sec.boot = .running → s.tele.pending = r :: rest →
      ((∃ p ∈ s.ports, p.st = .up ∨ p.st = .degraded) → exec .telemetryRecord s =
        .next (({ s with tele := { s.tele with pending := rest, sent := s.tele.sent + 1 } } : State).wakePort.send
          (.telemetry r))) ∧
      ((∀ p ∈ s.ports, p.st ≠ .up ∧ p.st ≠ .degraded) → exec .telemetryRecord s =
        .next { s with tele := { s.tele with pending := rest, lost := s.tele.lost + 1 } }))

/-- R24, R411, R426, R427, R447 to R459: ports, boot and resets, attestation, lifecycle and debug unlock, power states
and the services of the package. What the model chose: the bytes of memory after a cold reset (notes/assumptions/2.md), when
a port is enabled and which of its counts are a millisecond old (104.md), what signed requests, messages and certificates carry
(105.md, 106.md, 147.md), and how many errors a scrub meets (108.md). -/
def Obligations.DeviceEvents : Prop := Statements.Links ∧ Statements.Identity ∧ Statements.Power

/-! ### Steps, encodings, reset and memory -/

/-- R21, R109, R113, R187, R319 (the order of turns is the model's, notes/assumptions/3.md): when the words at the pc of a
sequencer that can execute decode to an instruction its mode may execute, a step executes exactly that instruction
after the turn's cycles, its own stores to the words it fetches having performed (R319); a failed check is executed as its
fetch fault; a step of a node executes the instruction its
words decode to, where its dune's round grants it the lanes; a step of an event is that event; a packet that the
transport takes and whose session is its own executes its command; a step of the management core is the instruction that
Falim's image gives it. -/
def Obligations.StepRunsDecoded : Prop :=
  ∀ (s : State),
    (∀ r pg rest rg q q1, s.agenda = .seq r pg :: rest →
      let t0 := s.began (.seq r pg)
      let t := t0.fetchAfter r pg rg q
      let u := t.setSeq r pg { q1 with prevTurn := q1.lastTurn, lastTurn := t.freeIx }
      t0.sec.boot ≠ .shutDown → t0.seqTurn r pg = .fetch rg q → enterSegment t rg ((t.seq? r pg).getD q) = .ok q1 →
      (∀ seg w0 w1 w2 i, q1.pc.toNat % 4 = 0 → q1.seg = some seg → seg.holds q1.pc = true → seg.inPool q1.pc = false →
        fetchWord u rg.core rg.ctx q1.entered q1.pc = .ok w0 → w0 % 4 ≠ 3 →
        laterWords u rg seg q1.entered q1.pc (w0 % 4) = .ok (w1, w2) →
        opClass (w0 / 4 % 256) ≠ .reserved → opClass (w0 / 4 % 256) ≠ .node → opClass (w0 / 4 % 256) ≠ .fibre →
        decodeWords w0 w1 w2 = .ok i → modeCheck q1.mode i = none →
        step s = exec i { u.cache rg.core rg.ctx q1.pc with agent := .seq r pg }) ∧
      (∀ e, fetchAt u rg { q1 with prevTurn := q1.lastTurn, lastTurn := t.freeIx } = .error e → step s = exec (.fetchFault e) { u with agent := .seq r pg })) ∧
    (∀ r b n rest rg blk cfg w0 w1 w2 i, s.agenda = .node r b n :: rest →
      let t := s.began (.node r b n)
      t.sec.boot ≠ .shutDown → t.rg? r = some rg → rg.nodeCfg b n = some (blk, cfg) →
      (rg.st = .running ∨ rg.st = .draining) → rg.live = true → (rg.nodes.get (128 * b + n) {}).stopped = none →
      (rg.nodes.get (128 * b + n) {}).saved = false →
      t.outranked r rg cfg.dune (128 * b + n) = false → cfg.instr? = some (w0, w1, w2) → decodeWords w0 w1 w2 = .ok i →
      step s = exec i { t with agent := .node r b n }) ∧
    (∀ i rest, s.agenda = .event i :: rest → isEvent i = true →
      let t := s.began (.event i)
      t.sec.boot ≠ .shutDown → step s = exec i { t with agent := .none }) ∧
    (∀ v i rest, s.agenda = .packet v i :: rest → (packetOf i).isSome = true →
      let t := s.began (.packet v i)
      t.sec.boot ≠ .shutDown →
      ((t.delivered v i).2 = true → step s = exec i { (t.delivered v i).1 with agent := .none }) ∧
      (t.receive v = none → step s = .next t)) ∧
    (∀ i j t2 rest, s.agenda = .mgmt (.run i) :: rest →
      let t := s.began (.mgmt (.run i))
      t.sec.boot ≠ .shutDown → t.mgmtReady = true → mgmtInstr t.sec.mgmt.mode i = some j → exec j t.mgmtIn = .next t2 →
      step s = .next t2.mgmtOut) ∧
    (∀ r pg rg q st rest, s.agenda = .seq r pg :: rest → st ∈ q.stores →
      let t0 := s.began (.seq r pg)
      let t := t0.fetchAfter r pg rg q
      t0.sec.boot ≠ .shutDown → t0.seqTurn r pg = .fetch rg q → q.xfer = false →
      (∃ p ∈ segPas t0 rg.core rg.ctx { base := q.pc, len := 3, pools := [] }, p.1 < st.pa + st.bytes.length ∧ st.pa < p.1 + p.2) →
      t = t0.drain r pg)

/-- R85 to R98, worked encodings of chapters 05, 06, 07, 10 and 11: these words decode to these instructions. -/
def Obligations.WorkedEncodings : Prop :=
  let g : Guard := ⟨0, false⟩
  decodeWords 0x40010451 4 0 = .ok (.cmpSi g .lt 1 2 4) ∧ decodeWords 0x2041B450 0 0 = .ok (.cmp g .geu 5 3 4) ∧
  decodeWords 0x0000088D 0xBB8 0 = .ok (.sleepSi g 2 3000) ∧ decodeWords 0x00020CDD 0x00100002 0 = .ok (.csrx g 3 4 .acs 0 4) ∧
  decodeWords 0xA093986D 0x09000008 0 = .ok (.amo g .cas .i64 6 7 9 8) ∧
  decodeWords 0x00000C85 0xFFFFFFE8 0 = .ok (.loop g 3 0xFFFFFFE8) ∧
  decodeWords 0x00021924 0 0 = .ok (.scatter g 6 4) ∧ decodeWords 0x00001D11 0x10 0 = .ok (.sstatSi g 7 0 2) ∧
  decodeWords 0x00001551 0x14 0 = .ok (.qseqSi g false 5 20) ∧ decodeWords 0x00021558 0 0 = .ok (.bararr g 5 4) ∧
  decodeWords 0x0052095C 0 0 = .ok (.bartest g 2 4 5) ∧
  decodeWords 0x00001995 0x1000 0 = .ok (.eevalSi g 6 0 1) ∧ decodeWords 0x00001D89 1 0 = .ok (.eselSi g 7 1 0) ∧
  decodeWords 0x00020560 0 0 = .ok (.spawn g 1 4) ∧ decodeWords 0x00941D64 0 0 = .ok (.vdecl g 7 8 9) ∧
  decodeWords 0x20028D68 0 0 = .ok (.tendChild g 3 5) ∧ decodeWords 0x0000096C 0 0 = .ok (.tsync g 2) ∧
  decodeWords 0x40004A00 0 0 = .ok (.ingr { k := 1, c1 := 4, c2 := 0, t := 2 }) ∧
  decodeWords 0x8100520E 0x119 0x1000 = .ok (.addNodeN96
    { k := 2, c1 := 5, c2 := 8, fmt := 0x19, den := 1, xc := 0, c3 := 0, c4 := 0, lit := 0x1000 }) ∧
  decodeWords 0x818042BA 0x20 5 = .ok (.ldnN96
    { k := 2, c1 := 4, c2 := 12, fmt := 0x20, den := 0, xc := 0, c3 := 0, c4 := 0, lit := 5 }) ∧
  decodeWords 0x000002E2 0x19 8 = .ok (.fmergeN96
    { k := 0, c1 := 0, c2 := 0, fmt := 0x19, den := 0, xc := 0, c3 := 0, c4 := 0, lit := 8 })

/-- R83 to R98: every instruction that the encodings admit, of every family and with every operand, is read back from
the bytes of its words, whatever follows them. -/
def Obligations.EncodeDecode : Prop :=
  ∀ (i : Instr) (rest : List Byte), (encodeFields i).isSome = true → i.wf = true →
    decode (encodeBytes i ++ rest) = .ok (i, rest)

/-- R7, R24, R411, R426, R447, R449: after a cold reset no cycle has been counted, every page is Free with no remap,
every port is Down with no lane, M0 to M7 are zero, and memory lists nothing
(its bytes are the model's choice, notes/assumptions/2.md). -/
def Obligations.ResetState : Prop :=
  Memory.wf State.reset.mem = true ∧ State.reset.mem = [] ∧
  (∀ c, (State.reset.core c).cyc = 0 ∧ (State.reset.core c).erg.st = .free) ∧
  (∀ c p, p < 12 → (State.reset.page c p).st = .free ∧ (State.reset.page c p).remap = 0) ∧
  (∀ p ∈ State.reset.ports, p.st = .down ∧ p.lanes = 0 ∧ p.tries = 0) ∧ State.reset.ports.length = 16 ∧
  (∀ x ∈ State.reset.sec.m.toList, x = 0) ∧ State.reset.ctxs = [] ∧ State.reset.queues = [] ∧ State.reset.regions = [] ∧
  State.reset.sec.boot = .rom ∧
  (let q : Seq := {}
   q.bestres = 0x7F800000 ∧ q.budget = 0 ∧ q.best = 0 ∧ q.stat = 0)

/-- R319, R324 (the form of memory is the model's own, notes/assumptions/2.md): from every state whose memory is in its
canonical form, whatever moves, a step leaves the memory in it. -/
def Obligations.StepKeepsMemoryForm : Prop := ∀ (s : State), Safe s → SafeStep s
end

