-- ==== Sys2Proof/Laws/Assoc.lean ====
section
/-! SUPPORT. Laws of sparse collections and of a change at a place of a list. -/
namespace Sys2Proof.Machine

variable {α : Type}

@[simp] theorem Assoc.find_nil (n : Nat) : Assoc.find ([] : Assoc α) n = none := rfl

/-- A look-up after a put to the same key finds what was put. -/
@[simp] theorem Assoc.find_put_same (l : Assoc α) (n : Nat) (x : α) : (l.put n x).find n = some x := by
  induction l with
  | nil => simp [Assoc.put, Assoc.find]
  | cons e t ih =>
    obtain ⟨k, v⟩ := e
    simp only [Assoc.put]
    split
    · simp [Assoc.find]
    · split
      · simp [Assoc.find]
      · next h1 h2 => simp [Assoc.find, Ne.symm h2, ih]

/-- A put leaves every other key alone. -/
theorem Assoc.find_put_ne (l : Assoc α) {n m : Nat} (h : m ≠ n) (x : α) : (l.put n x).find m = l.find m := by
  induction l with
  | nil => simp [Assoc.put, Assoc.find, Ne.symm h]
  | cons e t ih =>
    obtain ⟨k, v⟩ := e
    simp only [Assoc.put]
    split
    · simp [Assoc.find, Ne.symm h]
    · split
      · next h1 h2 => simp [Assoc.find, Ne.symm h, ← h2]
      · simp [Assoc.find, ih]

/-- The later of two puts to one key stands. -/
@[simp] theorem Assoc.put_put (l : Assoc α) (n : Nat) (x y : α) : (l.put n x).put n y = l.put n y := by
  induction l with
  | nil => simp [Assoc.put]
  | cons e t ih =>
    obtain ⟨k, v⟩ := e
    simp only [Assoc.put]
    split
    · next h => simp [Assoc.put]
    · split
      · next h1 h2 => simp [Assoc.put]
      · next h1 h2 => simp [Assoc.put, h1, h2, ih]

@[simp] theorem Assoc.get_put_same (l : Assoc α) (n : Nat) (x d : α) : (l.put n x).get n d = x := by
  simp [Assoc.get]

theorem Assoc.get_put_ne (l : Assoc α) {n m : Nat} (h : m ≠ n) (x d : α) : (l.put n x).get m d = l.get m d := by
  simp [Assoc.get, Assoc.find_put_ne l h]

/-- A change at a key is seen there. -/
theorem Assoc.find_upd_same (l : Assoc α) (n : Nat) (f : α → α) : (l.upd n f).find n = (l.find n).map f := by
  induction l with
  | nil => rfl
  | cons e t ih =>
    obtain ⟨k, v⟩ := e
    simp only [Assoc.upd, List.map_cons] at ih ⊢
    split
    · simp_all [Assoc.find]
    · simp_all [Assoc.find]

/-- A change at a key leaves every other key alone. -/
theorem Assoc.find_upd_ne (l : Assoc α) {n m : Nat} (h : m ≠ n) (f : α → α) : (l.upd n f).find m = l.find m := by
  induction l with
  | nil => rfl
  | cons e t ih =>
    obtain ⟨k, v⟩ := e
    simp only [Assoc.upd, List.map_cons] at ih ⊢
    split
    · simp_all [Assoc.find, Ne.symm h]
    · simp_all [Assoc.find]

@[simp] theorem listUpd_length (l : List α) (n : Nat) (f : α → α) : (listUpd l n f).length = l.length := by
  induction l generalizing n with
  | nil => rfl
  | cons x t ih => cases n <;> simp [listUpd, ih]

/-- The element at the place that was changed. -/
theorem listUpd_getElem?_same (l : List α) (n : Nat) (f : α → α) : (listUpd l n f)[n]? = l[n]?.map f := by
  induction l generalizing n with
  | nil => rfl
  | cons x t ih => cases n <;> simp [listUpd, ih]

/-- Every other place keeps its element. -/
theorem listUpd_getElem?_ne (l : List α) {n m : Nat} (h : m ≠ n) (f : α → α) : (listUpd l n f)[m]? = l[m]? := by
  induction l generalizing n m with
  | nil => rfl
  | cons x t ih =>
    cases n with
    | zero => cases m with
      | zero => exact absurd rfl h
      | succ m => simp [listUpd]
    | succ n => cases m with
      | zero => simp [listUpd]
      | succ m => simpa [listUpd] using ih (by omega)

/-- Two changes at one place are one. -/
@[simp] theorem listUpd_listUpd (l : List α) (n : Nat) (f g : α → α) :
    listUpd (listUpd l n f) n g = listUpd l n (fun x => g (f x)) := by
  induction l generalizing n with
  | nil => rfl
  | cons x t ih => cases n <;> simp [listUpd, ih]

end Sys2Proof.Machine
end

