-- ==== Sys2Proof/Laws/Exec.lean ====
section
/-! SUPPORT. What exec does with each constructor: one call of its meaning, true by definition. -/
namespace Sys2Proof.Machine

@[simp] theorem exec_add (g : Guard) (d a b : Reg) (s : State) : exec (.add g d a b) s = execAdd g d a b s := rfl
@[simp] theorem exec_addSi (g : Guard) (d a : Reg) (imm : Imm) (s : State) : exec (.addSi g d a imm) s = execAddSi g d a imm s := rfl
@[simp] theorem exec_sub (g : Guard) (d a b : Reg) (s : State) : exec (.sub g d a b) s = execSub g d a b s := rfl
@[simp] theorem exec_subSi (g : Guard) (d a : Reg) (imm : Imm) (s : State) : exec (.subSi g d a imm) s = execSubSi g d a imm s := rfl
@[simp] theorem exec_mul (g : Guard) (d a b : Reg) (s : State) : exec (.mul g d a b) s = execMul g d a b s := rfl
@[simp] theorem exec_mulSi (g : Guard) (d a : Reg) (imm : Imm) (s : State) : exec (.mulSi g d a imm) s = execMulSi g d a imm s := rfl
@[simp] theorem exec_andR (g : Guard) (d a b : Reg) (s : State) : exec (.andR g d a b) s = execAndR g d a b s := rfl
@[simp] theorem exec_andSi (g : Guard) (d a : Reg) (imm : Imm) (s : State) : exec (.andSi g d a imm) s = execAndSi g d a imm s := rfl
@[simp] theorem exec_orR (g : Guard) (d a b : Reg) (s : State) : exec (.orR g d a b) s = execOrR g d a b s := rfl
@[simp] theorem exec_orSi (g : Guard) (d a : Reg) (imm : Imm) (s : State) : exec (.orSi g d a imm) s = execOrSi g d a imm s := rfl
@[simp] theorem exec_xorR (g : Guard) (d a b : Reg) (s : State) : exec (.xorR g d a b) s = execXorR g d a b s := rfl
@[simp] theorem exec_xorSi (g : Guard) (d a : Reg) (imm : Imm) (s : State) : exec (.xorSi g d a imm) s = execXorSi g d a imm s := rfl
@[simp] theorem exec_andn (g : Guard) (d a b : Reg) (s : State) : exec (.andn g d a b) s = execAndn g d a b s := rfl
@[simp] theorem exec_andnSi (g : Guard) (d a : Reg) (imm : Imm) (s : State) : exec (.andnSi g d a imm) s = execAndnSi g d a imm s := rfl
@[simp] theorem exec_shl (g : Guard) (d a b : Reg) (s : State) : exec (.shl g d a b) s = execShl g d a b s := rfl
@[simp] theorem exec_shlSi (g : Guard) (d a : Reg) (imm : Imm) (s : State) : exec (.shlSi g d a imm) s = execShlSi g d a imm s := rfl
@[simp] theorem exec_shr (g : Guard) (d a b : Reg) (s : State) : exec (.shr g d a b) s = execShr g d a b s := rfl
@[simp] theorem exec_shrSi (g : Guard) (d a : Reg) (imm : Imm) (s : State) : exec (.shrSi g d a imm) s = execShrSi g d a imm s := rfl
@[simp] theorem exec_sar (g : Guard) (d a b : Reg) (s : State) : exec (.sar g d a b) s = execSar g d a b s := rfl
@[simp] theorem exec_sarSi (g : Guard) (d a : Reg) (imm : Imm) (s : State) : exec (.sarSi g d a imm) s = execSarSi g d a imm s := rfl
@[simp] theorem exec_rot (g : Guard) (d a b : Reg) (s : State) : exec (.rot g d a b) s = execRot g d a b s := rfl
@[simp] theorem exec_rotSi (g : Guard) (d a : Reg) (imm : Imm) (s : State) : exec (.rotSi g d a imm) s = execRotSi g d a imm s := rfl
@[simp] theorem exec_mulh (g : Guard) (u : Bool) (d a b : Reg) (s : State) : exec (.mulh g u d a b) s = execMulh g u d a b s := rfl
@[simp] theorem exec_mulhSi (g : Guard) (u : Bool) (d a : Reg) (imm : Imm) (s : State) : exec (.mulhSi g u d a imm) s = execMulhSi g u d a imm s := rfl
@[simp] theorem exec_div (g : Guard) (u : Bool) (d a b : Reg) (s : State) : exec (.div g u d a b) s = execDiv g u d a b s := rfl
@[simp] theorem exec_divSi (g : Guard) (u : Bool) (d a : Reg) (imm : Imm) (s : State) : exec (.divSi g u d a imm) s = execDivSi g u d a imm s := rfl
@[simp] theorem exec_rem (g : Guard) (u : Bool) (d a b : Reg) (s : State) : exec (.rem g u d a b) s = execRem g u d a b s := rfl
@[simp] theorem exec_remSi (g : Guard) (u : Bool) (d a : Reg) (imm : Imm) (s : State) : exec (.remSi g u d a imm) s = execRemSi g u d a imm s := rfl
@[simp] theorem exec_min (g : Guard) (u : Bool) (d a b : Reg) (s : State) : exec (.min g u d a b) s = execMin g u d a b s := rfl
@[simp] theorem exec_minSi (g : Guard) (u : Bool) (d a : Reg) (imm : Imm) (s : State) : exec (.minSi g u d a imm) s = execMinSi g u d a imm s := rfl
@[simp] theorem exec_max (g : Guard) (u : Bool) (d a b : Reg) (s : State) : exec (.max g u d a b) s = execMax g u d a b s := rfl
@[simp] theorem exec_maxSi (g : Guard) (u : Bool) (d a : Reg) (imm : Imm) (s : State) : exec (.maxSi g u d a imm) s = execMaxSi g u d a imm s := rfl
@[simp] theorem exec_ext (g : Guard) (u : Bool) (d a b : Reg) (s : State) : exec (.ext g u d a b) s = execExt g u d a b s := rfl
@[simp] theorem exec_extSi (g : Guard) (u : Bool) (d a : Reg) (imm : Imm) (s : State) : exec (.extSi g u d a imm) s = execExtSi g u d a imm s := rfl
@[simp] theorem exec_nop (s : State) : exec (.nop) s = execNop s := rfl
@[simp] theorem exec_clz (g : Guard) (d a : Reg) (s : State) : exec (.clz g d a) s = execClz g d a s := rfl
@[simp] theorem exec_popc (g : Guard) (d a : Reg) (s : State) : exec (.popc g d a) s = execPopc g d a s := rfl
@[simp] theorem exec_bitf (g : Guard) (ins sgn : Bool) (d a : Reg) (lsb wm1 : BitVec 6) (s : State) : exec (.bitf g ins sgn d a lsb wm1) s = execBitf g ins sgn d a lsb wm1 s := rfl
@[simp] theorem exec_cmp (g : Guard) (c : Cond) (p : PReg) (a b : Reg) (s : State) : exec (.cmp g c p a b) s = execCmp g c p a b s := rfl
@[simp] theorem exec_cmpSi (g : Guard) (c : Cond) (p : PReg) (a : Reg) (imm : Imm) (s : State) : exec (.cmpSi g c p a imm) s = execCmpSi g c p a imm s := rfl
@[simp] theorem exec_plog (g : Guard) (d a b : PReg) (table : BitVec 4) (s : State) : exec (.plog g d a b table) s = execPlog g d a b table s := rfl
@[simp] theorem exec_sel (g : Guard) (q : PReg) (d a b : Reg) (s : State) : exec (.sel g q d a b) s = execSel g q d a b s := rfl
@[simp] theorem exec_movGG (g : Guard) (d a : Reg) (s : State) : exec (.movGG g d a) s = execMovGG g d a s := rfl
@[simp] theorem exec_movGP (g : Guard) (d : Reg) (a : PReg) (s : State) : exec (.movGP g d a) s = execMovGP g d a s := rfl
@[simp] theorem exec_movPG (g : Guard) (d : PReg) (a : Reg) (s : State) : exec (.movPG g d a) s = execMovPG g d a s := rfl
@[simp] theorem exec_movPP (g : Guard) (d a : PReg) (s : State) : exec (.movPP g d a) s = execMovPP g d a s := rfl
@[simp] theorem exec_litSi (g : Guard) (d : Reg) (imm : Imm) (s : State) : exec (.litSi g d imm) s = execLitSi g d imm s := rfl
@[simp] theorem exec_litSl (g : Guard) (d : Reg) (imm lit : Imm) (s : State) : exec (.litSl g d imm lit) s = execLitSl g d imm lit s := rfl
@[simp] theorem exec_lea (g : Guard) (d : Reg) (m : MemRef) (s : State) : exec (.lea g d m) s = execLea g d m s := rfl
@[simp] theorem exec_ld (g : Guard) (ty : MTy) (d : Reg) (m : MemRef) (s : State) : exec (.ld g ty d m) s = execLd g ty d m s := rfl
@[simp] theorem exec_st (g : Guard) (ty : MTy) (d : Reg) (m : MemRef) (s : State) : exec (.st g ty d m) s = execSt g ty d m s := rfl
@[simp] theorem exec_amo (g : Guard) (op : Aop) (ty : MTy) (d a b : Reg) (disp : BitVec 24) (s : State) : exec (.amo g op ty d a b disp) s = execAmo g op ty d a b disp s := rfl
@[simp] theorem exec_fence (g : Guard) (sc : Scope) (s : State) : exec (.fence g sc) s = execFence g sc s := rfl
@[simp] theorem exec_br (g : Guard) (off : BitVec 15) (s : State) : exec (.br g off) s = execBr g off s := rfl
@[simp] theorem exec_brSbl (g : Guard) (off : Imm) (s : State) : exec (.brSbl g off) s = execBrSbl g off s := rfl
@[simp] theorem exec_jmp (g : Guard) (a : Reg) (s : State) : exec (.jmp g a) s = execJmp g a s := rfl
@[simp] theorem exec_jmpSbl (g : Guard) (off : Imm) (s : State) : exec (.jmpSbl g off) s = execJmpSbl g off s := rfl
@[simp] theorem exec_call (g : Guard) (d a : Reg) (s : State) : exec (.call g d a) s = execCall g d a s := rfl
@[simp] theorem exec_callSbl (g : Guard) (d : Reg) (off : Imm) (s : State) : exec (.callSbl g d off) s = execCallSbl g d off s := rfl
@[simp] theorem exec_ret (g : Guard) (a : Reg) (s : State) : exec (.ret g a) s = execRet g a s := rfl
@[simp] theorem exec_loop (g : Guard) (d : Reg) (off : Imm) (s : State) : exec (.loop g d off) s = execLoop g d off s := rfl
@[simp] theorem exec_monarm (g : Guard) (a : Reg) (s : State) : exec (.monarm g a) s = execMonarm g a s := rfl
@[simp] theorem exec_monarmClr (g : Guard) (s : State) : exec (.monarmClr g) s = execMonarmClr g s := rfl
@[simp] theorem exec_sleep (g : Guard) (p : PReg) (a : Reg) (s : State) : exec (.sleep g p a) s = execSleep g p a s := rfl
@[simp] theorem exec_sleepSi (g : Guard) (p : PReg) (imm : Imm) (s : State) : exec (.sleepSi g p imm) s = execSleepSi g p imm s := rfl
@[simp] theorem exec_sleepExpiry (r pg : Nat) (s : State) : exec (.sleepExpiry r pg) s = execSleepExpiry r pg s := rfl
@[simp] theorem exec_testseq (g : Guard) (p : PReg) (a b : Reg) (s : State) : exec (.testseq g p a b) s = execTestseq g p a b s := rfl
@[simp] theorem exec_testseqSi (g : Guard) (p : PReg) (a b : Reg) (imm : Imm) (s : State) : exec (.testseqSi g p a b imm) s = execTestseqSi g p a b imm s := rfl
@[simp] theorem exec_cfg (g : Guard) (d a : Reg) (s : State) : exec (.cfg g d a) s = execCfg g d a s := rfl
@[simp] theorem exec_cfgSi (g : Guard) (d a : Reg) (imm : Imm) (s : State) : exec (.cfgSi g d a imm) s = execCfgSi g d a imm s := rfl
@[simp] theorem exec_cfgList (g : Guard) (d a : Reg) (s : State) : exec (.cfgList g d a) s = execCfgList g d a s := rfl
@[simp] theorem exec_cfgListSi (g : Guard) (d a : Reg) (imm : Imm) (s : State) : exec (.cfgListSi g d a imm) s = execCfgListSi g d a imm s := rfl
@[simp] theorem exec_cfgstep (g : Guard) (d : Reg) (s : State) : exec (.cfgstep g d) s = execCfgstep g d s := rfl
@[simp] theorem exec_cfgstepSi (g : Guard) (d : Reg) (imm : Imm) (s : State) : exec (.cfgstepSi g d imm) s = execCfgstepSi g d imm s := rfl
@[simp] theorem exec_run (g : Guard) (p : PReg) (a : Reg) (s : State) : exec (.run g p a) s = execRun g p a s := rfl
@[simp] theorem exec_runSi (g : Guard) (p : PReg) (imm : Imm) (s : State) : exec (.runSi g p imm) s = execRunSi g p imm s := rfl
@[simp] theorem exec_bound (g : Guard) (p : PReg) (a b : Reg) (s : State) : exec (.bound g p a b) s = execBound g p a b s := rfl
@[simp] theorem exec_boundSi (g : Guard) (p : PReg) (b : Reg) (node : BitVec 7) (blk : BitVec 4) (s : State) : exec (.boundSi g p b node blk) s = execBoundSi g p b node blk s := rfl
@[simp] theorem exec_accrst (g : Guard) (n : BitVec 4) (s : State) : exec (.accrst g n) s = execAccrst g n s := rfl
@[simp] theorem exec_accrstSi (g : Guard) (n : BitVec 4) (imm : Imm) (s : State) : exec (.accrstSi g n imm) s = execAccrstSi g n imm s := rfl
@[simp] theorem exec_accrd (g : Guard) (part : BitVec 3) (d : Reg) (n : BitVec 4) (s : State) : exec (.accrd g part d n) s = execAccrd g part d n s := rfl
@[simp] theorem exec_accrdSi (g : Guard) (part : BitVec 3) (d : Reg) (n : BitVec 4) (s : State) : exec (.accrdSi g part d n) s = execAccrdSi g part d n s := rfl
@[simp] theorem exec_portw (g : Guard) (eos : Bool) (p : PReg) (a b : Reg) (s : State) : exec (.portw g eos p a b) s = execPortw g eos p a b s := rfl
@[simp] theorem exec_portwSi (g : Guard) (eos : Bool) (p : PReg) (a : Reg) (port : BitVec 6) (s : State) : exec (.portwSi g eos p a port) s = execPortwSi g eos p a port s := rfl
@[simp] theorem exec_portr (g : Guard) (f : PReg) (d a : Reg) (s : State) : exec (.portr g f d a) s = execPortr g f d a s := rfl
@[simp] theorem exec_portrSi (g : Guard) (f : PReg) (d : Reg) (port : BitVec 6) (s : State) : exec (.portrSi g f d port) s = execPortrSi g f d port s := rfl
@[simp] theorem exec_trap (g : Guard) (imm : Imm) (s : State) : exec (.trap g imm) s = execTrap g imm s := rfl
@[simp] theorem exec_rett (g : Guard) (s : State) : exec (.rett g) s = execRett g s := rfl
@[simp] theorem exec_rettNext (g : Guard) (s : State) : exec (.rettNext g) s = execRettNext g s := rfl
@[simp] theorem exec_csrr (g : Guard) (d : Reg) (n : Csr) (s : State) : exec (.csrr g d n) s = execCsrr g d n s := rfl
@[simp] theorem exec_csrw (g : Guard) (a : Reg) (n : Csr) (s : State) : exec (.csrw g a n) s = execCsrw g a n s := rfl
@[simp] theorem exec_csrx (g : Guard) (d a : Reg) (n : Csr) (lsb wm1 : BitVec 6) (s : State) : exec (.csrx g d a n lsb wm1) s = execCsrx g d a n lsb wm1 s := rfl
@[simp] theorem exec_halt (s : State) : exec (.halt) s = execHalt s := rfl
@[simp] theorem exec_snap (g : Guard) (a : Reg) (s : State) : exec (.snap g a) s = execSnap g a s := rfl
@[simp] theorem exec_budget (g : Guard) (a : Reg) (s : State) : exec (.budget g a) s = execBudget g a s := rfl
@[simp] theorem exec_budgetSi (g : Guard) (imm : Imm) (s : State) : exec (.budgetSi g imm) s = execBudgetSi g imm s := rfl
@[simp] theorem exec_budgetTest (g : Guard) (p : PReg) (s : State) : exec (.budgetTest g p) s = execBudgetTest g p s := rfl
@[simp] theorem exec_budgetTestSi (g : Guard) (p : PReg) (s : State) : exec (.budgetTestSi g p) s = execBudgetTestSi g p s := rfl
@[simp] theorem exec_budgetExpire (r pg : Nat) (s : State) : exec (.budgetExpire r pg) s = execBudgetExpire r pg s := rfl
@[simp] theorem exec_best (g : Guard) (p : PReg) (a b : Reg) (s : State) : exec (.best g p a b) s = execBest g p a b s := rfl
@[simp] theorem exec_bestSi (g : Guard) (p : PReg) (a : Reg) (imm : Imm) (s : State) : exec (.bestSi g p a imm) s = execBestSi g p a imm s := rfl
@[simp] theorem exec_bestClr (g : Guard) (p : PReg) (s : State) : exec (.bestClr g p) s = execBestClr g p s := rfl
@[simp] theorem exec_bestClrSi (g : Guard) (p : PReg) (s : State) : exec (.bestClrSi g p) s = execBestClrSi g p s := rfl
@[simp] theorem exec_fetchFault (f : FetchErr) (s : State) : exec (.fetchFault f) s = execFetchFault f s := rfl
@[simp] theorem exec_sload (g : Guard) (d a : Reg) (s : State) : exec (.sload g d a) s = execSload g d a s := rfl
@[simp] theorem exec_sloadSi (g : Guard) (d a : Reg) (imm : Imm) (s : State) : exec (.sloadSi g d a imm) s = execSloadSi g d a imm s := rfl
@[simp] theorem exec_sstore (g : Guard) (d a : Reg) (s : State) : exec (.sstore g d a) s = execSstore g d a s := rfl
@[simp] theorem exec_sstoreSi (g : Guard) (d a : Reg) (imm : Imm) (s : State) : exec (.sstoreSi g d a imm) s = execSstoreSi g d a imm s := rfl
@[simp] theorem exec_cpy (g : Guard) (d a : Reg) (s : State) : exec (.cpy g d a) s = execCpy g d a s := rfl
@[simp] theorem exec_cpySi (g : Guard) (d a : Reg) (imm : Imm) (s : State) : exec (.cpySi g d a imm) s = execCpySi g d a imm s := rfl
@[simp] theorem exec_etbl (g : Guard) (d a : Reg) (s : State) : exec (.etbl g d a) s = execEtbl g d a s := rfl
@[simp] theorem exec_etblSi (g : Guard) (d a : Reg) (imm : Imm) (s : State) : exec (.etblSi g d a imm) s = execEtblSi g d a imm s := rfl
@[simp] theorem exec_xpose (g : Guard) (d a : Reg) (s : State) : exec (.xpose g d a) s = execXpose g d a s := rfl
@[simp] theorem exec_xposeSi (g : Guard) (d a : Reg) (imm : Imm) (s : State) : exec (.xposeSi g d a imm) s = execXposeSi g d a imm s := rfl
@[simp] theorem exec_gather (g : Guard) (d a : Reg) (s : State) : exec (.gather g d a) s = execGather g d a s := rfl
@[simp] theorem exec_gatherSi (g : Guard) (d a : Reg) (imm : Imm) (s : State) : exec (.gatherSi g d a imm) s = execGatherSi g d a imm s := rfl
@[simp] theorem exec_scatter (g : Guard) (d a : Reg) (s : State) : exec (.scatter g d a) s = execScatter g d a s := rfl
@[simp] theorem exec_scatterSi (g : Guard) (d a : Reg) (imm : Imm) (s : State) : exec (.scatterSi g d a imm) s = execScatterSi g d a imm s := rfl
@[simp] theorem exec_mcast (g : Guard) (d a : Reg) (s : State) : exec (.mcast g d a) s = execMcast g d a s := rfl
@[simp] theorem exec_mcastSi (g : Guard) (d a : Reg) (imm : Imm) (s : State) : exec (.mcastSi g d a imm) s = execMcastSi g d a imm s := rfl
@[simp] theorem exec_chainw (g : Guard) (d a : Reg) (s : State) : exec (.chainw g d a) s = execChainw g d a s := rfl
@[simp] theorem exec_chainwSi (g : Guard) (d a : Reg) (imm : Imm) (s : State) : exec (.chainwSi g d a imm) s = execChainwSi g d a imm s := rfl
@[simp] theorem exec_sclose (g : Guard) (p : PReg) (a : Reg) (s : State) : exec (.sclose g p a) s = execSclose g p a s := rfl
@[simp] theorem exec_scloseSi (g : Guard) (p : PReg) (n : BitVec 6) (s : State) : exec (.scloseSi g p n) s = execScloseSi g p n s := rfl
@[simp] theorem exec_scloseCancel (g : Guard) (p : PReg) (a : Reg) (s : State) : exec (.scloseCancel g p a) s = execScloseCancel g p a s := rfl
@[simp] theorem exec_scloseCancelSi (g : Guard) (p : PReg) (n : BitVec 6) (s : State) : exec (.scloseCancelSi g p n) s = execScloseCancelSi g p n s := rfl
@[simp] theorem exec_scloseQueue (g : Guard) (p : PReg) (a : Reg) (s : State) : exec (.scloseQueue g p a) s = execScloseQueue g p a s := rfl
@[simp] theorem exec_scloseQueueSi (g : Guard) (p : PReg) (n : BitVec 3) (s : State) : exec (.scloseQueueSi g p n) s = execScloseQueueSi g p n s := rfl
@[simp] theorem exec_sbar (g : Guard) (p : PReg) (a : Reg) (s : State) : exec (.sbar g p a) s = execSbar g p a s := rfl
@[simp] theorem exec_sbarSi (g : Guard) (p : PReg) (mask : BitVec 8) (s : State) : exec (.sbarSi g p mask) s = execSbarSi g p mask s := rfl
@[simp] theorem exec_sstat (g : Guard) (d a : Reg) (s : State) : exec (.sstat g d a) s = execSstat g d a s := rfl
@[simp] theorem exec_sstatSi (g : Guard) (d : Reg) (eq : BitVec 3) (field : BitVec 5) (s : State) : exec (.sstatSi g d eq field) s = execSstatSi g d eq field s := rfl
@[simp] theorem exec_mcastDetach (r q m : Nat) (s : State) : exec (.mcastDetach r q m) s = execMcastDetach r q m s := rfl
@[simp] theorem exec_pin (g : Guard) (d a b : Reg) (s : State) : exec (.pin g d a b) s = execPin g d a b s := rfl
@[simp] theorem exec_pinSi (g : Guard) (d a : Reg) (imm : Imm) (s : State) : exec (.pinSi g d a imm) s = execPinSi g d a imm s := rfl
@[simp] theorem exec_unpin (g : Guard) (d a b : Reg) (s : State) : exec (.unpin g d a b) s = execUnpin g d a b s := rfl
@[simp] theorem exec_unpinSi (g : Guard) (d a : Reg) (imm : Imm) (s : State) : exec (.unpinSi g d a imm) s = execUnpinSi g d a imm s := rfl
@[simp] theorem exec_pref (g : Guard) (q : BitVec 3) (d a b : Reg) (s : State) : exec (.pref g q d a b) s = execPref g q d a b s := rfl
@[simp] theorem exec_prefSi (g : Guard) (q : BitVec 3) (d a : Reg) (imm : Imm) (s : State) : exec (.prefSi g q d a imm) s = execPrefSi g q d a imm s := rfl
@[simp] theorem exec_flush (g : Guard) (q : BitVec 3) (d a b : Reg) (s : State) : exec (.flush g q d a b) s = execFlush g q d a b s := rfl
@[simp] theorem exec_flushSi (g : Guard) (q : BitVec 3) (d a : Reg) (imm : Imm) (s : State) : exec (.flushSi g q d a imm) s = execFlushSi g q d a imm s := rfl
@[simp] theorem exec_chainHoldReread (r q : Nat) (s : State) : exec (.chainHoldReread r q) s = execChainHoldReread r q s := rfl
@[simp] theorem exec_chaint (g : Guard) (p : PReg) (a b : Reg) (s : State) : exec (.chaint g p a b) s = execChaint g p a b s := rfl
@[simp] theorem exec_chaintSi (g : Guard) (p : PReg) (a : Reg) (imm : Imm) (s : State) : exec (.chaintSi g p a imm) s = execChaintSi g p a imm s := rfl
@[simp] theorem exec_qpush (g : Guard) (d a b : Reg) (s : State) : exec (.qpush g d a b) s = execQpush g d a b s := rfl
@[simp] theorem exec_qpushSi (g : Guard) (d b : Reg) (q : BitVec 13) (s : State) : exec (.qpushSi g d b q) s = execQpushSi g d b q s := rfl
@[simp] theorem exec_qpop (g : Guard) (p : PReg) (a b : Reg) (s : State) : exec (.qpop g p a b) s = execQpop g p a b s := rfl
@[simp] theorem exec_qpopSi (g : Guard) (p : PReg) (b : Reg) (q : BitVec 13) (s : State) : exec (.qpopSi g p b q) s = execQpopSi g p b q s := rfl
@[simp] theorem exec_qfence (g : Guard) (sc : Scope) (p : PReg) (a : Reg) (s : State) : exec (.qfence g sc p a) s = execQfence g sc p a s := rfl
@[simp] theorem exec_qfenceSi (g : Guard) (sc : Scope) (p : PReg) (mask : BitVec 8) (s : State) : exec (.qfenceSi g sc p mask) s = execQfenceSi g sc p mask s := rfl
@[simp] theorem exec_qseq (g : Guard) (issued : Bool) (d a : Reg) (s : State) : exec (.qseq g issued d a) s = execQseq g issued d a s := rfl
@[simp] theorem exec_qseqSi (g : Guard) (issued : Bool) (d : Reg) (q : BitVec 13) (s : State) : exec (.qseqSi g issued d q) s = execQseqSi g issued d q s := rfl
@[simp] theorem exec_barinit (g : Guard) (p : PReg) (a b : Reg) (s : State) : exec (.barinit g p a b) s = execBarinit g p a b s := rfl
@[simp] theorem exec_barinitSi (g : Guard) (p : PReg) (a : Reg) (imm : Imm) (s : State) : exec (.barinitSi g p a imm) s = execBarinitSi g p a imm s := rfl
@[simp] theorem exec_bararr (g : Guard) (d a : Reg) (s : State) : exec (.bararr g d a) s = execBararr g d a s := rfl
@[simp] theorem exec_bararrSi (g : Guard) (d a : Reg) (imm : Imm) (s : State) : exec (.bararrSi g d a imm) s = execBararrSi g d a imm s := rfl
@[simp] theorem exec_bartest (g : Guard) (p : PReg) (a b : Reg) (s : State) : exec (.bartest g p a b) s = execBartest g p a b s := rfl
@[simp] theorem exec_bartestSi (g : Guard) (p : PReg) (a : Reg) (imm : Imm) (s : State) : exec (.bartestSi g p a imm) s = execBartestSi g p a imm s := rfl
@[simp] theorem exec_spawn (g : Guard) (p : PReg) (a : Reg) (s : State) : exec (.spawn g p a) s = execSpawn g p a s := rfl
@[simp] theorem exec_spawnSi (g : Guard) (p : PReg) (a : Reg) (imm : Imm) (s : State) : exec (.spawnSi g p a imm) s = execSpawnSi g p a imm s := rfl
@[simp] theorem exec_vdecl (g : Guard) (d a b : Reg) (s : State) : exec (.vdecl g d a b) s = execVdecl g d a b s := rfl
@[simp] theorem exec_vdeclSi (g : Guard) (d a b : Reg) (vid : BitVec 4) (s : State) : exec (.vdeclSi g d a b vid) s = execVdeclSi g d a b vid s := rfl
@[simp] theorem exec_tend (g : Guard) (p : PReg) (s : State) : exec (.tend g p) s = execTend g p s := rfl
@[simp] theorem exec_tendChild (g : Guard) (p : PReg) (a : Reg) (s : State) : exec (.tendChild g p a) s = execTendChild g p a s := rfl
@[simp] theorem exec_tsync (g : Guard) (p : PReg) (s : State) : exec (.tsync g p) s = execTsync g p s := rfl
@[simp] theorem exec_tsyncTake (g : Guard) (d : Reg) (s : State) : exec (.tsyncTake g d) s = execTsyncTake g d s := rfl
@[simp] theorem exec_tresume (g : Guard) (p : PReg) (a : Reg) (s : State) : exec (.tresume g p a) s = execTresume g p a s := rfl
@[simp] theorem exec_tresumeSkip (g : Guard) (p : PReg) (a : Reg) (s : State) : exec (.tresumeSkip g p a) s = execTresumeSkip g p a s := rfl
@[simp] theorem exec_tinfo (g : Guard) (d b : Reg) (s : State) : exec (.tinfo g d b) s = execTinfo g d b s := rfl
@[simp] theorem exec_tinfoSi (g : Guard) (d : Reg) (field : BitVec 5) (view : BitVec 4) (s : State) : exec (.tinfoSi g d field view) s = execTinfoSi g d field view s := rfl
@[simp] theorem exec_tinfoCh (g : Guard) (d a b : Reg) (s : State) : exec (.tinfoCh g d a b) s = execTinfoCh g d a b s := rfl
@[simp] theorem exec_tinfoChSi (g : Guard) (d a : Reg) (field : BitVec 5) (view : BitVec 4) (s : State) : exec (.tinfoChSi g d a field view) s = execTinfoChSi g d a field view s := rfl
@[simp] theorem exec_eload (g : Guard) (d a : Reg) (s : State) : exec (.eload g d a) s = execEload g d a s := rfl
@[simp] theorem exec_eloadSi (g : Guard) (d a : Reg) (imm : Imm) (s : State) : exec (.eloadSi g d a imm) s = execEloadSi g d a imm s := rfl
@[simp] theorem exec_ewire (g : Guard) (d a : Reg) (s : State) : exec (.ewire g d a) s = execEwire g d a s := rfl
@[simp] theorem exec_ewireSi (g : Guard) (d a : Reg) (imm : Imm) (s : State) : exec (.ewireSi g d a imm) s = execEwireSi g d a imm s := rfl
@[simp] theorem exec_ethr (g : Guard) (d a : Reg) (s : State) : exec (.ethr g d a) s = execEthr g d a s := rfl
@[simp] theorem exec_ethrSi (g : Guard) (d a : Reg) (imm : Imm) (s : State) : exec (.ethrSi g d a imm) s = execEthrSi g d a imm s := rfl
@[simp] theorem exec_exf (g : Guard) (d a : Reg) (s : State) : exec (.exf g d a) s = execExf g d a s := rfl
@[simp] theorem exec_exfSi (g : Guard) (d a : Reg) (imm : Imm) (s : State) : exec (.exfSi g d a imm) s = execExfSi g d a imm s := rfl
@[simp] theorem exec_epop (g : Guard) (d a : Reg) (s : State) : exec (.epop g d a) s = execEpop g d a s := rfl
@[simp] theorem exec_epopSi (g : Guard) (d a : Reg) (imm : Imm) (s : State) : exec (.epopSi g d a imm) s = execEpopSi g d a imm s := rfl
@[simp] theorem exec_exb (g : Guard) (d a : Reg) (s : State) : exec (.exb g d a) s = execExb g d a s := rfl
@[simp] theorem exec_exbSi (g : Guard) (d a : Reg) (imm : Imm) (s : State) : exec (.exbSi g d a imm) s = execExbSi g d a imm s := rfl
@[simp] theorem exec_esel (g : Guard) (d a : Reg) (s : State) : exec (.esel g d a) s = execEsel g d a s := rfl
@[simp] theorem exec_eselSi (g : Guard) (d : Reg) (w t : BitVec 2) (s : State) : exec (.eselSi g d w t) s = execEselSi g d w t s := rfl
@[simp] theorem exec_eeval (g : Guard) (d a b : Reg) (s : State) : exec (.eeval g d a b) s = execEeval g d a b s := rfl
@[simp] theorem exec_eevalSi (g : Guard) (d : Reg) (first cm1 : BitVec 12) (s : State) : exec (.eevalSi g d first cm1) s = execEevalSi g d first cm1 s := rfl
@[simp] theorem exec_asyncTrapTaken (r : Nat) (s : State) : exec (.asyncTrapTaken r) s = execAsyncTrapTaken r s := rfl
@[simp] theorem exec_engineCommandStart (r q : Nat) (s : State) : exec (.engineCommandStart r q) s = execEngineCommandStart r q s := rfl
@[simp] theorem exec_engineElement (r q : Nat) (s : State) : exec (.engineElement r q) s = execEngineElement r q s := rfl
@[simp] theorem exec_engineCommandComplete (r q : Nat) (s : State) : exec (.engineCommandComplete r q) s = execEngineCommandComplete r q s := rfl
@[simp] theorem exec_faultRetry (id : Nat) (s : State) : exec (.faultRetry id) s = execFaultRetry id s := rfl
@[simp] theorem exec_ergCommandStart (r : Nat) (load : Bool) (s : State) : exec (.ergCommandStart r load) s = execErgCommandStart r load s := rfl
@[simp] theorem exec_ergCommandComplete (r : Nat) (s : State) : exec (.ergCommandComplete r) s = execErgCommandComplete r s := rfl
@[simp] theorem exec_ergClearDone (core : Nat) (s : State) : exec (.ergClearDone core) s = execErgClearDone core s := rfl
@[simp] theorem exec_ergRestoreDone (core : Nat) (s : State) : exec (.ergRestoreDone core) s = execErgRestoreDone core s := rfl
@[simp] theorem exec_ergSaveDone (core : Nat) (bad : Bool) (s : State) : exec (.ergSaveDone core bad) s = execErgSaveDone core bad s := rfl
@[simp] theorem exec_fibreOpArrive (id : Nat) (s : State) : exec (.fibreOpArrive id) s = execFibreOpArrive id s := rfl
@[simp] theorem exec_scanSegmentDone (id : Nat) (s : State) : exec (.scanSegmentDone id) s = execScanSegmentDone id s := rfl
@[simp] theorem exec_fibreOpComplete (id : Nat) (s : State) : exec (.fibreOpComplete id) s = execFibreOpComplete id s := rfl
@[simp] theorem exec_viewMergeStart (r : Nat) (s : State) : exec (.viewMergeStart r) s = execViewMergeStart r s := rfl
@[simp] theorem exec_viewMergeElement (r : Nat) (s : State) : exec (.viewMergeElement r) s = execViewMergeElement r s := rfl
@[simp] theorem exec_viewMergeComplete (r : Nat) (s : State) : exec (.viewMergeComplete r) s = execViewMergeComplete r s := rfl
@[simp] theorem exec_childPlaced (r i : Nat) (s : State) : exec (.childPlaced r i) s = execChildPlaced r i s := rfl
@[simp] theorem exec_monitorNotice (core sector : Nat) (s : State) : exec (.monitorNotice core sector) s = execMonitorNotice core sector s := rfl
@[simp] theorem exec_watchClearReply (core sector : Nat) (s : State) : exec (.watchClearReply core sector) s = execWatchClearReply core sector s := rfl
@[simp] theorem exec_stallSweep (r : Nat) (s : State) : exec (.stallSweep r) s = execStallSweep r s := rfl
@[simp] theorem exec_cloneWindow (r b n : Nat) (s : State) : exec (.cloneWindow r b n) s = execCloneWindow r b n s := rfl
@[simp] theorem exec_cloneDissolve (r : Nat) (s : State) : exec (.cloneDissolve r) s = execCloneDissolve r s := rfl
@[simp] theorem exec_configDrained (r : Nat) (s : State) : exec (.configDrained r) s = execConfigDrained r s := rfl
@[simp] theorem exec_residencyRetire (r : Nat) (s : State) : exec (.residencyRetire r) s = execResidencyRetire r s := rfl
@[simp] theorem exec_dispatchDecision (s : State) : exec (.dispatchDecision) s = execDispatchDecision s := rfl
@[simp] theorem exec_queueCommandComplete (q seq : Nat) (s : State) : exec (.queueCommandComplete q seq) s = execQueueCommandComplete q seq s := rfl
@[simp] theorem exec_groupAdmit (gid : Nat) (s : State) : exec (.groupAdmit gid) s = execGroupAdmit gid s := rfl
@[simp] theorem exec_claimMove (s : State) : exec (.claimMove) s = execClaimMove s := rfl
@[simp] theorem exec_loadComplete (gid : Nat) (s : State) : exec (.loadComplete gid) s = execLoadComplete gid s := rfl
@[simp] theorem exec_preemptRequest (gid : Nat) (why : Preempt) (s : State) : exec (.preemptRequest gid why) s = execPreemptRequest gid why s := rfl
@[simp] theorem exec_nodeSnapshotSave (r b n : Nat) (s : State) : exec (.nodeSnapshotSave r b n) s = execNodeSnapshotSave r b n s := rfl
@[simp] theorem exec_haboobQuiescence (r : Nat) (s : State) : exec (.haboobQuiescence r) s = execHaboobQuiescence r s := rfl
@[simp] theorem exec_snapshotComplete (gid : Nat) (bad : Bool) (s : State) : exec (.snapshotComplete gid bad) s = execSnapshotComplete gid bad s := rfl
@[simp] theorem exec_groupRestore (gid : Nat) (s : State) : exec (.groupRestore gid) s = execGroupRestore gid s := rfl
@[simp] theorem exec_restoreComplete (gid : Nat) (bad : Bool) (s : State) : exec (.restoreComplete gid bad) s = execRestoreComplete gid bad s := rfl
@[simp] theorem exec_remoteAck (id : Nat) (value : BitVec 64) (s : State) : exec (.remoteAck id value) s = execRemoteAck id value s := rfl
@[simp] theorem exec_remoteRetryExhausted (id : Nat) (s : State) : exec (.remoteRetryExhausted id) s = execRemoteRetryExhausted id s := rfl
@[simp] theorem exec_remapRequest (core page pos : Nat) (s : State) : exec (.remapRequest core page pos) s = execRemapRequest core page pos s := rfl
@[simp] theorem exec_remapComplete (core page : Nat) (s : State) : exec (.remapComplete core page) s = execRemapComplete core page s := rfl
@[simp] theorem exec_contractBudgetExhaust (cid core : Nat) (s : State) : exec (.contractBudgetExhaust cid core) s = execContractBudgetExhaust cid core s := rfl
@[simp] theorem exec_contractWindowExpire (cid : Nat) (s : State) : exec (.contractWindowExpire cid) s = execContractWindowExpire cid s := rfl
@[simp] theorem exec_contextTeardownDone (c : Nat) (s : State) : exec (.contextTeardownDone c) s = execContextTeardownDone c s := rfl
@[simp] theorem exec_rmaWrite (x : Rma) (data : List (BitVec 8)) (s : State) : exec (.rmaWrite x data) s = execRmaWrite x data s := rfl
@[simp] theorem exec_rmaRead (x : Rma) (len : Nat) (s : State) : exec (.rmaRead x len) s = execRmaRead x len s := rfl
@[simp] theorem exec_rmaAtomic (x : Rma) (op : Aop) (wide : Bool) (v cmp : BitVec 64) (s : State) : exec (.rmaAtomic x op wide v cmp) s = execRmaAtomic x op wide v cmp s := rfl
@[simp] theorem exec_unsupportedPacket (port : Nat) (s : State) : exec (.unsupportedPacket port) s = execUnsupportedPacket port s := rfl
@[simp] theorem exec_devInfo (m : Msg) (s : State) : exec (.devInfo m) s = execDevInfo m s := rfl
@[simp] theorem exec_pageStat (m : Msg) (s : State) : exec (.pageStat m) s = execPageStat m s := rfl
@[simp] theorem exec_ctxCreate (m : Msg) (s : State) : exec (.ctxCreate m) s = execCtxCreate m s := rfl
@[simp] theorem exec_ctxKey (m : Msg) (s : State) : exec (.ctxKey m) s = execCtxKey m s := rfl
@[simp] theorem exec_ctxStart (m : Msg) (s : State) : exec (.ctxStart m) s = execCtxStart m s := rfl
@[simp] theorem exec_ctxSuspend (m : Msg) (s : State) : exec (.ctxSuspend m) s = execCtxSuspend m s := rfl
@[simp] theorem exec_ctxResume (m : Msg) (s : State) : exec (.ctxResume m) s = execCtxResume m s := rfl
@[simp] theorem exec_ctxDestroy (m : Msg) (s : State) : exec (.ctxDestroy m) s = execCtxDestroy m s := rfl
@[simp] theorem exec_ctxQuota (m : Msg) (s : State) : exec (.ctxQuota m) s = execCtxQuota m s := rfl
@[simp] theorem exec_ctxSync (m : Msg) (s : State) : exec (.ctxSync m) s = execCtxSync m s := rfl
@[simp] theorem exec_ctxSyncDone (c : Nat) (s : State) : exec (.ctxSyncDone c) s = execCtxSyncDone c s := rfl
@[simp] theorem exec_qCreate (m : Msg) (s : State) : exec (.qCreate m) s = execQCreate m s := rfl
@[simp] theorem exec_qEnable (m : Msg) (s : State) : exec (.qEnable m) s = execQEnable m s := rfl
@[simp] theorem exec_qDisable (m : Msg) (s : State) : exec (.qDisable m) s = execQDisable m s := rfl
@[simp] theorem exec_qTail (m : Msg) (s : State) : exec (.qTail m) s = execQTail m s := rfl
@[simp] theorem exec_qFlush (m : Msg) (s : State) : exec (.qFlush m) s = execQFlush m s := rfl
@[simp] theorem exec_qRestart (m : Msg) (s : State) : exec (.qRestart m) s = execQRestart m s := rfl
@[simp] theorem exec_qDestroy (m : Msg) (s : State) : exec (.qDestroy m) s = execQDestroy m s := rfl
@[simp] theorem exec_qPop (m : Msg) (s : State) : exec (.qPop m) s = execQPop m s := rfl
@[simp] theorem exec_contractCreate (m : Msg) (s : State) : exec (.contractCreate m) s = execContractCreate m s := rfl
@[simp] theorem exec_contractDestroy (m : Msg) (s : State) : exec (.contractDestroy m) s = execContractDestroy m s := rfl
@[simp] theorem exec_poolReg (m : Msg) (s : State) : exec (.poolReg m) s = execPoolReg m s := rfl
@[simp] theorem exec_poolFree (m : Msg) (s : State) : exec (.poolFree m) s = execPoolFree m s := rfl
@[simp] theorem exec_memWrite (m : Msg) (s : State) : exec (.memWrite m) s = execMemWrite m s := rfl
@[simp] theorem exec_memRead (m : Msg) (s : State) : exec (.memRead m) s = execMemRead m s := rfl
@[simp] theorem exec_chanBind (m : Msg) (s : State) : exec (.chanBind m) s = execChanBind m s := rfl
@[simp] theorem exec_linkStat (m : Msg) (s : State) : exec (.linkStat m) s = execLinkStat m s := rfl
@[simp] theorem exec_linkIsolate (m : Msg) (s : State) : exec (.linkIsolate m) s = execLinkIsolate m s := rfl
@[simp] theorem exec_linkRestore (m : Msg) (s : State) : exec (.linkRestore m) s = execLinkRestore m s := rfl
@[simp] theorem exec_linkEnable (port : Nat) (s : State) : exec (.linkEnable port) s = execLinkEnable port s := rfl
@[simp] theorem exec_linkRetryTimer (port : Nat) (s : State) : exec (.linkRetryTimer port) s = execLinkRetryTimer port s := rfl
@[simp] theorem exec_linkTrainingEnd (port lanes : Nat) (s : State) : exec (.linkTrainingEnd port lanes) s = execLinkTrainingEnd port lanes s := rfl
@[simp] theorem exec_linkLaneFail (port lanes : Nat) (s : State) : exec (.linkLaneFail port lanes) s = execLinkLaneFail port lanes s := rfl
@[simp] theorem exec_linkFerrIsolate (port : Nat) (s : State) : exec (.linkFerrIsolate port) s = execLinkFerrIsolate port s := rfl
@[simp] theorem exec_getVersion (tag : Nat) (s : State) : exec (.getVersion tag) s = execGetVersion tag s := rfl
@[simp] theorem exec_getCapabilities (tag : Nat) (s : State) : exec (.getCapabilities tag) s = execGetCapabilities tag s := rfl
@[simp] theorem exec_negotiateAlgorithms (tag : Nat) (s : State) : exec (.negotiateAlgorithms tag) s = execNegotiateAlgorithms tag s := rfl
@[simp] theorem exec_getDigests (tag : Nat) (s : State) : exec (.getDigests tag) s = execGetDigests tag s := rfl
@[simp] theorem exec_getCertificate (tag : Nat) (s : State) : exec (.getCertificate tag) s = execGetCertificate tag s := rfl
@[simp] theorem exec_challenge (tag : Nat) (nonce : List (BitVec 8)) (s : State) : exec (.challenge tag nonce) s = execChallenge tag nonce s := rfl
@[simp] theorem exec_getMeasurements (tag : Nat) (nonce : List (BitVec 8)) (s : State) : exec (.getMeasurements tag nonce) s = execGetMeasurements tag nonce s := rfl
@[simp] theorem exec_provision (x : Signed) (s : State) : exec (.provision x) s = execProvision x s := rfl
@[simp] theorem exec_setNode (x : Signed) (node : BitVec 16) (s : State) : exec (.setNode x node) s = execSetNode x node s := rfl
@[simp] theorem exec_deploy (x : Signed) (s : State) : exec (.deploy x) s = execDeploy x s := rfl
@[simp] theorem exec_dbgNonce (s : State) : exec (.dbgNonce) s = execDbgNonce s := rfl
@[simp] theorem exec_dbgUnlock (token : List (BitVec 8)) (s : State) : exec (.dbgUnlock token) s = execDbgUnlock token s := rfl
@[simp] theorem exec_decommission (x : Signed) (s : State) : exec (.decommission x) s = execDecommission x s := rfl
@[simp] theorem exec_coldReset (s : State) : exec (.coldReset) s = execColdReset s := rfl
@[simp] theorem exec_warmReset (s : State) : exec (.warmReset) s = execWarmReset s := rfl
@[simp] theorem exec_bootImagePacket (off : Nat) (data : List (BitVec 8)) (last : Bool) (s : State) : exec (.bootImagePacket off data last) s = execBootImagePacket off data last s := rfl
@[simp] theorem exec_powerStateEnter (core : Nat) (s : State) : exec (.powerStateEnter core) s = execPowerStateEnter core s := rfl
@[simp] theorem exec_powerStateWake (core : Nat) (s : State) : exec (.powerStateWake core) s = execPowerStateWake core s := rfl
@[simp] theorem exec_thermalSensing (temps : List Int) (s : State) : exec (.thermalSensing temps) s = execThermalSensing temps s := rfl
@[simp] theorem exec_supplyFault (s : State) : exec (.supplyFault) s = execSupplyFault s := rfl
@[simp] theorem exec_hbmPatrolScrub (stack sector : Nat) (s : State) : exec (.hbmPatrolScrub stack sector) s = execHbmPatrolScrub stack sector s := rfl
@[simp] theorem exec_sramScrub (core : Nat) (s : State) : exec (.sramScrub core) s = execSramScrub core s := rfl
@[simp] theorem exec_hbmRetraining (stack : Nat) (s : State) : exec (.hbmRetraining stack) s = execHbmRetraining stack s := rfl
@[simp] theorem exec_linkEqualisation (port : Nat) (s : State) : exec (.linkEqualisation port) s = execLinkEqualisation port s := rfl
@[simp] theorem exec_hbmRowRepair (stack row : Nat) (s : State) : exec (.hbmRowRepair stack row) s = execHbmRowRepair stack row s := rfl
@[simp] theorem exec_telemetryRecord (s : State) : exec (.telemetryRecord) s = execTelemetryRecord s := rfl
@[simp] theorem exec_accessPerformed (w : AccessWho) (s : State) : exec (.accessPerformed w) s = execAccessPerformed w s := rfl
@[simp] theorem exec_linkLevelRetry (port : Nat) (lost : Bool) (s : State) : exec (.linkLevelRetry port lost) s = execLinkLevelRetry port lost s := rfl
@[simp] theorem exec_hbmRetrainingDone (stack : Nat) (s : State) : exec (.hbmRetrainingDone stack) s = execHbmRetrainingDone stack s := rfl
@[simp] theorem exec_hbmRowRepairDone (stack row : Nat) (s : State) : exec (.hbmRowRepairDone stack row) s = execHbmRowRepairDone stack row s := rfl
@[simp] theorem exec_ingr (x : N32) (s : State) : exec (.ingr x) s = execIngr x s := rfl
@[simp] theorem exec_ingrN64 (x : N64) (s : State) : exec (.ingrN64 x) s = execIngrN64 x s := rfl
@[simp] theorem exec_ingrN96 (x : N96) (s : State) : exec (.ingrN96 x) s = execIngrN96 x s := rfl
@[simp] theorem exec_egr (x : N32) (s : State) : exec (.egr x) s = execEgr x s := rfl
@[simp] theorem exec_egrN64 (x : N64) (s : State) : exec (.egrN64 x) s = execEgrN64 x s := rfl
@[simp] theorem exec_egrN96 (x : N96) (s : State) : exec (.egrN96 x) s = execEgrN96 x s := rfl
@[simp] theorem exec_cst (x : N32) (s : State) : exec (.cst x) s = execCst x s := rfl
@[simp] theorem exec_cstN64 (x : N64) (s : State) : exec (.cstN64 x) s = execCstN64 x s := rfl
@[simp] theorem exec_cstN96 (x : N96) (s : State) : exec (.cstN96 x) s = execCstN96 x s := rfl
@[simp] theorem exec_addNode (x : N32) (s : State) : exec (.addNode x) s = execAddNode x s := rfl
@[simp] theorem exec_addNodeN64 (x : N64) (s : State) : exec (.addNodeN64 x) s = execAddNodeN64 x s := rfl
@[simp] theorem exec_addNodeN96 (x : N96) (s : State) : exec (.addNodeN96 x) s = execAddNodeN96 x s := rfl
@[simp] theorem exec_subNode (x : N32) (s : State) : exec (.subNode x) s = execSubNode x s := rfl
@[simp] theorem exec_subNodeN64 (x : N64) (s : State) : exec (.subNodeN64 x) s = execSubNodeN64 x s := rfl
@[simp] theorem exec_subNodeN96 (x : N96) (s : State) : exec (.subNodeN96 x) s = execSubNodeN96 x s := rfl
@[simp] theorem exec_mulNode (x : N32) (s : State) : exec (.mulNode x) s = execMulNode x s := rfl
@[simp] theorem exec_mulNodeN64 (x : N64) (s : State) : exec (.mulNodeN64 x) s = execMulNodeN64 x s := rfl
@[simp] theorem exec_mulNodeN96 (x : N96) (s : State) : exec (.mulNodeN96 x) s = execMulNodeN96 x s := rfl
@[simp] theorem exec_mad (x : N32) (s : State) : exec (.mad x) s = execMad x s := rfl
@[simp] theorem exec_madN64 (x : N64) (s : State) : exec (.madN64 x) s = execMadN64 x s := rfl
@[simp] theorem exec_madN96 (x : N96) (s : State) : exec (.madN96 x) s = execMadN96 x s := rfl
@[simp] theorem exec_minNode (x : N32) (s : State) : exec (.minNode x) s = execMinNode x s := rfl
@[simp] theorem exec_minNodeN64 (x : N64) (s : State) : exec (.minNodeN64 x) s = execMinNodeN64 x s := rfl
@[simp] theorem exec_minNodeN96 (x : N96) (s : State) : exec (.minNodeN96 x) s = execMinNodeN96 x s := rfl
@[simp] theorem exec_maxNode (x : N32) (s : State) : exec (.maxNode x) s = execMaxNode x s := rfl
@[simp] theorem exec_maxNodeN64 (x : N64) (s : State) : exec (.maxNodeN64 x) s = execMaxNodeN64 x s := rfl
@[simp] theorem exec_maxNodeN96 (x : N96) (s : State) : exec (.maxNodeN96 x) s = execMaxNodeN96 x s := rfl
@[simp] theorem exec_absNode (x : N32) (s : State) : exec (.absNode x) s = execAbsNode x s := rfl
@[simp] theorem exec_absNodeN64 (x : N64) (s : State) : exec (.absNodeN64 x) s = execAbsNodeN64 x s := rfl
@[simp] theorem exec_absNodeN96 (x : N96) (s : State) : exec (.absNodeN96 x) s = execAbsNodeN96 x s := rfl
@[simp] theorem exec_andNode (x : N32) (s : State) : exec (.andNode x) s = execAndNode x s := rfl
@[simp] theorem exec_andNodeN64 (x : N64) (s : State) : exec (.andNodeN64 x) s = execAndNodeN64 x s := rfl
@[simp] theorem exec_andNodeN96 (x : N96) (s : State) : exec (.andNodeN96 x) s = execAndNodeN96 x s := rfl
@[simp] theorem exec_orNode (x : N32) (s : State) : exec (.orNode x) s = execOrNode x s := rfl
@[simp] theorem exec_orNodeN64 (x : N64) (s : State) : exec (.orNodeN64 x) s = execOrNodeN64 x s := rfl
@[simp] theorem exec_orNodeN96 (x : N96) (s : State) : exec (.orNodeN96 x) s = execOrNodeN96 x s := rfl
@[simp] theorem exec_xorNode (x : N32) (s : State) : exec (.xorNode x) s = execXorNode x s := rfl
@[simp] theorem exec_xorNodeN64 (x : N64) (s : State) : exec (.xorNodeN64 x) s = execXorNodeN64 x s := rfl
@[simp] theorem exec_xorNodeN96 (x : N96) (s : State) : exec (.xorNodeN96 x) s = execXorNodeN96 x s := rfl
@[simp] theorem exec_shlNode (x : N32) (s : State) : exec (.shlNode x) s = execShlNode x s := rfl
@[simp] theorem exec_shlNodeN64 (x : N64) (s : State) : exec (.shlNodeN64 x) s = execShlNodeN64 x s := rfl
@[simp] theorem exec_shlNodeN96 (x : N96) (s : State) : exec (.shlNodeN96 x) s = execShlNodeN96 x s := rfl
@[simp] theorem exec_shrNode (x : N32) (s : State) : exec (.shrNode x) s = execShrNode x s := rfl
@[simp] theorem exec_shrNodeN64 (x : N64) (s : State) : exec (.shrNodeN64 x) s = execShrNodeN64 x s := rfl
@[simp] theorem exec_shrNodeN96 (x : N96) (s : State) : exec (.shrNodeN96 x) s = execShrNodeN96 x s := rfl
@[simp] theorem exec_sarNode (x : N32) (s : State) : exec (.sarNode x) s = execSarNode x s := rfl
@[simp] theorem exec_sarNodeN64 (x : N64) (s : State) : exec (.sarNodeN64 x) s = execSarNodeN64 x s := rfl
@[simp] theorem exec_sarNodeN96 (x : N96) (s : State) : exec (.sarNodeN96 x) s = execSarNodeN96 x s := rfl
@[simp] theorem exec_cmpNode (x : N32) (s : State) : exec (.cmpNode x) s = execCmpNode x s := rfl
@[simp] theorem exec_cmpNodeN64 (x : N64) (s : State) : exec (.cmpNodeN64 x) s = execCmpNodeN64 x s := rfl
@[simp] theorem exec_cmpNodeN96 (x : N96) (s : State) : exec (.cmpNodeN96 x) s = execCmpNodeN96 x s := rfl
@[simp] theorem exec_selNode (x : N32) (s : State) : exec (.selNode x) s = execSelNode x s := rfl
@[simp] theorem exec_selNodeN64 (x : N64) (s : State) : exec (.selNodeN64 x) s = execSelNodeN64 x s := rfl
@[simp] theorem exec_selNodeN96 (x : N96) (s : State) : exec (.selNodeN96 x) s = execSelNodeN96 x s := rfl
@[simp] theorem exec_cvt (x : N32) (s : State) : exec (.cvt x) s = execCvt x s := rfl
@[simp] theorem exec_cvtN64 (x : N64) (s : State) : exec (.cvtN64 x) s = execCvtN64 x s := rfl
@[simp] theorem exec_cvtN96 (x : N96) (s : State) : exec (.cvtN96 x) s = execCvtN96 x s := rfl
@[simp] theorem exec_fadd (x : N32) (s : State) : exec (.fadd x) s = execFadd x s := rfl
@[simp] theorem exec_faddN64 (x : N64) (s : State) : exec (.faddN64 x) s = execFaddN64 x s := rfl
@[simp] theorem exec_faddN96 (x : N96) (s : State) : exec (.faddN96 x) s = execFaddN96 x s := rfl
@[simp] theorem exec_fmul (x : N32) (s : State) : exec (.fmul x) s = execFmul x s := rfl
@[simp] theorem exec_fmulN64 (x : N64) (s : State) : exec (.fmulN64 x) s = execFmulN64 x s := rfl
@[simp] theorem exec_fmulN96 (x : N96) (s : State) : exec (.fmulN96 x) s = execFmulN96 x s := rfl
@[simp] theorem exec_fma (x : N32) (s : State) : exec (.fma x) s = execFma x s := rfl
@[simp] theorem exec_fmaN64 (x : N64) (s : State) : exec (.fmaN64 x) s = execFmaN64 x s := rfl
@[simp] theorem exec_fmaN96 (x : N96) (s : State) : exec (.fmaN96 x) s = execFmaN96 x s := rfl
@[simp] theorem exec_fmin (x : N32) (s : State) : exec (.fmin x) s = execFmin x s := rfl
@[simp] theorem exec_fminN64 (x : N64) (s : State) : exec (.fminN64 x) s = execFminN64 x s := rfl
@[simp] theorem exec_fminN96 (x : N96) (s : State) : exec (.fminN96 x) s = execFminN96 x s := rfl
@[simp] theorem exec_fmax (x : N32) (s : State) : exec (.fmax x) s = execFmax x s := rfl
@[simp] theorem exec_fmaxN64 (x : N64) (s : State) : exec (.fmaxN64 x) s = execFmaxN64 x s := rfl
@[simp] theorem exec_fmaxN96 (x : N96) (s : State) : exec (.fmaxN96 x) s = execFmaxN96 x s := rfl
@[simp] theorem exec_fcmp (x : N32) (s : State) : exec (.fcmp x) s = execFcmp x s := rfl
@[simp] theorem exec_fcmpN64 (x : N64) (s : State) : exec (.fcmpN64 x) s = execFcmpN64 x s := rfl
@[simp] theorem exec_fcmpN96 (x : N96) (s : State) : exec (.fcmpN96 x) s = execFcmpN96 x s := rfl
@[simp] theorem exec_frcp (x : N32) (s : State) : exec (.frcp x) s = execFrcp x s := rfl
@[simp] theorem exec_frcpN64 (x : N64) (s : State) : exec (.frcpN64 x) s = execFrcpN64 x s := rfl
@[simp] theorem exec_frcpN96 (x : N96) (s : State) : exec (.frcpN96 x) s = execFrcpN96 x s := rfl
@[simp] theorem exec_frsq (x : N32) (s : State) : exec (.frsq x) s = execFrsq x s := rfl
@[simp] theorem exec_frsqN64 (x : N64) (s : State) : exec (.frsqN64 x) s = execFrsqN64 x s := rfl
@[simp] theorem exec_frsqN96 (x : N96) (s : State) : exec (.frsqN96 x) s = execFrsqN96 x s := rfl
@[simp] theorem exec_fexp2 (x : N32) (s : State) : exec (.fexp2 x) s = execFexp2 x s := rfl
@[simp] theorem exec_fexp2N64 (x : N64) (s : State) : exec (.fexp2N64 x) s = execFexp2N64 x s := rfl
@[simp] theorem exec_fexp2N96 (x : N96) (s : State) : exec (.fexp2N96 x) s = execFexp2N96 x s := rfl
@[simp] theorem exec_flog2 (x : N32) (s : State) : exec (.flog2 x) s = execFlog2 x s := rfl
@[simp] theorem exec_flog2N64 (x : N64) (s : State) : exec (.flog2N64 x) s = execFlog2N64 x s := rfl
@[simp] theorem exec_flog2N96 (x : N96) (s : State) : exec (.flog2N96 x) s = execFlog2N96 x s := rfl
@[simp] theorem exec_unpk3 (x : N32) (s : State) : exec (.unpk3 x) s = execUnpk3 x s := rfl
@[simp] theorem exec_unpk3N64 (x : N64) (s : State) : exec (.unpk3N64 x) s = execUnpk3N64 x s := rfl
@[simp] theorem exec_unpk3N96 (x : N96) (s : State) : exec (.unpk3N96 x) s = execUnpk3N96 x s := rfl
@[simp] theorem exec_bmandN64 (x : N64) (s : State) : exec (.bmandN64 x) s = execBmandN64 x s := rfl
@[simp] theorem exec_bmandN96 (x : N96) (s : State) : exec (.bmandN96 x) s = execBmandN96 x s := rfl
@[simp] theorem exec_pfxpop (x : N32) (s : State) : exec (.pfxpop x) s = execPfxpop x s := rfl
@[simp] theorem exec_pfxpopN64 (x : N64) (s : State) : exec (.pfxpopN64 x) s = execPfxpopN64 x s := rfl
@[simp] theorem exec_pfxpopN96 (x : N96) (s : State) : exec (.pfxpopN96 x) s = execPfxpopN96 x s := rfl
@[simp] theorem exec_six (x : N32) (s : State) : exec (.six x) s = execSix x s := rfl
@[simp] theorem exec_sixN64 (x : N64) (s : State) : exec (.sixN64 x) s = execSixN64 x s := rfl
@[simp] theorem exec_sixN96 (x : N96) (s : State) : exec (.sixN96 x) s = execSixN96 x s := rfl
@[simp] theorem exec_sun (x : N32) (s : State) : exec (.sun x) s = execSun x s := rfl
@[simp] theorem exec_sunN64 (x : N64) (s : State) : exec (.sunN64 x) s = execSunN64 x s := rfl
@[simp] theorem exec_sunN96 (x : N96) (s : State) : exec (.sunN96 x) s = execSunN96 x s := rfl
@[simp] theorem exec_topk (x : N32) (s : State) : exec (.topk x) s = execTopk x s := rfl
@[simp] theorem exec_topkN64 (x : N64) (s : State) : exec (.topkN64 x) s = execTopkN64 x s := rfl
@[simp] theorem exec_topkN96 (x : N96) (s : State) : exec (.topkN96 x) s = execTopkN96 x s := rfl
@[simp] theorem exec_mm (x : N32) (s : State) : exec (.mm x) s = execMm x s := rfl
@[simp] theorem exec_mmN64 (x : N64) (s : State) : exec (.mmN64 x) s = execMmN64 x s := rfl
@[simp] theorem exec_mmN96 (x : N96) (s : State) : exec (.mmN96 x) s = execMmN96 x s := rfl
@[simp] theorem exec_mmpl (x : N32) (s : State) : exec (.mmpl x) s = execMmpl x s := rfl
@[simp] theorem exec_mmplN64 (x : N64) (s : State) : exec (.mmplN64 x) s = execMmplN64 x s := rfl
@[simp] theorem exec_mmplN96 (x : N96) (s : State) : exec (.mmplN96 x) s = execMmplN96 x s := rfl
@[simp] theorem exec_acc (x : N32) (s : State) : exec (.acc x) s = execAcc x s := rfl
@[simp] theorem exec_accN64 (x : N64) (s : State) : exec (.accN64 x) s = execAccN64 x s := rfl
@[simp] theorem exec_accN96 (x : N96) (s : State) : exec (.accN96 x) s = execAccN96 x s := rfl
@[simp] theorem exec_drain (x : N32) (s : State) : exec (.drain x) s = execDrain x s := rfl
@[simp] theorem exec_drainN64 (x : N64) (s : State) : exec (.drainN64 x) s = execDrainN64 x s := rfl
@[simp] theorem exec_drainN96 (x : N96) (s : State) : exec (.drainN96 x) s = execDrainN96 x s := rfl
@[simp] theorem exec_cnt (x : N32) (s : State) : exec (.cnt x) s = execCnt x s := rfl
@[simp] theorem exec_cntN64 (x : N64) (s : State) : exec (.cntN64 x) s = execCntN64 x s := rfl
@[simp] theorem exec_cntN96 (x : N96) (s : State) : exec (.cntN96 x) s = execCntN96 x s := rfl
@[simp] theorem exec_agen (x : N32) (s : State) : exec (.agen x) s = execAgen x s := rfl
@[simp] theorem exec_agenN64 (x : N64) (s : State) : exec (.agenN64 x) s = execAgenN64 x s := rfl
@[simp] theorem exec_agenN96 (x : N96) (s : State) : exec (.agenN96 x) s = execAgenN96 x s := rfl
@[simp] theorem exec_join (x : N32) (s : State) : exec (.join x) s = execJoin x s := rfl
@[simp] theorem exec_joinN64 (x : N64) (s : State) : exec (.joinN64 x) s = execJoinN64 x s := rfl
@[simp] theorem exec_joinN96 (x : N96) (s : State) : exec (.joinN96 x) s = execJoinN96 x s := rfl
@[simp] theorem exec_split (x : N32) (s : State) : exec (.split x) s = execSplit x s := rfl
@[simp] theorem exec_splitN64 (x : N64) (s : State) : exec (.splitN64 x) s = execSplitN64 x s := rfl
@[simp] theorem exec_splitN96 (x : N96) (s : State) : exec (.splitN96 x) s = execSplitN96 x s := rfl
@[simp] theorem exec_merge (x : N32) (s : State) : exec (.merge x) s = execMerge x s := rfl
@[simp] theorem exec_mergeN64 (x : N64) (s : State) : exec (.mergeN64 x) s = execMergeN64 x s := rfl
@[simp] theorem exec_mergeN96 (x : N96) (s : State) : exec (.mergeN96 x) s = execMergeN96 x s := rfl
@[simp] theorem exec_steer (x : N32) (s : State) : exec (.steer x) s = execSteer x s := rfl
@[simp] theorem exec_steerN64 (x : N64) (s : State) : exec (.steerN64 x) s = execSteerN64 x s := rfl
@[simp] theorem exec_steerN96 (x : N96) (s : State) : exec (.steerN96 x) s = execSteerN96 x s := rfl
@[simp] theorem exec_bartok (x : N32) (s : State) : exec (.bartok x) s = execBartok x s := rfl
@[simp] theorem exec_bartokN64 (x : N64) (s : State) : exec (.bartokN64 x) s = execBartokN64 x s := rfl
@[simp] theorem exec_bartokN96 (x : N96) (s : State) : exec (.bartokN96 x) s = execBartokN96 x s := rfl
@[simp] theorem exec_ldn (x : N32) (s : State) : exec (.ldn x) s = execLdn x s := rfl
@[simp] theorem exec_ldnN64 (x : N64) (s : State) : exec (.ldnN64 x) s = execLdnN64 x s := rfl
@[simp] theorem exec_ldnN96 (x : N96) (s : State) : exec (.ldnN96 x) s = execLdnN96 x s := rfl
@[simp] theorem exec_stn (x : N32) (s : State) : exec (.stn x) s = execStn x s := rfl
@[simp] theorem exec_stnN64 (x : N64) (s : State) : exec (.stnN64 x) s = execStnN64 x s := rfl
@[simp] theorem exec_stnN96 (x : N96) (s : State) : exec (.stnN96 x) s = execStnN96 x s := rfl
@[simp] theorem exec_atomNode (x : N32) (s : State) : exec (.atomNode x) s = execAtomNode x s := rfl
@[simp] theorem exec_atomNodeN64 (x : N64) (s : State) : exec (.atomNodeN64 x) s = execAtomNodeN64 x s := rfl
@[simp] theorem exec_atomNodeN96 (x : N96) (s : State) : exec (.atomNodeN96 x) s = execAtomNodeN96 x s := rfl
@[simp] theorem exec_acqn (x : N32) (s : State) : exec (.acqn x) s = execAcqn x s := rfl
@[simp] theorem exec_acqnN64 (x : N64) (s : State) : exec (.acqnN64 x) s = execAcqnN64 x s := rfl
@[simp] theorem exec_acqnN96 (x : N96) (s : State) : exec (.acqnN96 x) s = execAcqnN96 x s := rfl
@[simp] theorem exec_relnN64 (x : N64) (s : State) : exec (.relnN64 x) s = execRelnN64 x s := rfl
@[simp] theorem exec_relnN96 (x : N96) (s : State) : exec (.relnN96 x) s = execRelnN96 x s := rfl
@[simp] theorem exec_wcvt (x : N32) (s : State) : exec (.wcvt x) s = execWcvt x s := rfl
@[simp] theorem exec_wcvtN64 (x : N64) (s : State) : exec (.wcvtN64 x) s = execWcvtN64 x s := rfl
@[simp] theorem exec_wcvtN96 (x : N96) (s : State) : exec (.wcvtN96 x) s = execWcvtN96 x s := rfl
@[simp] theorem exec_mstore (x : N32) (s : State) : exec (.mstore x) s = execMstore x s := rfl
@[simp] theorem exec_mstoreN64 (x : N64) (s : State) : exec (.mstoreN64 x) s = execMstoreN64 x s := rfl
@[simp] theorem exec_mstoreN96 (x : N96) (s : State) : exec (.mstoreN96 x) s = execMstoreN96 x s := rfl
@[simp] theorem exec_pivdiv (x : N32) (s : State) : exec (.pivdiv x) s = execPivdiv x s := rfl
@[simp] theorem exec_pivdivN64 (x : N64) (s : State) : exec (.pivdivN64 x) s = execPivdivN64 x s := rfl
@[simp] theorem exec_pivdivN96 (x : N96) (s : State) : exec (.pivdivN96 x) s = execPivdivN96 x s := rfl
@[simp] theorem exec_resid (x : N32) (s : State) : exec (.resid x) s = execResid x s := rfl
@[simp] theorem exec_residN64 (x : N64) (s : State) : exec (.residN64 x) s = execResidN64 x s := rfl
@[simp] theorem exec_residN96 (x : N96) (s : State) : exec (.residN96 x) s = execResidN96 x s := rfl
@[simp] theorem exec_shuf (x : N32) (s : State) : exec (.shuf x) s = execShuf x s := rfl
@[simp] theorem exec_shufN64 (x : N64) (s : State) : exec (.shufN64 x) s = execShufN64 x s := rfl
@[simp] theorem exec_shufN96 (x : N96) (s : State) : exec (.shufN96 x) s = execShufN96 x s := rfl
@[simp] theorem exec_fmerge (x : N32) (s : State) : exec (.fmerge x) s = execFmerge x s := rfl
@[simp] theorem exec_fmergeN64 (x : N64) (s : State) : exec (.fmergeN64 x) s = execFmergeN64 x s := rfl
@[simp] theorem exec_fmergeN96 (x : N96) (s : State) : exec (.fmergeN96 x) s = execFmergeN96 x s := rfl
@[simp] theorem exec_fins (x : N32) (s : State) : exec (.fins x) s = execFins x s := rfl
@[simp] theorem exec_finsN64 (x : N64) (s : State) : exec (.finsN64 x) s = execFinsN64 x s := rfl
@[simp] theorem exec_finsN96 (x : N96) (s : State) : exec (.finsN96 x) s = execFinsN96 x s := rfl
@[simp] theorem exec_fscan (x : N32) (s : State) : exec (.fscan x) s = execFscan x s := rfl
@[simp] theorem exec_fscanN64 (x : N64) (s : State) : exec (.fscanN64 x) s = execFscanN64 x s := rfl
@[simp] theorem exec_fscanN96 (x : N96) (s : State) : exec (.fscanN96 x) s = execFscanN96 x s := rfl
@[simp] theorem exec_fprobe (x : N32) (s : State) : exec (.fprobe x) s = execFprobe x s := rfl
@[simp] theorem exec_fprobeN64 (x : N64) (s : State) : exec (.fprobeN64 x) s = execFprobeN64 x s := rfl
@[simp] theorem exec_fprobeN96 (x : N96) (s : State) : exec (.fprobeN96 x) s = execFprobeN96 x s := rfl
@[simp] theorem exec_finter (x : N32) (s : State) : exec (.finter x) s = execFinter x s := rfl
@[simp] theorem exec_finterN64 (x : N64) (s : State) : exec (.finterN64 x) s = execFinterN64 x s := rfl
@[simp] theorem exec_finterN96 (x : N96) (s : State) : exec (.finterN96 x) s = execFinterN96 x s := rfl
@[simp] theorem exec_fcountN64 (x : N64) (s : State) : exec (.fcountN64 x) s = execFcountN64 x s := rfl
@[simp] theorem exec_fcountN96 (x : N96) (s : State) : exec (.fcountN96 x) s = execFcountN96 x s := rfl
@[simp] theorem exec_fclearN64 (x : N64) (s : State) : exec (.fclearN64 x) s = execFclearN64 x s := rfl
@[simp] theorem exec_fclearN96 (x : N96) (s : State) : exec (.fclearN96 x) s = execFclearN96 x s := rfl
@[simp] theorem exec_fcompactN64 (x : N64) (s : State) : exec (.fcompactN64 x) s = execFcompactN64 x s := rfl
@[simp] theorem exec_fcompactN96 (x : N96) (s : State) : exec (.fcompactN96 x) s = execFcompactN96 x s := rfl
@[simp] theorem exec_ftopk (x : N32) (s : State) : exec (.ftopk x) s = execFtopk x s := rfl
@[simp] theorem exec_ftopkN64 (x : N64) (s : State) : exec (.ftopkN64 x) s = execFtopkN64 x s := rfl
@[simp] theorem exec_ftopkN96 (x : N96) (s : State) : exec (.ftopkN96 x) s = execFtopkN96 x s := rfl
@[simp] theorem exec_fstatN64 (x : N64) (s : State) : exec (.fstatN64 x) s = execFstatN64 x s := rfl
@[simp] theorem exec_fstatN96 (x : N96) (s : State) : exec (.fstatN96 x) s = execFstatN96 x s := rfl

end Sys2Proof.Machine
end

