-- ==== Sys2Proof/Laws/Memory.lean ====
section
/-! SUPPORT. Laws of memory: a read after a write, the canonical form, and what the writes of the model's memory
operations keep. -/
namespace Sys2Proof.Machine

/-- The byte just written reads back. -/
@[simp] theorem Memory.get_set_same (m : List Host.Cell) (a : Nat) (b : Byte) (h : Memory.wf m = true) :
    Memory.get (Memory.set m a b) a = b := by
  suffices H : ∀ n, Memory.wfFrom n m = true → Memory.get (Memory.set m a b) a = b from H 0 h
  clear h
  induction m with
  | nil => intro n _; simp only [Memory.set]; split <;> simp_all [Memory.get]
  | cons e t ih =>
    obtain ⟨k, v⟩ := e
    intro n hn
    simp only [Memory.wfFrom, Bool.and_eq_true, decide_eq_true_eq] at hn
    have low : ∀ (l : List Host.Cell) (n : Nat), Memory.wfFrom n l = true → a < n → Memory.get l a = 0 := by
      intro l
      induction l with
      | nil => intros; rfl
      | cons e t ih =>
        obtain ⟨k, v⟩ := e
        intro n hn ha
        simp only [Memory.wfFrom, Bool.and_eq_true, decide_eq_true_eq] at hn
        have : k ≠ a := by omega
        simp only [Memory.get, this, if_false]
        exact ih (k + 1) hn.2 (by omega)
    simp only [Memory.set]
    split
    · next hlt =>
      have hk : k ≠ a := by omega
      split
      · next hb => simp only [Memory.get, hk, if_false, hb]; exact low t (k + 1) hn.2 (by omega)
      · simp [Memory.get]
    · split
      · next h1 h2 =>
        subst h2
        split
        · next hb => rw [hb]; exact low t (a + 1) hn.2 (by omega)
        · simp [Memory.get]
      · next h1 h2 =>
        have hk : k ≠ a := Ne.symm h2
        simp only [Memory.get, hk, if_false]
        exact ih (k + 1) hn.2

/-- A write leaves every other byte alone. -/
theorem Memory.get_set_ne (m : List Host.Cell) {a c : Nat} (h : c ≠ a) (b : Byte) :
    Memory.get (Memory.set m a b) c = Memory.get m c := by
  induction m with
  | nil => simp only [Memory.set]; split <;> simp [Memory.get, Ne.symm h]
  | cons e t ih =>
    obtain ⟨k, v⟩ := e
    simp only [Memory.set]
    split
    · split
      · rfl
      · simp [Memory.get, Ne.symm h]
    · split
      · next h1 h2 =>
        subst h2
        split <;> simp [Memory.get, Ne.symm h]
      · simp [Memory.get, ih]

theorem Memory.wfFrom_mono (m : List Host.Cell) {n k : Nat} (h : n ≤ k) (w : Memory.wfFrom k m = true) :
    Memory.wfFrom n m = true := by
  cases m with
  | nil => rfl
  | cons e t =>
    obtain ⟨a, v⟩ := e
    simp only [Memory.wfFrom, Bool.and_eq_true, decide_eq_true_eq] at w ⊢
    exact ⟨⟨by omega, w.1.2⟩, w.2⟩

theorem Memory.wfFrom_set (m : List Host.Cell) (a : Nat) (b : Byte) {n : Nat} (ha : n ≤ a)
    (w : Memory.wfFrom n m = true) : Memory.wfFrom n (Memory.set m a b) = true := by
  induction m generalizing n with
  | nil => simp only [Memory.set]; split <;> simp_all [Memory.wfFrom]
  | cons e t ih =>
    obtain ⟨k, v⟩ := e
    have w0 := w
    simp only [Memory.wfFrom, Bool.and_eq_true, decide_eq_true_eq] at w
    simp only [Memory.set]
    split
    · next hlt =>
      split
      · exact w0
      · next hb =>
        have hk : a + 1 ≤ k := hlt
        simp only [Memory.wfFrom, Bool.and_eq_true, decide_eq_true_eq, bne_iff_ne]
        exact ⟨⟨ha, hb⟩, ⟨hk, by simpa using w.1.2⟩, w.2⟩
    · split
      · next h1 h2 =>
        subst h2
        split
        · exact Memory.wfFrom_mono t (by omega) w.2
        · next hb =>
          simp only [Memory.wfFrom, Bool.and_eq_true, decide_eq_true_eq, bne_iff_ne]
          exact ⟨⟨ha, hb⟩, w.2⟩
      · next h1 h2 =>
        have hk : k + 1 ≤ a := by omega
        simp only [Memory.wfFrom, Bool.and_eq_true, decide_eq_true_eq]
        exact ⟨w.1, ih hk w.2⟩

/-- A write of a byte keeps the canonical form. -/
theorem Memory.wf_set (m : List Host.Cell) (a : Nat) (b : Byte) (h : Memory.wf m = true) :
    Memory.wf (Memory.set m a b) = true := Memory.wfFrom_set m a b (Nat.zero_le a) h

/-- A write of bytes keeps the canonical form. -/
theorem Memory.wf_setAll (m : List Host.Cell) (a : Nat) (l : List Byte) (h : Memory.wf m = true) :
    Memory.wf (Memory.setAll m a l) = true := by
  induction l generalizing m a with
  | nil => exact h
  | cons b t ih => exact ih _ _ (Memory.wf_set m a b h)

/-- A byte outside a write keeps its value. -/
theorem Memory.get_setAll_out (m : List Host.Cell) (a : Nat) (l : List Byte) {c : Nat}
    (h : c < a ∨ a + l.length ≤ c) : Memory.get (Memory.setAll m a l) c = Memory.get m c := by
  induction l generalizing m a with
  | nil => rfl
  | cons b t ih =>
    simp only [Memory.setAll, List.length_cons] at h ⊢
    rw [ih _ _ (by omega), Memory.get_set_ne m (by omega)]

/-- A byte inside a write reads as written. -/
theorem Memory.get_setAll_in (m : List Host.Cell) (a : Nat) (l : List Byte) (w : Memory.wf m = true) {i : Nat}
    (h : i < l.length) : Memory.get (Memory.setAll m a l) (a + i) = l[i] := by
  induction l generalizing m a i with
  | nil => exact absurd h (Nat.not_lt_zero i)
  | cons b t ih =>
    cases i with
    | zero =>
      simp only [Memory.setAll, Nat.add_zero, List.getElem_cons_zero]
      rw [Memory.get_setAll_out _ _ _ (by omega), Memory.get_set_same m a b w]
    | succ i =>
      have h' : i < t.length := by simpa using h
      have := ih (Memory.set m a b) (a + 1) (Memory.wf_set m a b w) h'
      simpa [Memory.setAll, Nat.add_assoc, Nat.add_comm 1 i] using this

/-- Memory at reset has the canonical form. -/
theorem reset_mem_wf : Memory.wf State.reset.mem = true := rfl

/-! ### The operations that write -/

theorem poke_wf (s : State) (key : MemKey) (a : Nat) (l : List Byte) (h : Memory.wf s.mem = true) :
    Memory.wf (s.poke key a l).mem = true := by
  show Memory.wf (Memory.setAll (if s.readable key (sectorOf a) then s.mem else _) a l) = true
  split
  · exact Memory.wf_setAll _ _ _ h
  · exact Memory.wf_setAll _ _ _ (Memory.wf_setAll _ _ _ h)

theorem write_wf (s : State) (key : MemKey) (a : Nat) (l : List Byte) (h : Memory.wf s.mem = true) :
    Memory.wf (s.write key a l).mem = true := poke_wf s key a l h

theorem writeBad_wf (s : State) (key : MemKey) (a n : Nat) (h : Memory.wf s.mem = true) :
    Memory.wf (s.writeBad key a n).mem = true := poke_wf s key a _ h

theorem writeAll_wf (s : State) (key : MemKey) (a : Nat) (l : List Byte) (h : Memory.wf s.mem = true) :
    Memory.wf (s.writeAll key a l).mem = true := by
  unfold State.writeAll
  generalize pieces a l.length = ps
  induction ps generalizing s with
  | nil => exact h
  | cons p t ih => exact ih _ (write_wf s key p.1 _ h)

end Sys2Proof.Machine
end

