-- ==== Sys2Proof/Laws/State.lean ====
section
/-! SUPPORT. One lemma per field per update: what an update of the state, or of a sequencer's registers, changes and
what it leaves. -/
namespace Sys2Proof.Machine

/-! ### The state -/

@[simp] theorem State.setRg_agenda (s : State) (r : Nat) (x : Region) : (s.setRg r x).agenda = s.agenda := rfl
@[simp] theorem State.setRg_freeIx (s : State) (r : Nat) (x : Region) : (s.setRg r x).freeIx = s.freeIx := rfl
@[simp] theorem State.setRg_agent (s : State) (r : Nat) (x : Region) : (s.setRg r x).agent = s.agent := rfl
@[simp] theorem State.setRg_nextId (s : State) (r : Nat) (x : Region) : (s.setRg r x).nextId = s.nextId := rfl
@[simp] theorem State.setRg_mem (s : State) (r : Nat) (x : Region) : (s.setRg r x).mem = s.mem := rfl
@[simp] theorem State.setRg_hist (s : State) (r : Nat) (x : Region) : (s.setRg r x).hist = s.hist := rfl
@[simp] theorem State.setRg_side (s : State) (r : Nat) (x : Region) : (s.setRg r x).side = s.side := rfl
@[simp] theorem State.setRg_pins (s : State) (r : Nat) (x : Region) : (s.setRg r x).pins = s.pins := rfl
@[simp] theorem State.setRg_watch (s : State) (r : Nat) (x : Region) : (s.setRg r x).watch = s.watch := rfl
@[simp] theorem State.setRg_arrivals (s : State) (r : Nat) (x : Region) : (s.setRg r x).arrivals = s.arrivals := rfl
@[simp] theorem State.setRg_cores (s : State) (r : Nat) (x : Region) : (s.setRg r x).cores = s.cores := rfl
@[simp] theorem State.setRg_regions (s : State) (r : Nat) (x : Region) : (s.setRg r x).regions = s.regions.put r x := rfl
@[simp] theorem State.setRg_groups (s : State) (r : Nat) (x : Region) : (s.setRg r x).groups = s.groups := rfl
@[simp] theorem State.setRg_ctxs (s : State) (r : Nat) (x : Region) : (s.setRg r x).ctxs = s.ctxs := rfl
@[simp] theorem State.setRg_gens (s : State) (r : Nat) (x : Region) : (s.setRg r x).gens = s.gens := rfl
@[simp] theorem State.setRg_queues (s : State) (r : Nat) (x : Region) : (s.setRg r x).queues = s.queues := rfl
@[simp] theorem State.setRg_goneQ (s : State) (r : Nat) (x : Region) : (s.setRg r x).goneQ = s.goneQ := rfl
@[simp] theorem State.setRg_contracts (s : State) (r : Nat) (x : Region) : (s.setRg r x).contracts = s.contracts := rfl
@[simp] theorem State.setRg_pools (s : State) (r : Nat) (x : Region) : (s.setRg r x).pools = s.pools := rfl
@[simp] theorem State.setRg_fibres (s : State) (r : Nat) (x : Region) : (s.setRg r x).fibres = s.fibres := rfl
@[simp] theorem State.setRg_fops (s : State) (r : Nat) (x : Region) : (s.setRg r x).fops = s.fops := rfl
@[simp] theorem State.setRg_faults (s : State) (r : Nat) (x : Region) : (s.setRg r x).faults = s.faults := rfl
@[simp] theorem State.setRg_remotes (s : State) (r : Nat) (x : Region) : (s.setRg r x).remotes = s.remotes := rfl
@[simp] theorem State.setRg_owed (s : State) (r : Nat) (x : Region) : (s.setRg r x).owed = s.owed := rfl
@[simp] theorem State.setRg_ports (s : State) (r : Nat) (x : Region) : (s.setRg r x).ports = s.ports := rfl
@[simp] theorem State.setRg_sec (s : State) (r : Nat) (x : Region) : (s.setRg r x).sec = s.sec := rfl
@[simp] theorem State.setRg_tele (s : State) (r : Nat) (x : Region) : (s.setRg r x).tele = s.tele := rfl
@[simp] theorem State.setRg_notices (s : State) (r : Nat) (x : Region) : (s.setRg r x).notices = s.notices := rfl
@[simp] theorem State.setRg_clears (s : State) (r : Nat) (x : Region) : (s.setRg r x).clears = s.clears := rfl
@[simp] theorem State.setRg_lastStart (s : State) (r : Nat) (x : Region) : (s.setRg r x).lastStart = s.lastStart := rfl
@[simp] theorem State.setRg_rodNext (s : State) (r : Nat) (x : Region) : (s.setRg r x).rodNext = s.rodNext := rfl
@[simp] theorem State.setRg_rudSeen (s : State) (r : Nat) (x : Region) : (s.setRg r x).rudSeen = s.rudSeen := rfl
@[simp] theorem State.setRg_retraining (s : State) (r : Nat) (x : Region) : (s.setRg r x).retraining = s.retraining := rfl
@[simp] theorem State.setRg_repairing (s : State) (r : Nat) (x : Region) : (s.setRg r x).repairing = s.repairing := rfl
@[simp] theorem State.setRg_rowErrs (s : State) (r : Nat) (x : Region) : (s.setRg r x).rowErrs = s.rowErrs := rfl
@[simp] theorem State.setRg_selfRefresh (s : State) (r : Nat) (x : Region) : (s.setRg r x).selfRefresh = s.selfRefresh := rfl
@[simp] theorem State.setRg_throttle (s : State) (r : Nat) (x : Region) : (s.setRg r x).throttle = s.throttle := rfl
@[simp] theorem State.setRg_move (s : State) (r : Nat) (x : Region) : (s.setRg r x).move = s.move := rfl
@[simp] theorem State.setRg_sent (s : State) (r : Nat) (x : Region) : (s.setRg r x).sent = s.sent := rfl

@[simp] theorem State.updRg_agenda (s : State) (r : Nat) (f : Region → Region) : (s.updRg r f).agenda = s.agenda := rfl
@[simp] theorem State.updRg_freeIx (s : State) (r : Nat) (f : Region → Region) : (s.updRg r f).freeIx = s.freeIx := rfl
@[simp] theorem State.updRg_agent (s : State) (r : Nat) (f : Region → Region) : (s.updRg r f).agent = s.agent := rfl
@[simp] theorem State.updRg_nextId (s : State) (r : Nat) (f : Region → Region) : (s.updRg r f).nextId = s.nextId := rfl
@[simp] theorem State.updRg_mem (s : State) (r : Nat) (f : Region → Region) : (s.updRg r f).mem = s.mem := rfl
@[simp] theorem State.updRg_hist (s : State) (r : Nat) (f : Region → Region) : (s.updRg r f).hist = s.hist := rfl
@[simp] theorem State.updRg_side (s : State) (r : Nat) (f : Region → Region) : (s.updRg r f).side = s.side := rfl
@[simp] theorem State.updRg_pins (s : State) (r : Nat) (f : Region → Region) : (s.updRg r f).pins = s.pins := rfl
@[simp] theorem State.updRg_watch (s : State) (r : Nat) (f : Region → Region) : (s.updRg r f).watch = s.watch := rfl
@[simp] theorem State.updRg_arrivals (s : State) (r : Nat) (f : Region → Region) : (s.updRg r f).arrivals = s.arrivals := rfl
@[simp] theorem State.updRg_cores (s : State) (r : Nat) (f : Region → Region) : (s.updRg r f).cores = s.cores := rfl
@[simp] theorem State.updRg_regions (s : State) (r : Nat) (f : Region → Region) : (s.updRg r f).regions = s.regions.upd r f := rfl
@[simp] theorem State.updRg_groups (s : State) (r : Nat) (f : Region → Region) : (s.updRg r f).groups = s.groups := rfl
@[simp] theorem State.updRg_ctxs (s : State) (r : Nat) (f : Region → Region) : (s.updRg r f).ctxs = s.ctxs := rfl
@[simp] theorem State.updRg_gens (s : State) (r : Nat) (f : Region → Region) : (s.updRg r f).gens = s.gens := rfl
@[simp] theorem State.updRg_queues (s : State) (r : Nat) (f : Region → Region) : (s.updRg r f).queues = s.queues := rfl
@[simp] theorem State.updRg_goneQ (s : State) (r : Nat) (f : Region → Region) : (s.updRg r f).goneQ = s.goneQ := rfl
@[simp] theorem State.updRg_contracts (s : State) (r : Nat) (f : Region → Region) : (s.updRg r f).contracts = s.contracts := rfl
@[simp] theorem State.updRg_pools (s : State) (r : Nat) (f : Region → Region) : (s.updRg r f).pools = s.pools := rfl
@[simp] theorem State.updRg_fibres (s : State) (r : Nat) (f : Region → Region) : (s.updRg r f).fibres = s.fibres := rfl
@[simp] theorem State.updRg_fops (s : State) (r : Nat) (f : Region → Region) : (s.updRg r f).fops = s.fops := rfl
@[simp] theorem State.updRg_faults (s : State) (r : Nat) (f : Region → Region) : (s.updRg r f).faults = s.faults := rfl
@[simp] theorem State.updRg_remotes (s : State) (r : Nat) (f : Region → Region) : (s.updRg r f).remotes = s.remotes := rfl
@[simp] theorem State.updRg_owed (s : State) (r : Nat) (f : Region → Region) : (s.updRg r f).owed = s.owed := rfl
@[simp] theorem State.updRg_ports (s : State) (r : Nat) (f : Region → Region) : (s.updRg r f).ports = s.ports := rfl
@[simp] theorem State.updRg_sec (s : State) (r : Nat) (f : Region → Region) : (s.updRg r f).sec = s.sec := rfl
@[simp] theorem State.updRg_tele (s : State) (r : Nat) (f : Region → Region) : (s.updRg r f).tele = s.tele := rfl
@[simp] theorem State.updRg_notices (s : State) (r : Nat) (f : Region → Region) : (s.updRg r f).notices = s.notices := rfl
@[simp] theorem State.updRg_clears (s : State) (r : Nat) (f : Region → Region) : (s.updRg r f).clears = s.clears := rfl
@[simp] theorem State.updRg_lastStart (s : State) (r : Nat) (f : Region → Region) : (s.updRg r f).lastStart = s.lastStart := rfl
@[simp] theorem State.updRg_rodNext (s : State) (r : Nat) (f : Region → Region) : (s.updRg r f).rodNext = s.rodNext := rfl
@[simp] theorem State.updRg_rudSeen (s : State) (r : Nat) (f : Region → Region) : (s.updRg r f).rudSeen = s.rudSeen := rfl
@[simp] theorem State.updRg_retraining (s : State) (r : Nat) (f : Region → Region) : (s.updRg r f).retraining = s.retraining := rfl
@[simp] theorem State.updRg_repairing (s : State) (r : Nat) (f : Region → Region) : (s.updRg r f).repairing = s.repairing := rfl
@[simp] theorem State.updRg_rowErrs (s : State) (r : Nat) (f : Region → Region) : (s.updRg r f).rowErrs = s.rowErrs := rfl
@[simp] theorem State.updRg_selfRefresh (s : State) (r : Nat) (f : Region → Region) : (s.updRg r f).selfRefresh = s.selfRefresh := rfl
@[simp] theorem State.updRg_throttle (s : State) (r : Nat) (f : Region → Region) : (s.updRg r f).throttle = s.throttle := rfl
@[simp] theorem State.updRg_move (s : State) (r : Nat) (f : Region → Region) : (s.updRg r f).move = s.move := rfl
@[simp] theorem State.updRg_sent (s : State) (r : Nat) (f : Region → Region) : (s.updRg r f).sent = s.sent := rfl

@[simp] theorem State.setSide_agenda (s : State) (k : Nat) (x : Side) : (s.setSide k x).agenda = s.agenda := rfl
@[simp] theorem State.setSide_freeIx (s : State) (k : Nat) (x : Side) : (s.setSide k x).freeIx = s.freeIx := rfl
@[simp] theorem State.setSide_agent (s : State) (k : Nat) (x : Side) : (s.setSide k x).agent = s.agent := rfl
@[simp] theorem State.setSide_nextId (s : State) (k : Nat) (x : Side) : (s.setSide k x).nextId = s.nextId := rfl
@[simp] theorem State.setSide_mem (s : State) (k : Nat) (x : Side) : (s.setSide k x).mem = s.mem := rfl
@[simp] theorem State.setSide_hist (s : State) (k : Nat) (x : Side) : (s.setSide k x).hist = s.hist := rfl
@[simp] theorem State.setSide_side (s : State) (k : Nat) (x : Side) : (s.setSide k x).side = s.side.store k x {} := rfl
@[simp] theorem State.setSide_pins (s : State) (k : Nat) (x : Side) : (s.setSide k x).pins = s.pins := rfl
@[simp] theorem State.setSide_watch (s : State) (k : Nat) (x : Side) : (s.setSide k x).watch = s.watch := rfl
@[simp] theorem State.setSide_arrivals (s : State) (k : Nat) (x : Side) : (s.setSide k x).arrivals = s.arrivals := rfl
@[simp] theorem State.setSide_cores (s : State) (k : Nat) (x : Side) : (s.setSide k x).cores = s.cores := rfl
@[simp] theorem State.setSide_regions (s : State) (k : Nat) (x : Side) : (s.setSide k x).regions = s.regions := rfl
@[simp] theorem State.setSide_groups (s : State) (k : Nat) (x : Side) : (s.setSide k x).groups = s.groups := rfl
@[simp] theorem State.setSide_ctxs (s : State) (k : Nat) (x : Side) : (s.setSide k x).ctxs = s.ctxs := rfl
@[simp] theorem State.setSide_gens (s : State) (k : Nat) (x : Side) : (s.setSide k x).gens = s.gens := rfl
@[simp] theorem State.setSide_queues (s : State) (k : Nat) (x : Side) : (s.setSide k x).queues = s.queues := rfl
@[simp] theorem State.setSide_goneQ (s : State) (k : Nat) (x : Side) : (s.setSide k x).goneQ = s.goneQ := rfl
@[simp] theorem State.setSide_contracts (s : State) (k : Nat) (x : Side) : (s.setSide k x).contracts = s.contracts := rfl
@[simp] theorem State.setSide_pools (s : State) (k : Nat) (x : Side) : (s.setSide k x).pools = s.pools := rfl
@[simp] theorem State.setSide_fibres (s : State) (k : Nat) (x : Side) : (s.setSide k x).fibres = s.fibres := rfl
@[simp] theorem State.setSide_fops (s : State) (k : Nat) (x : Side) : (s.setSide k x).fops = s.fops := rfl
@[simp] theorem State.setSide_faults (s : State) (k : Nat) (x : Side) : (s.setSide k x).faults = s.faults := rfl
@[simp] theorem State.setSide_remotes (s : State) (k : Nat) (x : Side) : (s.setSide k x).remotes = s.remotes := rfl
@[simp] theorem State.setSide_owed (s : State) (k : Nat) (x : Side) : (s.setSide k x).owed = s.owed := rfl
@[simp] theorem State.setSide_ports (s : State) (k : Nat) (x : Side) : (s.setSide k x).ports = s.ports := rfl
@[simp] theorem State.setSide_sec (s : State) (k : Nat) (x : Side) : (s.setSide k x).sec = s.sec := rfl
@[simp] theorem State.setSide_tele (s : State) (k : Nat) (x : Side) : (s.setSide k x).tele = s.tele := rfl
@[simp] theorem State.setSide_notices (s : State) (k : Nat) (x : Side) : (s.setSide k x).notices = s.notices := rfl
@[simp] theorem State.setSide_clears (s : State) (k : Nat) (x : Side) : (s.setSide k x).clears = s.clears := rfl
@[simp] theorem State.setSide_lastStart (s : State) (k : Nat) (x : Side) : (s.setSide k x).lastStart = s.lastStart := rfl
@[simp] theorem State.setSide_rodNext (s : State) (k : Nat) (x : Side) : (s.setSide k x).rodNext = s.rodNext := rfl
@[simp] theorem State.setSide_rudSeen (s : State) (k : Nat) (x : Side) : (s.setSide k x).rudSeen = s.rudSeen := rfl
@[simp] theorem State.setSide_retraining (s : State) (k : Nat) (x : Side) : (s.setSide k x).retraining = s.retraining := rfl
@[simp] theorem State.setSide_repairing (s : State) (k : Nat) (x : Side) : (s.setSide k x).repairing = s.repairing := rfl
@[simp] theorem State.setSide_rowErrs (s : State) (k : Nat) (x : Side) : (s.setSide k x).rowErrs = s.rowErrs := rfl
@[simp] theorem State.setSide_selfRefresh (s : State) (k : Nat) (x : Side) : (s.setSide k x).selfRefresh = s.selfRefresh := rfl
@[simp] theorem State.setSide_throttle (s : State) (k : Nat) (x : Side) : (s.setSide k x).throttle = s.throttle := rfl
@[simp] theorem State.setSide_move (s : State) (k : Nat) (x : Side) : (s.setSide k x).move = s.move := rfl
@[simp] theorem State.setSide_sent (s : State) (k : Nat) (x : Side) : (s.setSide k x).sent = s.sent := rfl

@[simp] theorem State.setQueue_agenda (s : State) (k : Nat) (x : Queue) : (s.setQueue k x).agenda = s.agenda := rfl
@[simp] theorem State.setQueue_freeIx (s : State) (k : Nat) (x : Queue) : (s.setQueue k x).freeIx = s.freeIx := rfl
@[simp] theorem State.setQueue_agent (s : State) (k : Nat) (x : Queue) : (s.setQueue k x).agent = s.agent := rfl
@[simp] theorem State.setQueue_nextId (s : State) (k : Nat) (x : Queue) : (s.setQueue k x).nextId = s.nextId := rfl
@[simp] theorem State.setQueue_mem (s : State) (k : Nat) (x : Queue) : (s.setQueue k x).mem = s.mem := rfl
@[simp] theorem State.setQueue_hist (s : State) (k : Nat) (x : Queue) : (s.setQueue k x).hist = s.hist := rfl
@[simp] theorem State.setQueue_side (s : State) (k : Nat) (x : Queue) : (s.setQueue k x).side = s.side := rfl
@[simp] theorem State.setQueue_pins (s : State) (k : Nat) (x : Queue) : (s.setQueue k x).pins = s.pins := rfl
@[simp] theorem State.setQueue_watch (s : State) (k : Nat) (x : Queue) : (s.setQueue k x).watch = s.watch := rfl
@[simp] theorem State.setQueue_arrivals (s : State) (k : Nat) (x : Queue) : (s.setQueue k x).arrivals = s.arrivals := rfl
@[simp] theorem State.setQueue_cores (s : State) (k : Nat) (x : Queue) : (s.setQueue k x).cores = s.cores := rfl
@[simp] theorem State.setQueue_regions (s : State) (k : Nat) (x : Queue) : (s.setQueue k x).regions = s.regions := rfl
@[simp] theorem State.setQueue_groups (s : State) (k : Nat) (x : Queue) : (s.setQueue k x).groups = s.groups := rfl
@[simp] theorem State.setQueue_ctxs (s : State) (k : Nat) (x : Queue) : (s.setQueue k x).ctxs = s.ctxs := rfl
@[simp] theorem State.setQueue_gens (s : State) (k : Nat) (x : Queue) : (s.setQueue k x).gens = s.gens := rfl
@[simp] theorem State.setQueue_queues (s : State) (k : Nat) (x : Queue) : (s.setQueue k x).queues = s.queues.put k x := rfl
@[simp] theorem State.setQueue_goneQ (s : State) (k : Nat) (x : Queue) : (s.setQueue k x).goneQ = s.goneQ := rfl
@[simp] theorem State.setQueue_contracts (s : State) (k : Nat) (x : Queue) : (s.setQueue k x).contracts = s.contracts := rfl
@[simp] theorem State.setQueue_pools (s : State) (k : Nat) (x : Queue) : (s.setQueue k x).pools = s.pools := rfl
@[simp] theorem State.setQueue_fibres (s : State) (k : Nat) (x : Queue) : (s.setQueue k x).fibres = s.fibres := rfl
@[simp] theorem State.setQueue_fops (s : State) (k : Nat) (x : Queue) : (s.setQueue k x).fops = s.fops := rfl
@[simp] theorem State.setQueue_faults (s : State) (k : Nat) (x : Queue) : (s.setQueue k x).faults = s.faults := rfl
@[simp] theorem State.setQueue_remotes (s : State) (k : Nat) (x : Queue) : (s.setQueue k x).remotes = s.remotes := rfl
@[simp] theorem State.setQueue_owed (s : State) (k : Nat) (x : Queue) : (s.setQueue k x).owed = s.owed := rfl
@[simp] theorem State.setQueue_ports (s : State) (k : Nat) (x : Queue) : (s.setQueue k x).ports = s.ports := rfl
@[simp] theorem State.setQueue_sec (s : State) (k : Nat) (x : Queue) : (s.setQueue k x).sec = s.sec := rfl
@[simp] theorem State.setQueue_tele (s : State) (k : Nat) (x : Queue) : (s.setQueue k x).tele = s.tele := rfl
@[simp] theorem State.setQueue_notices (s : State) (k : Nat) (x : Queue) : (s.setQueue k x).notices = s.notices := rfl
@[simp] theorem State.setQueue_clears (s : State) (k : Nat) (x : Queue) : (s.setQueue k x).clears = s.clears := rfl
@[simp] theorem State.setQueue_lastStart (s : State) (k : Nat) (x : Queue) : (s.setQueue k x).lastStart = s.lastStart := rfl
@[simp] theorem State.setQueue_rodNext (s : State) (k : Nat) (x : Queue) : (s.setQueue k x).rodNext = s.rodNext := rfl
@[simp] theorem State.setQueue_rudSeen (s : State) (k : Nat) (x : Queue) : (s.setQueue k x).rudSeen = s.rudSeen := rfl
@[simp] theorem State.setQueue_retraining (s : State) (k : Nat) (x : Queue) : (s.setQueue k x).retraining = s.retraining := rfl
@[simp] theorem State.setQueue_repairing (s : State) (k : Nat) (x : Queue) : (s.setQueue k x).repairing = s.repairing := rfl
@[simp] theorem State.setQueue_rowErrs (s : State) (k : Nat) (x : Queue) : (s.setQueue k x).rowErrs = s.rowErrs := rfl
@[simp] theorem State.setQueue_selfRefresh (s : State) (k : Nat) (x : Queue) : (s.setQueue k x).selfRefresh = s.selfRefresh := rfl
@[simp] theorem State.setQueue_throttle (s : State) (k : Nat) (x : Queue) : (s.setQueue k x).throttle = s.throttle := rfl
@[simp] theorem State.setQueue_move (s : State) (k : Nat) (x : Queue) : (s.setQueue k x).move = s.move := rfl
@[simp] theorem State.setQueue_sent (s : State) (k : Nat) (x : Queue) : (s.setQueue k x).sent = s.sent := rfl

@[simp] theorem State.setCtx_agenda (s : State) (k : Nat) (x : Ctx) : (s.setCtx k x).agenda = s.agenda := rfl
@[simp] theorem State.setCtx_freeIx (s : State) (k : Nat) (x : Ctx) : (s.setCtx k x).freeIx = s.freeIx := rfl
@[simp] theorem State.setCtx_agent (s : State) (k : Nat) (x : Ctx) : (s.setCtx k x).agent = s.agent := rfl
@[simp] theorem State.setCtx_nextId (s : State) (k : Nat) (x : Ctx) : (s.setCtx k x).nextId = s.nextId := rfl
@[simp] theorem State.setCtx_mem (s : State) (k : Nat) (x : Ctx) : (s.setCtx k x).mem = s.mem := rfl
@[simp] theorem State.setCtx_hist (s : State) (k : Nat) (x : Ctx) : (s.setCtx k x).hist = s.hist := rfl
@[simp] theorem State.setCtx_side (s : State) (k : Nat) (x : Ctx) : (s.setCtx k x).side = s.side := rfl
@[simp] theorem State.setCtx_pins (s : State) (k : Nat) (x : Ctx) : (s.setCtx k x).pins = s.pins := rfl
@[simp] theorem State.setCtx_watch (s : State) (k : Nat) (x : Ctx) : (s.setCtx k x).watch = s.watch := rfl
@[simp] theorem State.setCtx_arrivals (s : State) (k : Nat) (x : Ctx) : (s.setCtx k x).arrivals = s.arrivals := rfl
@[simp] theorem State.setCtx_cores (s : State) (k : Nat) (x : Ctx) : (s.setCtx k x).cores = s.cores := rfl
@[simp] theorem State.setCtx_regions (s : State) (k : Nat) (x : Ctx) : (s.setCtx k x).regions = s.regions := rfl
@[simp] theorem State.setCtx_groups (s : State) (k : Nat) (x : Ctx) : (s.setCtx k x).groups = s.groups := rfl
@[simp] theorem State.setCtx_ctxs (s : State) (k : Nat) (x : Ctx) : (s.setCtx k x).ctxs = s.ctxs.put k x := rfl
@[simp] theorem State.setCtx_gens (s : State) (k : Nat) (x : Ctx) : (s.setCtx k x).gens = s.gens := rfl
@[simp] theorem State.setCtx_queues (s : State) (k : Nat) (x : Ctx) : (s.setCtx k x).queues = s.queues := rfl
@[simp] theorem State.setCtx_goneQ (s : State) (k : Nat) (x : Ctx) : (s.setCtx k x).goneQ = s.goneQ := rfl
@[simp] theorem State.setCtx_contracts (s : State) (k : Nat) (x : Ctx) : (s.setCtx k x).contracts = s.contracts := rfl
@[simp] theorem State.setCtx_pools (s : State) (k : Nat) (x : Ctx) : (s.setCtx k x).pools = s.pools := rfl
@[simp] theorem State.setCtx_fibres (s : State) (k : Nat) (x : Ctx) : (s.setCtx k x).fibres = s.fibres := rfl
@[simp] theorem State.setCtx_fops (s : State) (k : Nat) (x : Ctx) : (s.setCtx k x).fops = s.fops := rfl
@[simp] theorem State.setCtx_faults (s : State) (k : Nat) (x : Ctx) : (s.setCtx k x).faults = s.faults := rfl
@[simp] theorem State.setCtx_remotes (s : State) (k : Nat) (x : Ctx) : (s.setCtx k x).remotes = s.remotes := rfl
@[simp] theorem State.setCtx_owed (s : State) (k : Nat) (x : Ctx) : (s.setCtx k x).owed = s.owed := rfl
@[simp] theorem State.setCtx_ports (s : State) (k : Nat) (x : Ctx) : (s.setCtx k x).ports = s.ports := rfl
@[simp] theorem State.setCtx_sec (s : State) (k : Nat) (x : Ctx) : (s.setCtx k x).sec = s.sec := rfl
@[simp] theorem State.setCtx_tele (s : State) (k : Nat) (x : Ctx) : (s.setCtx k x).tele = s.tele := rfl
@[simp] theorem State.setCtx_notices (s : State) (k : Nat) (x : Ctx) : (s.setCtx k x).notices = s.notices := rfl
@[simp] theorem State.setCtx_clears (s : State) (k : Nat) (x : Ctx) : (s.setCtx k x).clears = s.clears := rfl
@[simp] theorem State.setCtx_lastStart (s : State) (k : Nat) (x : Ctx) : (s.setCtx k x).lastStart = s.lastStart := rfl
@[simp] theorem State.setCtx_rodNext (s : State) (k : Nat) (x : Ctx) : (s.setCtx k x).rodNext = s.rodNext := rfl
@[simp] theorem State.setCtx_rudSeen (s : State) (k : Nat) (x : Ctx) : (s.setCtx k x).rudSeen = s.rudSeen := rfl
@[simp] theorem State.setCtx_retraining (s : State) (k : Nat) (x : Ctx) : (s.setCtx k x).retraining = s.retraining := rfl
@[simp] theorem State.setCtx_repairing (s : State) (k : Nat) (x : Ctx) : (s.setCtx k x).repairing = s.repairing := rfl
@[simp] theorem State.setCtx_rowErrs (s : State) (k : Nat) (x : Ctx) : (s.setCtx k x).rowErrs = s.rowErrs := rfl
@[simp] theorem State.setCtx_selfRefresh (s : State) (k : Nat) (x : Ctx) : (s.setCtx k x).selfRefresh = s.selfRefresh := rfl
@[simp] theorem State.setCtx_throttle (s : State) (k : Nat) (x : Ctx) : (s.setCtx k x).throttle = s.throttle := rfl
@[simp] theorem State.setCtx_move (s : State) (k : Nat) (x : Ctx) : (s.setCtx k x).move = s.move := rfl
@[simp] theorem State.setCtx_sent (s : State) (k : Nat) (x : Ctx) : (s.setCtx k x).sent = s.sent := rfl

@[simp] theorem State.setCore_agenda (s : State) (k : Nat) (x : Core) : (s.setCore k x).agenda = s.agenda := rfl
@[simp] theorem State.setCore_freeIx (s : State) (k : Nat) (x : Core) : (s.setCore k x).freeIx = s.freeIx := rfl
@[simp] theorem State.setCore_agent (s : State) (k : Nat) (x : Core) : (s.setCore k x).agent = s.agent := rfl
@[simp] theorem State.setCore_nextId (s : State) (k : Nat) (x : Core) : (s.setCore k x).nextId = s.nextId := rfl
@[simp] theorem State.setCore_mem (s : State) (k : Nat) (x : Core) : (s.setCore k x).mem = s.mem := rfl
@[simp] theorem State.setCore_hist (s : State) (k : Nat) (x : Core) : (s.setCore k x).hist = s.hist := rfl
@[simp] theorem State.setCore_side (s : State) (k : Nat) (x : Core) : (s.setCore k x).side = s.side := rfl
@[simp] theorem State.setCore_pins (s : State) (k : Nat) (x : Core) : (s.setCore k x).pins = s.pins := rfl
@[simp] theorem State.setCore_watch (s : State) (k : Nat) (x : Core) : (s.setCore k x).watch = s.watch := rfl
@[simp] theorem State.setCore_arrivals (s : State) (k : Nat) (x : Core) : (s.setCore k x).arrivals = s.arrivals := rfl
@[simp] theorem State.setCore_cores (s : State) (k : Nat) (x : Core) : (s.setCore k x).cores = s.cores.put k x := rfl
@[simp] theorem State.setCore_regions (s : State) (k : Nat) (x : Core) : (s.setCore k x).regions = s.regions := rfl
@[simp] theorem State.setCore_groups (s : State) (k : Nat) (x : Core) : (s.setCore k x).groups = s.groups := rfl
@[simp] theorem State.setCore_ctxs (s : State) (k : Nat) (x : Core) : (s.setCore k x).ctxs = s.ctxs := rfl
@[simp] theorem State.setCore_gens (s : State) (k : Nat) (x : Core) : (s.setCore k x).gens = s.gens := rfl
@[simp] theorem State.setCore_queues (s : State) (k : Nat) (x : Core) : (s.setCore k x).queues = s.queues := rfl
@[simp] theorem State.setCore_goneQ (s : State) (k : Nat) (x : Core) : (s.setCore k x).goneQ = s.goneQ := rfl
@[simp] theorem State.setCore_contracts (s : State) (k : Nat) (x : Core) : (s.setCore k x).contracts = s.contracts := rfl
@[simp] theorem State.setCore_pools (s : State) (k : Nat) (x : Core) : (s.setCore k x).pools = s.pools := rfl
@[simp] theorem State.setCore_fibres (s : State) (k : Nat) (x : Core) : (s.setCore k x).fibres = s.fibres := rfl
@[simp] theorem State.setCore_fops (s : State) (k : Nat) (x : Core) : (s.setCore k x).fops = s.fops := rfl
@[simp] theorem State.setCore_faults (s : State) (k : Nat) (x : Core) : (s.setCore k x).faults = s.faults := rfl
@[simp] theorem State.setCore_remotes (s : State) (k : Nat) (x : Core) : (s.setCore k x).remotes = s.remotes := rfl
@[simp] theorem State.setCore_owed (s : State) (k : Nat) (x : Core) : (s.setCore k x).owed = s.owed := rfl
@[simp] theorem State.setCore_ports (s : State) (k : Nat) (x : Core) : (s.setCore k x).ports = s.ports := rfl
@[simp] theorem State.setCore_sec (s : State) (k : Nat) (x : Core) : (s.setCore k x).sec = s.sec := rfl
@[simp] theorem State.setCore_tele (s : State) (k : Nat) (x : Core) : (s.setCore k x).tele = s.tele := rfl
@[simp] theorem State.setCore_notices (s : State) (k : Nat) (x : Core) : (s.setCore k x).notices = s.notices := rfl
@[simp] theorem State.setCore_clears (s : State) (k : Nat) (x : Core) : (s.setCore k x).clears = s.clears := rfl
@[simp] theorem State.setCore_lastStart (s : State) (k : Nat) (x : Core) : (s.setCore k x).lastStart = s.lastStart := rfl
@[simp] theorem State.setCore_rodNext (s : State) (k : Nat) (x : Core) : (s.setCore k x).rodNext = s.rodNext := rfl
@[simp] theorem State.setCore_rudSeen (s : State) (k : Nat) (x : Core) : (s.setCore k x).rudSeen = s.rudSeen := rfl
@[simp] theorem State.setCore_retraining (s : State) (k : Nat) (x : Core) : (s.setCore k x).retraining = s.retraining := rfl
@[simp] theorem State.setCore_repairing (s : State) (k : Nat) (x : Core) : (s.setCore k x).repairing = s.repairing := rfl
@[simp] theorem State.setCore_rowErrs (s : State) (k : Nat) (x : Core) : (s.setCore k x).rowErrs = s.rowErrs := rfl
@[simp] theorem State.setCore_selfRefresh (s : State) (k : Nat) (x : Core) : (s.setCore k x).selfRefresh = s.selfRefresh := rfl
@[simp] theorem State.setCore_throttle (s : State) (k : Nat) (x : Core) : (s.setCore k x).throttle = s.throttle := rfl
@[simp] theorem State.setCore_move (s : State) (k : Nat) (x : Core) : (s.setCore k x).move = s.move := rfl
@[simp] theorem State.setCore_sent (s : State) (k : Nat) (x : Core) : (s.setCore k x).sent = s.sent := rfl

@[simp] theorem State.send_agenda (s : State) (x : Sent) : (s.send x).agenda = s.agenda := rfl
@[simp] theorem State.send_freeIx (s : State) (x : Sent) : (s.send x).freeIx = s.freeIx := rfl
@[simp] theorem State.send_agent (s : State) (x : Sent) : (s.send x).agent = s.agent := rfl
@[simp] theorem State.send_nextId (s : State) (x : Sent) : (s.send x).nextId = s.nextId := rfl
@[simp] theorem State.send_mem (s : State) (x : Sent) : (s.send x).mem = s.mem := rfl
@[simp] theorem State.send_hist (s : State) (x : Sent) : (s.send x).hist = s.hist := rfl
@[simp] theorem State.send_side (s : State) (x : Sent) : (s.send x).side = s.side := rfl
@[simp] theorem State.send_pins (s : State) (x : Sent) : (s.send x).pins = s.pins := rfl
@[simp] theorem State.send_watch (s : State) (x : Sent) : (s.send x).watch = s.watch := rfl
@[simp] theorem State.send_arrivals (s : State) (x : Sent) : (s.send x).arrivals = s.arrivals := rfl
@[simp] theorem State.send_cores (s : State) (x : Sent) : (s.send x).cores = s.cores := rfl
@[simp] theorem State.send_regions (s : State) (x : Sent) : (s.send x).regions = s.regions := rfl
@[simp] theorem State.send_groups (s : State) (x : Sent) : (s.send x).groups = s.groups := rfl
@[simp] theorem State.send_ctxs (s : State) (x : Sent) : (s.send x).ctxs = s.ctxs := rfl
@[simp] theorem State.send_gens (s : State) (x : Sent) : (s.send x).gens = s.gens := rfl
@[simp] theorem State.send_queues (s : State) (x : Sent) : (s.send x).queues = s.queues := rfl
@[simp] theorem State.send_goneQ (s : State) (x : Sent) : (s.send x).goneQ = s.goneQ := rfl
@[simp] theorem State.send_contracts (s : State) (x : Sent) : (s.send x).contracts = s.contracts := rfl
@[simp] theorem State.send_pools (s : State) (x : Sent) : (s.send x).pools = s.pools := rfl
@[simp] theorem State.send_fibres (s : State) (x : Sent) : (s.send x).fibres = s.fibres := rfl
@[simp] theorem State.send_fops (s : State) (x : Sent) : (s.send x).fops = s.fops := rfl
@[simp] theorem State.send_faults (s : State) (x : Sent) : (s.send x).faults = s.faults := rfl
@[simp] theorem State.send_remotes (s : State) (x : Sent) : (s.send x).remotes = s.remotes := rfl
@[simp] theorem State.send_owed (s : State) (x : Sent) : (s.send x).owed = s.owed := rfl
@[simp] theorem State.send_ports (s : State) (x : Sent) : (s.send x).ports = s.ports := rfl
@[simp] theorem State.send_sec (s : State) (x : Sent) : (s.send x).sec = s.sec := rfl
@[simp] theorem State.send_tele (s : State) (x : Sent) : (s.send x).tele = s.tele := rfl
@[simp] theorem State.send_notices (s : State) (x : Sent) : (s.send x).notices = s.notices := rfl
@[simp] theorem State.send_clears (s : State) (x : Sent) : (s.send x).clears = s.clears := rfl
@[simp] theorem State.send_lastStart (s : State) (x : Sent) : (s.send x).lastStart = s.lastStart := rfl
@[simp] theorem State.send_rodNext (s : State) (x : Sent) : (s.send x).rodNext = s.rodNext := rfl
@[simp] theorem State.send_rudSeen (s : State) (x : Sent) : (s.send x).rudSeen = s.rudSeen := rfl
@[simp] theorem State.send_retraining (s : State) (x : Sent) : (s.send x).retraining = s.retraining := rfl
@[simp] theorem State.send_repairing (s : State) (x : Sent) : (s.send x).repairing = s.repairing := rfl
@[simp] theorem State.send_rowErrs (s : State) (x : Sent) : (s.send x).rowErrs = s.rowErrs := rfl
@[simp] theorem State.send_selfRefresh (s : State) (x : Sent) : (s.send x).selfRefresh = s.selfRefresh := rfl
@[simp] theorem State.send_throttle (s : State) (x : Sent) : (s.send x).throttle = s.throttle := rfl
@[simp] theorem State.send_move (s : State) (x : Sent) : (s.send x).move = s.move := rfl
@[simp] theorem State.send_sent (s : State) (x : Sent) : (s.send x).sent = s.sent ++ [x] := rfl

/-! ### Updates that find their region first -/

@[simp] theorem State.setSeq_agenda (s : State) (r pg : Nat) (q : Seq) : (s.setSeq r pg q).agenda = s.agenda := by
  unfold State.setSeq; split <;> rfl
@[simp] theorem State.setSeq_freeIx (s : State) (r pg : Nat) (q : Seq) : (s.setSeq r pg q).freeIx = s.freeIx := by
  unfold State.setSeq; split <;> rfl
@[simp] theorem State.setSeq_agent (s : State) (r pg : Nat) (q : Seq) : (s.setSeq r pg q).agent = s.agent := by
  unfold State.setSeq; split <;> rfl
@[simp] theorem State.setSeq_nextId (s : State) (r pg : Nat) (q : Seq) : (s.setSeq r pg q).nextId = s.nextId := by
  unfold State.setSeq; split <;> rfl
@[simp] theorem State.setSeq_mem (s : State) (r pg : Nat) (q : Seq) : (s.setSeq r pg q).mem = s.mem := by
  unfold State.setSeq; split <;> rfl
@[simp] theorem State.setSeq_hist (s : State) (r pg : Nat) (q : Seq) : (s.setSeq r pg q).hist = s.hist := by
  unfold State.setSeq; split <;> rfl
@[simp] theorem State.setSeq_side (s : State) (r pg : Nat) (q : Seq) : (s.setSeq r pg q).side = s.side := by
  unfold State.setSeq; split <;> rfl
@[simp] theorem State.setSeq_pins (s : State) (r pg : Nat) (q : Seq) : (s.setSeq r pg q).pins = s.pins := by
  unfold State.setSeq; split <;> rfl
@[simp] theorem State.setSeq_watch (s : State) (r pg : Nat) (q : Seq) : (s.setSeq r pg q).watch = s.watch := by
  unfold State.setSeq; split <;> rfl
@[simp] theorem State.setSeq_arrivals (s : State) (r pg : Nat) (q : Seq) : (s.setSeq r pg q).arrivals = s.arrivals := by
  unfold State.setSeq; split <;> rfl
@[simp] theorem State.setSeq_cores (s : State) (r pg : Nat) (q : Seq) : (s.setSeq r pg q).cores = s.cores := by
  unfold State.setSeq; split <;> rfl
@[simp] theorem State.setSeq_groups (s : State) (r pg : Nat) (q : Seq) : (s.setSeq r pg q).groups = s.groups := by
  unfold State.setSeq; split <;> rfl
@[simp] theorem State.setSeq_ctxs (s : State) (r pg : Nat) (q : Seq) : (s.setSeq r pg q).ctxs = s.ctxs := by
  unfold State.setSeq; split <;> rfl
@[simp] theorem State.setSeq_gens (s : State) (r pg : Nat) (q : Seq) : (s.setSeq r pg q).gens = s.gens := by
  unfold State.setSeq; split <;> rfl
@[simp] theorem State.setSeq_queues (s : State) (r pg : Nat) (q : Seq) : (s.setSeq r pg q).queues = s.queues := by
  unfold State.setSeq; split <;> rfl
@[simp] theorem State.setSeq_goneQ (s : State) (r pg : Nat) (q : Seq) : (s.setSeq r pg q).goneQ = s.goneQ := by
  unfold State.setSeq; split <;> rfl
@[simp] theorem State.setSeq_contracts (s : State) (r pg : Nat) (q : Seq) : (s.setSeq r pg q).contracts = s.contracts := by
  unfold State.setSeq; split <;> rfl
@[simp] theorem State.setSeq_pools (s : State) (r pg : Nat) (q : Seq) : (s.setSeq r pg q).pools = s.pools := by
  unfold State.setSeq; split <;> rfl
@[simp] theorem State.setSeq_fibres (s : State) (r pg : Nat) (q : Seq) : (s.setSeq r pg q).fibres = s.fibres := by
  unfold State.setSeq; split <;> rfl
@[simp] theorem State.setSeq_fops (s : State) (r pg : Nat) (q : Seq) : (s.setSeq r pg q).fops = s.fops := by
  unfold State.setSeq; split <;> rfl
@[simp] theorem State.setSeq_faults (s : State) (r pg : Nat) (q : Seq) : (s.setSeq r pg q).faults = s.faults := by
  unfold State.setSeq; split <;> rfl
@[simp] theorem State.setSeq_remotes (s : State) (r pg : Nat) (q : Seq) : (s.setSeq r pg q).remotes = s.remotes := by
  unfold State.setSeq; split <;> rfl
@[simp] theorem State.setSeq_owed (s : State) (r pg : Nat) (q : Seq) : (s.setSeq r pg q).owed = s.owed := by
  unfold State.setSeq; split <;> rfl
@[simp] theorem State.setSeq_ports (s : State) (r pg : Nat) (q : Seq) : (s.setSeq r pg q).ports = s.ports := by
  unfold State.setSeq; split <;> rfl
@[simp] theorem State.setSeq_sec (s : State) (r pg : Nat) (q : Seq) : (s.setSeq r pg q).sec = s.sec := by
  unfold State.setSeq; split <;> rfl
@[simp] theorem State.setSeq_tele (s : State) (r pg : Nat) (q : Seq) : (s.setSeq r pg q).tele = s.tele := by
  unfold State.setSeq; split <;> rfl
@[simp] theorem State.setSeq_notices (s : State) (r pg : Nat) (q : Seq) : (s.setSeq r pg q).notices = s.notices := by
  unfold State.setSeq; split <;> rfl
@[simp] theorem State.setSeq_clears (s : State) (r pg : Nat) (q : Seq) : (s.setSeq r pg q).clears = s.clears := by
  unfold State.setSeq; split <;> rfl
@[simp] theorem State.setSeq_lastStart (s : State) (r pg : Nat) (q : Seq) : (s.setSeq r pg q).lastStart = s.lastStart := by
  unfold State.setSeq; split <;> rfl
@[simp] theorem State.setSeq_rodNext (s : State) (r pg : Nat) (q : Seq) : (s.setSeq r pg q).rodNext = s.rodNext := by
  unfold State.setSeq; split <;> rfl
@[simp] theorem State.setSeq_rudSeen (s : State) (r pg : Nat) (q : Seq) : (s.setSeq r pg q).rudSeen = s.rudSeen := by
  unfold State.setSeq; split <;> rfl
@[simp] theorem State.setSeq_retraining (s : State) (r pg : Nat) (q : Seq) : (s.setSeq r pg q).retraining = s.retraining := by
  unfold State.setSeq; split <;> rfl
@[simp] theorem State.setSeq_repairing (s : State) (r pg : Nat) (q : Seq) : (s.setSeq r pg q).repairing = s.repairing := by
  unfold State.setSeq; split <;> rfl
@[simp] theorem State.setSeq_rowErrs (s : State) (r pg : Nat) (q : Seq) : (s.setSeq r pg q).rowErrs = s.rowErrs := by
  unfold State.setSeq; split <;> rfl
@[simp] theorem State.setSeq_selfRefresh (s : State) (r pg : Nat) (q : Seq) : (s.setSeq r pg q).selfRefresh = s.selfRefresh := by
  unfold State.setSeq; split <;> rfl
@[simp] theorem State.setSeq_throttle (s : State) (r pg : Nat) (q : Seq) : (s.setSeq r pg q).throttle = s.throttle := by
  unfold State.setSeq; split <;> rfl
@[simp] theorem State.setSeq_move (s : State) (r pg : Nat) (q : Seq) : (s.setSeq r pg q).move = s.move := by
  unfold State.setSeq; split <;> rfl
@[simp] theorem State.setSeq_sent (s : State) (r pg : Nat) (q : Seq) : (s.setSeq r pg q).sent = s.sent := by
  unfold State.setSeq; split <;> rfl

/-! ### Registers -/

@[simp] theorem Seq.setG_p (q : Seq) (n : Reg) (v : W64) : (q.setG n v).p = q.p := by
  unfold Seq.setG; split <;> rfl
@[simp] theorem Seq.setG_pc (q : Seq) (n : Reg) (v : W64) : (q.setG n v).pc = q.pc := by
  unfold Seq.setG; split <;> rfl
@[simp] theorem Seq.setG_seg (q : Seq) (n : Reg) (v : W64) : (q.setG n v).seg = q.seg := by
  unfold Seq.setG; split <;> rfl
@[simp] theorem Seq.setG_entered (q : Seq) (n : Reg) (v : W64) : (q.setG n v).entered = q.entered := by
  unfold Seq.setG; split <;> rfl
@[simp] theorem Seq.setG_lastTurn (q : Seq) (n : Reg) (v : W64) : (q.setG n v).lastTurn = q.lastTurn := by
  unfold Seq.setG; split <;> rfl
@[simp] theorem Seq.setG_prevTurn (q : Seq) (n : Reg) (v : W64) : (q.setG n v).prevTurn = q.prevTurn := by
  unfold Seq.setG; split <;> rfl
@[simp] theorem Seq.setG_stat (q : Seq) (n : Reg) (v : W64) : (q.setG n v).stat = q.stat := by
  unfold Seq.setG; split <;> rfl
@[simp] theorem Seq.setG_epc (q : Seq) (n : Reg) (v : W64) : (q.setG n v).epc = q.epc := by
  unfold Seq.setG; split <;> rfl
@[simp] theorem Seq.setG_ecause (q : Seq) (n : Reg) (v : W64) : (q.setG n v).ecause = q.ecause := by
  unfold Seq.setG; split <;> rfl
@[simp] theorem Seq.setG_eaddr (q : Seq) (n : Reg) (v : W64) : (q.setG n v).eaddr = q.eaddr := by
  unfold Seq.setG; split <;> rfl
@[simp] theorem Seq.setG_einfo (q : Seq) (n : Reg) (v : W64) : (q.setG n v).einfo = q.einfo := by
  unfold Seq.setG; split <;> rfl
@[simp] theorem Seq.setG_tvec (q : Seq) (n : Reg) (v : W64) : (q.setG n v).tvec = q.tvec := by
  unfold Seq.setG; split <;> rfl
@[simp] theorem Seq.setG_budget (q : Seq) (n : Reg) (v : W64) : (q.setG n v).budget = q.budget := by
  unfold Seq.setG; split <;> rfl
@[simp] theorem Seq.setG_best (q : Seq) (n : Reg) (v : W64) : (q.setG n v).best = q.best := by
  unfold Seq.setG; split <;> rfl
@[simp] theorem Seq.setG_bestres (q : Seq) (n : Reg) (v : W64) : (q.setG n v).bestres = q.bestres := by
  unfold Seq.setG; split <;> rfl
@[simp] theorem Seq.setG_monmask (q : Seq) (n : Reg) (v : W64) : (q.setG n v).monmask = q.monmask := by
  unfold Seq.setG; split <;> rfl
@[simp] theorem Seq.setG_filter (q : Seq) (n : Reg) (v : W64) : (q.setG n v).filter = q.filter := by
  unfold Seq.setG; split <;> rfl
@[simp] theorem Seq.setG_clrs (q : Seq) (n : Reg) (v : W64) : (q.setG n v).clrs = q.clrs := by
  unfold Seq.setG; split <;> rfl
@[simp] theorem Seq.setG_sleep (q : Seq) (n : Reg) (v : W64) : (q.setG n v).sleep = q.sleep := by
  unfold Seq.setG; split <;> rfl
@[simp] theorem Seq.setG_halted (q : Seq) (n : Reg) (v : W64) : (q.setG n v).halted = q.halted := by
  unfold Seq.setG; split <;> rfl
@[simp] theorem Seq.setG_stuck (q : Seq) (n : Reg) (v : W64) : (q.setG n v).stuck = q.stuck := by
  unfold Seq.setG; split <;> rfl
@[simp] theorem Seq.setG_mgmt (q : Seq) (n : Reg) (v : W64) : (q.setG n v).mgmt = q.mgmt := by
  unfold Seq.setG; split <;> rfl
@[simp] theorem Seq.setG_xfer (q : Seq) (n : Reg) (v : W64) : (q.setG n v).xfer = q.xfer := by
  unfold Seq.setG; split <;> rfl
@[simp] theorem Seq.setG_wait (q : Seq) (n : Reg) (v : W64) : (q.setG n v).wait = q.wait := by
  unfold Seq.setG; split <;> rfl
@[simp] theorem Seq.setG_stores (q : Seq) (n : Reg) (v : W64) : (q.setG n v).stores = q.stores := by
  unfold Seq.setG; split <;> rfl
@[simp] theorem Seq.setG_lastTag (q : Seq) (n : Reg) (v : W64) : (q.setG n v).lastTag = q.lastTag := by
  unfold Seq.setG; split <;> rfl
@[simp] theorem Seq.setG_armed (q : Seq) (n : Reg) (v : W64) : (q.setG n v).armed = q.armed := by
  unfold Seq.setG; split <;> rfl
@[simp] theorem Seq.setG_remotes (q : Seq) (n : Reg) (v : W64) : (q.setG n v).remotes = q.remotes := by
  unfold Seq.setG; split <;> rfl
@[simp] theorem Seq.setP_g (q : Seq) (n : PReg) (b : Bool) : (q.setP n b).g = q.g := by
  unfold Seq.setP; split <;> rfl
@[simp] theorem Seq.setP_pc (q : Seq) (n : PReg) (b : Bool) : (q.setP n b).pc = q.pc := by
  unfold Seq.setP; split <;> rfl
@[simp] theorem Seq.setP_seg (q : Seq) (n : PReg) (b : Bool) : (q.setP n b).seg = q.seg := by
  unfold Seq.setP; split <;> rfl
@[simp] theorem Seq.setP_entered (q : Seq) (n : PReg) (b : Bool) : (q.setP n b).entered = q.entered := by
  unfold Seq.setP; split <;> rfl
@[simp] theorem Seq.setP_lastTurn (q : Seq) (n : PReg) (b : Bool) : (q.setP n b).lastTurn = q.lastTurn := by
  unfold Seq.setP; split <;> rfl
@[simp] theorem Seq.setP_prevTurn (q : Seq) (n : PReg) (b : Bool) : (q.setP n b).prevTurn = q.prevTurn := by
  unfold Seq.setP; split <;> rfl
@[simp] theorem Seq.setP_stat (q : Seq) (n : PReg) (b : Bool) : (q.setP n b).stat = q.stat := by
  unfold Seq.setP; split <;> rfl
@[simp] theorem Seq.setP_epc (q : Seq) (n : PReg) (b : Bool) : (q.setP n b).epc = q.epc := by
  unfold Seq.setP; split <;> rfl
@[simp] theorem Seq.setP_ecause (q : Seq) (n : PReg) (b : Bool) : (q.setP n b).ecause = q.ecause := by
  unfold Seq.setP; split <;> rfl
@[simp] theorem Seq.setP_eaddr (q : Seq) (n : PReg) (b : Bool) : (q.setP n b).eaddr = q.eaddr := by
  unfold Seq.setP; split <;> rfl
@[simp] theorem Seq.setP_einfo (q : Seq) (n : PReg) (b : Bool) : (q.setP n b).einfo = q.einfo := by
  unfold Seq.setP; split <;> rfl
@[simp] theorem Seq.setP_tvec (q : Seq) (n : PReg) (b : Bool) : (q.setP n b).tvec = q.tvec := by
  unfold Seq.setP; split <;> rfl
@[simp] theorem Seq.setP_budget (q : Seq) (n : PReg) (b : Bool) : (q.setP n b).budget = q.budget := by
  unfold Seq.setP; split <;> rfl
@[simp] theorem Seq.setP_best (q : Seq) (n : PReg) (b : Bool) : (q.setP n b).best = q.best := by
  unfold Seq.setP; split <;> rfl
@[simp] theorem Seq.setP_bestres (q : Seq) (n : PReg) (b : Bool) : (q.setP n b).bestres = q.bestres := by
  unfold Seq.setP; split <;> rfl
@[simp] theorem Seq.setP_monmask (q : Seq) (n : PReg) (b : Bool) : (q.setP n b).monmask = q.monmask := by
  unfold Seq.setP; split <;> rfl
@[simp] theorem Seq.setP_dups (q : Seq) (n : PReg) (b : Bool) : (q.setP n b).dups = q.dups := by
  unfold Seq.setP; split <;> rfl
@[simp] theorem Seq.setP_parity (q : Seq) (n : PReg) (b : Bool) : (q.setP n b).parity = q.parity := by
  unfold Seq.setP; split <;> rfl
@[simp] theorem Seq.setP_dupParity (q : Seq) (n : PReg) (b : Bool) : (q.setP n b).dupParity = q.dupParity := by
  unfold Seq.setP; split <;> rfl
@[simp] theorem Seq.setP_filter (q : Seq) (n : PReg) (b : Bool) : (q.setP n b).filter = q.filter := by
  unfold Seq.setP; split <;> rfl
@[simp] theorem Seq.setP_clrs (q : Seq) (n : PReg) (b : Bool) : (q.setP n b).clrs = q.clrs := by
  unfold Seq.setP; split <;> rfl
@[simp] theorem Seq.setP_sleep (q : Seq) (n : PReg) (b : Bool) : (q.setP n b).sleep = q.sleep := by
  unfold Seq.setP; split <;> rfl
@[simp] theorem Seq.setP_halted (q : Seq) (n : PReg) (b : Bool) : (q.setP n b).halted = q.halted := by
  unfold Seq.setP; split <;> rfl
@[simp] theorem Seq.setP_stuck (q : Seq) (n : PReg) (b : Bool) : (q.setP n b).stuck = q.stuck := by
  unfold Seq.setP; split <;> rfl
@[simp] theorem Seq.setP_mgmt (q : Seq) (n : PReg) (b : Bool) : (q.setP n b).mgmt = q.mgmt := by
  unfold Seq.setP; split <;> rfl
@[simp] theorem Seq.setP_xfer (q : Seq) (n : PReg) (b : Bool) : (q.setP n b).xfer = q.xfer := by
  unfold Seq.setP; split <;> rfl
@[simp] theorem Seq.setP_wait (q : Seq) (n : PReg) (b : Bool) : (q.setP n b).wait = q.wait := by
  unfold Seq.setP; split <;> rfl
@[simp] theorem Seq.setP_stores (q : Seq) (n : PReg) (b : Bool) : (q.setP n b).stores = q.stores := by
  unfold Seq.setP; split <;> rfl
@[simp] theorem Seq.setP_lastTag (q : Seq) (n : PReg) (b : Bool) : (q.setP n b).lastTag = q.lastTag := by
  unfold Seq.setP; split <;> rfl
@[simp] theorem Seq.setP_armed (q : Seq) (n : PReg) (b : Bool) : (q.setP n b).armed = q.armed := by
  unfold Seq.setP; split <;> rfl
@[simp] theorem Seq.setP_remotes (q : Seq) (n : PReg) (b : Bool) : (q.setP n b).remotes = q.remotes := by
  unfold Seq.setP; split <;> rfl
@[simp] theorem Seq.goto_g (q : Seq) (a : W64) : (q.goto a).g = q.g := rfl
@[simp] theorem Seq.goto_p (q : Seq) (a : W64) : (q.goto a).p = q.p := rfl
@[simp] theorem Seq.goto_seg (q : Seq) (a : W64) : (q.goto a).seg = q.seg := rfl
@[simp] theorem Seq.goto_entered (q : Seq) (a : W64) : (q.goto a).entered = q.entered := rfl
@[simp] theorem Seq.goto_lastTurn (q : Seq) (a : W64) : (q.goto a).lastTurn = q.lastTurn := rfl
@[simp] theorem Seq.goto_prevTurn (q : Seq) (a : W64) : (q.goto a).prevTurn = q.prevTurn := rfl
@[simp] theorem Seq.goto_stat (q : Seq) (a : W64) : (q.goto a).stat = q.stat := rfl
@[simp] theorem Seq.goto_epc (q : Seq) (a : W64) : (q.goto a).epc = q.epc := rfl
@[simp] theorem Seq.goto_ecause (q : Seq) (a : W64) : (q.goto a).ecause = q.ecause := rfl
@[simp] theorem Seq.goto_eaddr (q : Seq) (a : W64) : (q.goto a).eaddr = q.eaddr := rfl
@[simp] theorem Seq.goto_einfo (q : Seq) (a : W64) : (q.goto a).einfo = q.einfo := rfl
@[simp] theorem Seq.goto_tvec (q : Seq) (a : W64) : (q.goto a).tvec = q.tvec := rfl
@[simp] theorem Seq.goto_budget (q : Seq) (a : W64) : (q.goto a).budget = q.budget := rfl
@[simp] theorem Seq.goto_best (q : Seq) (a : W64) : (q.goto a).best = q.best := rfl
@[simp] theorem Seq.goto_bestres (q : Seq) (a : W64) : (q.goto a).bestres = q.bestres := rfl
@[simp] theorem Seq.goto_monmask (q : Seq) (a : W64) : (q.goto a).monmask = q.monmask := rfl
@[simp] theorem Seq.goto_dups (q : Seq) (a : W64) : (q.goto a).dups = q.dups := rfl
@[simp] theorem Seq.goto_parity (q : Seq) (a : W64) : (q.goto a).parity = q.parity := rfl
@[simp] theorem Seq.goto_dupParity (q : Seq) (a : W64) : (q.goto a).dupParity = q.dupParity := rfl
@[simp] theorem Seq.goto_filter (q : Seq) (a : W64) : (q.goto a).filter = q.filter := rfl
@[simp] theorem Seq.goto_clrs (q : Seq) (a : W64) : (q.goto a).clrs = q.clrs := rfl
@[simp] theorem Seq.goto_sleep (q : Seq) (a : W64) : (q.goto a).sleep = q.sleep := rfl
@[simp] theorem Seq.goto_halted (q : Seq) (a : W64) : (q.goto a).halted = q.halted := rfl
@[simp] theorem Seq.goto_stuck (q : Seq) (a : W64) : (q.goto a).stuck = q.stuck := rfl
@[simp] theorem Seq.goto_mgmt (q : Seq) (a : W64) : (q.goto a).mgmt = q.mgmt := rfl
@[simp] theorem Seq.goto_wait (q : Seq) (a : W64) : (q.goto a).wait = q.wait := rfl
@[simp] theorem Seq.goto_stores (q : Seq) (a : W64) : (q.goto a).stores = q.stores := rfl
@[simp] theorem Seq.goto_lastTag (q : Seq) (a : W64) : (q.goto a).lastTag = q.lastTag := rfl
@[simp] theorem Seq.goto_armed (q : Seq) (a : W64) : (q.goto a).armed = q.armed := rfl
@[simp] theorem Seq.goto_remotes (q : Seq) (a : W64) : (q.goto a).remotes = q.remotes := rfl
@[simp] theorem Seq.goto_pc (q : Seq) (a : W64) : (q.goto a).pc = a := rfl
@[simp] theorem Seq.goto_xfer (q : Seq) (a : W64) : (q.goto a).xfer = true := rfl

/-- g0 discards what is written to it (R93). -/
@[simp] theorem Seq.setG_zero (q : Seq) (v : W64) : q.setG 0#5 v = q := by simp [Seq.setG]
/-- p0 discards what is written to it (R93). -/
@[simp] theorem Seq.setP_zero (q : Seq) (b : Bool) : q.setP 0#3 b = q := by simp [Seq.setP]
/-- g0 reads zero (R93). -/
@[simp] theorem Seq.getG_zero (q : Seq) : q.getG 0#5 = 0#64 := by simp [Seq.getG]
/-- p0 reads true (R64). -/
@[simp] theorem Seq.getP_zero (q : Seq) : q.getP 0#3 = true := by simp [Seq.getP]

/-- A register reads as it was written, but for g0. -/
theorem Seq.getG_setG_same (q : Seq) (n : Reg) (v : W64) (h : n ≠ 0) : (q.setG n v).getG n = v := by
  simp only [Seq.getG, Seq.setG, if_neg h, Vector.getElem_set_self]

/-- A write leaves every other register alone. -/
theorem Seq.getG_setG_ne (q : Seq) {n m : Reg} (v : W64) (h : m ≠ n) : (q.setG n v).getG m = q.getG m := by
  by_cases hm : m = 0
  · simp [hm]
  · by_cases hn : n = 0
    · simp [hn]
    · have e : n.toNat ≠ m.toNat := fun e => h (BitVec.eq_of_toNat_eq e.symm)
      simp only [Seq.getG, Seq.setG, if_neg hm, if_neg hn, Vector.getElem_set_ne _ _ e]

end Sys2Proof.Machine
end

