-- ==== Sys2Proof/Laws/Run.lean ====
section
/-! SUPPORT. What running a sequencer instruction can do, said once: a false guard, a trap, a result. -/
namespace Sys2Proof
open Machine

/-- Registers just written are there. -/
theorem rg?_setRg_same (s : State) (r : Nat) (x : Region) : (s.setRg r x).rg? r = some x := by
  simp [State.rg?]

theorem rg?_setRg_ne (s : State) {r k : Nat} (h : k ≠ r) (x : Region) : (s.setRg r x).rg? k = s.rg? k := by
  simp [State.rg?, Assoc.find_put_ne _ h]

theorem rg?_updRg_same (s : State) (r : Nat) (f : Region → Region) : (s.updRg r f).rg? r = (s.rg? r).map f := by
  simp [State.rg?, Assoc.find_upd_same]

/-- Where a region is, setting its registers sets one entry of it. -/
theorem setSeq_eq {s : State} {r : Nat} {rg : Region} (h : s.rg? r = some rg) (pg : Nat) (q : Seq) :
    s.setSeq r pg q = s.setRg r { rg with seqs := listUpd rg.seqs pg (fun _ => q) } := by
  simp [State.setSeq, h]

theorem rg?_setSeq {s : State} {r : Nat} {rg : Region} (h : s.rg? r = some rg) (pg : Nat) (q : Seq) :
    (s.setSeq r pg q).rg? r = some { rg with seqs := listUpd rg.seqs pg (fun _ => q) } := by
  rw [setSeq_eq h, rg?_setRg_same]

/-- Of two writes of the same registers the later stands. -/
@[simp] theorem setSeq_setSeq (s : State) (r pg : Nat) (q q' : Seq) :
    (s.setSeq r pg q).setSeq r pg q' = s.setSeq r pg q' := by
  cases h : s.rg? r with
  | none => simp [State.setSeq, h]
  | some rg =>
    rw [setSeq_eq (rg?_setSeq h pg q), setSeq_eq h, setSeq_eq h]
    simp [State.setRg]

/-- The registers that were set are read. -/
theorem seq?_setSeq {s : State} {r pg : Nat} {rg : Region} {q0 : Seq} (h : s.rg? r = some rg)
    (h0 : rg.seqs[pg]? = some q0) (q : Seq) : (s.setSeq r pg q).seq? r pg = some q := by
  simp [State.seq?, rg?_setSeq h, listUpd_getElem?_same, h0]

@[simp] theorem past_getG (q : Seq) (n : Nat) (r : Reg) : (past q n).getG r = q.getG r := rfl
@[simp] theorem past_getP (q : Seq) (n : Nat) (p : PReg) : (past q n).getP p = q.getP p := rfl
@[simp] theorem past_stat (q : Seq) (n : Nat) : (past q n).stat = q.stat := rfl

/-- The registers a meaning leaves are the ones that stand. -/
@[simp] theorem runAt_set (s : State) (r pg : Nat) (rg : Region) (q q' : Seq) (len : Nat) :
    (runAt s r pg rg q len).set q' = s.setSeq r pg q' := setSeq_setSeq s r pg _ _
@[simp] theorem runAt_q (s : State) (r pg : Nat) (rg : Region) (q : Seq) (len : Nat) :
    (runAt s r pg rg q len).q = past q len := rfl
@[simp] theorem runAt_pc (s : State) (r pg : Nat) (rg : Region) (q : Seq) (len : Nat) :
    (runAt s r pg rg q len).pc = q.pc := rfl
@[simp] theorem runAt_rg (s : State) (r pg : Nat) (rg : Region) (q : Seq) (len : Nat) :
    (runAt s r pg rg q len).rg = rg := rfl
@[simp] theorem runAt_r (s : State) (r pg : Nat) (rg : Region) (q : Seq) (len : Nat) :
    (runAt s r pg rg q len).r = r := rfl
@[simp] theorem runAt_pg (s : State) (r pg : Nat) (rg : Region) (q : Seq) (len : Nat) :
    (runAt s r pg rg q len).pg = pg := rfl

/-- Sources of good parity are read as they are (R117). -/
theorem scrub_clean (q : Seq) (src : List Reg) (h : ∀ n ∈ src, n = 0 ∨ q.parity.getLsbD n.toNat = false) :
    q.scrub src = (q, 0, none) := by
  induction src with
  | nil => rfl
  | cons n t ih =>
    have hn : (n = 0 || !q.parity.getLsbD n.toNat) = true := by
      rcases h n (by simp) with h | h
      · simp [h]
      · simp [h]
    rw [Seq.scrub, if_pos hn]
    exact ih (fun m hm => h m (List.mem_cons_of_mem _ hm))

/-- A false guard only moves past the instruction (R114). -/
theorem runSeq_guard_false {s : State} {r pg : Nat} {rg : Region} {q : Seq} {g : Guard} (h : Seat s r pg rg q)
    (hg : q.guardOk g = false) (len : Nat) (src : List Reg) (k : Run → Except TrapRec State) :
    runSeq len g src s k = .next (s.setSeq r pg (past q len)) := by
  simp [runSeq, h.agent, h.region, h.regs, hg, past]

/-- An instruction that runs: its effect, its trap taken with its own address in EPC (R116), or, where an access must wait, the
sequencer as it stood (R457). -/
theorem runSeq_able {s : State} {r pg : Nat} {rg : Region} {q : Seq} {g : Guard} {src : List Reg}
    (h : Able s r pg rg q g src) (len : Nat) (k : Run → Except TrapRec State) :
    runSeq len g src s k =
      match k (runAt s r pg rg q len) with
      | .ok t => .next t
      | .error t => .next (if t.waits then s.setSeq r pg q else (s.setSeq r pg q).trap r pg q.pc t) := by
  simp only [runSeq, h.seat.agent, h.seat.region, h.seat.regs, h.guard, scrub_clean q src h.clean,
    State.countRepairs, runAt, past]
  rfl

/-- An effect on registers only. -/
theorem runRegs_able {s : State} {r pg : Nat} {rg : Region} {q : Seq} {g : Guard} {src : List Reg}
    (h : Able s r pg rg q g src) (len : Nat) (k : Seq → Seq) :
    runRegs len g src s k = .next (s.setSeq r pg (k (past q len))) := by
  simp [runRegs, runSeq_able h, Run.set, runAt]

/-- Taking a trap when INH is 0 (R116, R428). -/
theorem trap_taken {s : State} {r pg : Nat} {q : Seq} (h : s.seq? r pg = some q) (hi : q.inh = false) (epc : W64)
    (t : TrapRec) : s.trap r pg epc t = s.setSeq r pg (q.enter epc t) := by
  simp [State.trap, h, hi]

/-- The trap of a running instruction, taken (R116). -/
theorem runSeq_traps {s : State} {r pg : Nat} {rg : Region} {q : Seq} {g : Guard} {src : List Reg}
    (h : Able s r pg rg q g src) (len : Nat) (k : Run → Except TrapRec State) {t : TrapRec}
    (hk : k (runAt s r pg rg q len) = .error t) (hw : t.waits = false) (hi : q.inh = false) :
    runSeq len g src s k = .next (s.setSeq r pg (q.enter q.pc t)) := by
  rw [runSeq_able h, hk]
  simp [hw, trap_taken (seq?_setSeq h.seat.region h.seat.regs q) hi]

end Sys2Proof
end

