-- ==== Sys2Proof/Laws/Node.lean ====
section
/-! SUPPORT. What running a node's instruction can do, said once: a node whose first position works fires, and the
pairing rule passes the tokens of slots that are all filled. -/
namespace Sys2Proof
open Machine

theorem laneWidth_pos (m : Bool) (w : Nat) : 0 < laneWidth m w := by
  unfold laneWidth
  split
  · decide
  · split
    · split <;> decide
    · split
      · split <;> decide
      · split <;> decide

/-- A firing has room for at least one position (R187). -/
theorem width_pos (d : Nd) : 0 < d.width := by
  unfold Nd.width
  dsimp only
  split <;> (try exact laneWidth_pos _ _) <;> (try decide)
  split <;> decide

/-- A firing may take at least one position (R187). -/
theorem turns_pos (d : Nd) : 0 < d.turns := by
  have := width_pos d
  unfold Nd.turns
  split <;> omega

/-- A node that is not stopped and whose first position leaves it as `d1` fires (R187). -/
theorem runNode_fires {s : State} {r b n : Nat} {v : NodeV} {d : Nd} (h : NodeSeat s r b n v d)
    (hs : d.st.stopped = none) (f : Nd → Option Nd) (d1 : Nd) (hf : f d = some d1) :
    runNode v s f = .next (firing d f d1) := by
  obtain ⟨rg, blk, cfg, h1, h2, rfl⟩ := h.node
  simp only [runNode, h.agent, h1, h2]
  obtain ⟨k, hk⟩ := Nat.exists_eq_add_one.2
    (turns_pos { r := r, b := b, n := n, blk := blk, cfg := cfg, v := v, rg := rg, s := s })
  simp [firing, hk, Nd.loop, hs, hf]

/-- The work of a position is done on the tokens of its filled slots (R186, R189). -/
theorem pairStep_fires {d : Nd} {req : List Nat} {ts : List Token} (h : Fires d req ts)
    (w : Nd → List Token → Option Nd) : d.pairStep req w = w d ts := by
  have hm : ∀ i ∈ req, ∃ t, d.head i = .tok t := by
    intro i hi
    have : (d.head i).tok? ∈ ts.map some := h.heads ▸ List.mem_map_of_mem hi
    obtain ⟨t, _, ht⟩ := List.mem_map.1 this
    cases hh : d.head i <;> simp [hh, Head.tok?] at ht
    exact ⟨_, rfl⟩
  have h1 : (d.pairs req).any (fun i => (d.head i).isEnded) = false := by
    simp only [List.any_eq_false, Nd.pairs, List.mem_filter]
    intro i hi
    obtain ⟨t, ht⟩ := hm i hi.1
    simp [ht, Head.isEnded]
  have h2 : req.filterMap (fun i => (d.head i).tok?) = ts := by
    have e : ∀ (l : List Nat) (us : List Token), l.map (fun i => (d.head i).tok?) = us.map some →
        l.filterMap (fun i => (d.head i).tok?) = us := by
      intro l
      induction l with
      | nil => intro us hu; cases us <;> simp_all
      | cons a l ih =>
        intro us hu
        cases us with
        | nil => simp at hu
        | cons u us => simp at hu; simp [hu.1, ih us hu.2]
    exact e _ _ h.heads
  have h3 : ts.length = req.length := by
    have := congrArg List.length h.heads
    simpa using this.symm
  simp [Nd.pairStep, h.live.1, h1, h2, h3, h.room]

end Sys2Proof
end

