-- ==== Sys2Proof/Tests/Slice0.lean ====
section
/-! SUPPORT. Tests: ill-formed terms that WellFormed refuses, words written out from the spec's encodings, steps on
small states, and a state that meets the hypotheses of each statement. -/
namespace Sys2Proof
open Machine

/-! ### WellFormed refuses -/

/-- N32 and the consumers of N64 and N96 (R96, R98): three consumers, an unused field set, XC 3, XC without two
consumers, a delay bit on no consumer. -/
theorem test_wf_consumers :
    N32.wf ⟨3, 0, 0, 0⟩ = false ∧ N32.wf ⟨0, 1, 0, 0⟩ = false ∧ N32.wf ⟨1, 1, 1, 0⟩ = false ∧ N32.wf ⟨2, 1, 1, 3⟩ = true ∧
    consWf 3 0 0 0 0 0 0 = false ∧ consWf 2 1 2 0 3 3 4 = false ∧ consWf 1 1 0 0 1 3 0 = false ∧
    consWf 2 1 2 0 0 3 0 = false ∧ consWf 2 1 2 0 1 3 4 = false ∧ consWf 0 0 0 1 0 0 0 = false ∧
    consWf 1 1 0 2 0 0 0 = false ∧ consWf 2 1 2 4 0 0 0 = false ∧ consWf 2 1 2 8 1 3 0 = false ∧
    consWf 2 1 2 15 2 3 4 = true ∧
    (Instr.addNodeN64 { k := 3, c1 := 0, c2 := 0, fmt := 0, den := 0, xc := 0, c3 := 0, c4 := 0 }).wf = false ∧
    (Instr.addNodeN96 { k := 0, c1 := 0, c2 := 0, fmt := 0, den := 1, xc := 0, c3 := 0, c4 := 0, lit := 0 }).wf = false := by
  decide

/-- EGR and ACC have no consumer; some N32 entries fix TC (R99). -/
theorem test_wf_node_rows :
    (Instr.egr ⟨1, 4, 0, 0⟩).wf = false ∧ (Instr.acc ⟨1, 4, 0, 0⟩).wf = false ∧ (Instr.cmpNode ⟨1, 4, 0, 1⟩).wf = false ∧
    (Instr.fcmp ⟨1, 4, 0, 1⟩).wf = false ∧ (Instr.frcp ⟨1, 4, 0, 0⟩).wf = false ∧ (Instr.frsq ⟨1, 4, 0, 2⟩).wf = false ∧
    (Instr.fexp2 ⟨1, 4, 0, 0⟩).wf = false ∧ (Instr.flog2 ⟨1, 4, 0, 0⟩).wf = false ∧ (Instr.unpk3 ⟨1, 4, 0, 2⟩).wf = false ∧
    (Instr.pfxpop ⟨1, 4, 0, 0⟩).wf = false ∧ (Instr.mmpl ⟨1, 4, 0, 3⟩).wf = false ∧ (Instr.pivdiv ⟨1, 4, 0, 0⟩).wf = false ∧
    (Instr.resid ⟨1, 4, 0, 1⟩).wf = false ∧ (Instr.frcp ⟨1, 4, 0, 3⟩).wf = true := by decide

/-- Operand limits of sequencer instructions (R89, R91, R92, R120, R141, R142, R168, R181, R313), and the causes of a
failed fetch. -/
theorem test_wf_operands :
    (Instr.extSi ⟨0, false⟩ false 1 2 0).wf = false ∧ (Instr.extSi ⟨0, false⟩ false 1 2 65).wf = false ∧
    (Instr.extSi ⟨0, false⟩ false 1 2 64).wf = true ∧
    (Instr.bitf ⟨0, false⟩ false false 1 2 1 63).wf = false ∧ (Instr.bitf ⟨0, false⟩ true true 1 2 0 0).wf = false ∧
    (Instr.bitf ⟨0, false⟩ true false 1 2 0 63).wf = true ∧
    (Instr.amo ⟨0, false⟩ .add .i16 1 2 3 0).wf = false ∧ (Instr.brSbl ⟨0, false⟩ 2).wf = false ∧
    (Instr.jmpSbl ⟨0, false⟩ 1).wf = false ∧ (Instr.callSbl ⟨0, false⟩ 1 3).wf = false ∧ (Instr.loop ⟨0, false⟩ 1 2).wf = false ∧
    (Instr.csrx ⟨0, false⟩ 1 2 .acs 1 63).wf = false ∧ (Instr.accrstSi ⟨0, false⟩ 0 32768).wf = false ∧
    (Instr.accrstSi ⟨0, false⟩ 0 0xFFFF8000).wf = true ∧ (Instr.accrstSi ⟨0, false⟩ 0 0xFFFF7FFF).wf = false ∧
    (Instr.accrd ⟨0, false⟩ 5 1 0).wf = false ∧ (Instr.accrdSi ⟨0, false⟩ 5 1 0).wf = false ∧
    (Instr.sstatSi ⟨0, false⟩ 1 0 11).wf = false ∧ (Instr.sstatSi ⟨0, false⟩ 1 0 10).wf = true ∧
    (Instr.qfence ⟨0, false⟩ .page 1 2).wf = false ∧ (Instr.qfenceSi ⟨0, false⟩ .dune 1 2).wf = false ∧
    (Instr.tinfoSi ⟨0, false⟩ 1 12 0).wf = false ∧ (Instr.tinfoChSi ⟨0, false⟩ 1 2 12 0).wf = false ∧
    (Instr.fetchFault { cause := 11, eaddr := 0, einfo := 0 }).wf = false := by decide

/-! ### Decoding: words written out from R85 to R98, the entries and the opcode map, one of each encodable row -/

/-- Each triple of words is decoded as the instruction beside it. -/
noncomputable def readAs (l : List (Nat × Nat × Nat × Instr)) : Bool :=
  l.all (fun e => match decodeWords e.1 e.2.1 e.2.2.1 with
    | .ok i => decide (i = e.2.2.2)
    | .error _ => false)

theorem test_decode_sequencer_1 : readAs [
    (0x00000000, 0x0, 0x0, .nop),
    (0x1A939804, 0x0, 0x0, .add ⟨5, true⟩ 6 7 9),
    (0x1A039805, 0x80000004, 0x0, .addSi ⟨5, true⟩ 6 7 0x80000004),
    (0x1A939808, 0x0, 0x0, .sub ⟨5, true⟩ 6 7 9),
    (0x1A039809, 0x80000004, 0x0, .subSi ⟨5, true⟩ 6 7 0x80000004),
    (0x1A93980C, 0x0, 0x0, .mul ⟨5, true⟩ 6 7 9),
    (0x1A03980D, 0x80000004, 0x0, .mulSi ⟨5, true⟩ 6 7 0x80000004),
    (0x3A939810, 0x0, 0x0, .mulh ⟨5, true⟩ true 6 7 9),
    (0x3A039811, 0x80000004, 0x0, .mulhSi ⟨5, true⟩ true 6 7 0x80000004),
    (0x3A939814, 0x0, 0x0, .div ⟨5, true⟩ true 6 7 9),
    (0x3A039815, 0x80000004, 0x0, .divSi ⟨5, true⟩ true 6 7 0x80000004),
    (0x3A939818, 0x0, 0x0, .rem ⟨5, true⟩ true 6 7 9),
    (0x3A039819, 0x80000004, 0x0, .remSi ⟨5, true⟩ true 6 7 0x80000004),
    (0x1A93981C, 0x0, 0x0, .andR ⟨5, true⟩ 6 7 9),
    (0x1A03981D, 0x80000004, 0x0, .andSi ⟨5, true⟩ 6 7 0x80000004),
    (0x1A939820, 0x0, 0x0, .orR ⟨5, true⟩ 6 7 9),
    (0x1A039821, 0x80000004, 0x0, .orSi ⟨5, true⟩ 6 7 0x80000004),
    (0x1A939824, 0x0, 0x0, .xorR ⟨5, true⟩ 6 7 9),
    (0x1A039825, 0x80000004, 0x0, .xorSi ⟨5, true⟩ 6 7 0x80000004),
    (0x1A939828, 0x0, 0x0, .andn ⟨5, true⟩ 6 7 9),
    (0x1A039829, 0x80000004, 0x0, .andnSi ⟨5, true⟩ 6 7 0x80000004),
    (0x1A93982C, 0x0, 0x0, .shl ⟨5, true⟩ 6 7 9),
    (0x1A03982D, 0x80000004, 0x0, .shlSi ⟨5, true⟩ 6 7 0x80000004),
    (0x1A939830, 0x0, 0x0, .shr ⟨5, true⟩ 6 7 9),
    (0x1A039831, 0x80000004, 0x0, .shrSi ⟨5, true⟩ 6 7 0x80000004),
    (0x1A939834, 0x0, 0x0, .sar ⟨5, true⟩ 6 7 9),
    (0x1A039835, 0x80000004, 0x0, .sarSi ⟨5, true⟩ 6 7 0x80000004),
    (0x1A939838, 0x0, 0x0, .rot ⟨5, true⟩ 6 7 9),
    (0x1A039839, 0x80000004, 0x0, .rotSi ⟨5, true⟩ 6 7 0x80000004),
    (0x3A93983C, 0x0, 0x0, .min ⟨5, true⟩ true 6 7 9),
    (0x3A03983D, 0x80000004, 0x0, .minSi ⟨5, true⟩ true 6 7 0x80000004),
    (0x3A939840, 0x0, 0x0, .max ⟨5, true⟩ true 6 7 9),
    (0x3A039841, 0x80000004, 0x0, .maxSi ⟨5, true⟩ true 6 7 0x80000004),
    (0x1A039844, 0x0, 0x0, .clz ⟨5, true⟩ 6 7),
    (0x1A039848, 0x0, 0x0, .popc ⟨5, true⟩ 6 7),
    (0x3A93984C, 0x0, 0x0, .ext ⟨5, true⟩ true 6 7 9),
    (0x3A03984D, 0x21, 0x0, .extSi ⟨5, true⟩ true 6 7 0x21),
    (0x1A0398D9, 0x11C9, 0x0, .bitf ⟨5, true⟩ true false 6 7 9 7),
    (0x3A938850, 0x0, 0x0, .cmp ⟨5, true⟩ .ne 2 7 9),
    (0x3A038851, 0x80000004, 0x0, .cmpSi ⟨5, true⟩ .ne 2 7 0x80000004)] = true := by decide +kernel

theorem test_decode_sequencer_2 : readAs [
    (0x1A308855, 0xB, 0x0, .plog ⟨5, true⟩ 2 1 3 0xB),
    (0x9A939858, 0x0, 0x0, .sel ⟨5, true⟩ 4 6 7 9),
    (0x1A03985C, 0x0, 0x0, .movGG ⟨5, true⟩ 6 7),
    (0x3A03985C, 0x0, 0x0, .movGP ⟨5, true⟩ 6 7),
    (0x5A03985C, 0x0, 0x0, .movPG ⟨5, true⟩ 6 7),
    (0x7A03985C, 0x0, 0x0, .movPP ⟨5, true⟩ 6 7),
    (0x1A001861, 0x80000004, 0x0, .litSi ⟨5, true⟩ 6 0x80000004),
    (0x1A001862, 0x80000004, 0x12345678, .litSl ⟨5, true⟩ 6 0x80000004 0x12345678),
    (0x1A0018D5, 0x80000010, 0x0, .lea ⟨5, true⟩ 6 (.pcRel 0x10)),
    (0x5A039865, 0x8000000, 0x0, .ld ⟨5, true⟩ .i16 6 (.base 7 0x8000000)),
    (0xBA939865, 0x70000000, 0x0, .ld ⟨5, true⟩ .i64 6 (.index 7 9 3)),
    (0x7A039869, 0xFFFFFFC, 0x0, .st ⟨5, true⟩ .i32 6 (.base 7 0xFFFFFFC)),
    (0x9A93986D, 0x7800000, 0x0, .amo ⟨5, true⟩ .maxu .ui32 6 7 9 0x800000),
    (0x9A000070, 0x0, 0x0, .fence ⟨5, true⟩ .die),
    (0x1A013474, 0x0, 0x0, .br ⟨5, true⟩ 77),
    (0x1A000075, 0x80000004, 0x0, .brSbl ⟨5, true⟩ 0x80000004),
    (0x1A038078, 0x0, 0x0, .jmp ⟨5, true⟩ 7),
    (0x1A000079, 0x80000004, 0x0, .jmpSbl ⟨5, true⟩ 0x80000004),
    (0x1A03987C, 0x0, 0x0, .call ⟨5, true⟩ 6 7),
    (0x1A00187D, 0x80000004, 0x0, .callSbl ⟨5, true⟩ 6 0x80000004),
    (0x1A038080, 0x0, 0x0, .ret ⟨5, true⟩ 7),
    (0x1A001885, 0x80000004, 0x0, .loop ⟨5, true⟩ 6 0x80000004),
    (0x1A038088, 0x0, 0x0, .monarm ⟨5, true⟩ 7),
    (0x3A000088, 0x0, 0x0, .monarmClr ⟨5, true⟩),
    (0x1A03988C, 0x0, 0x0, .sleep ⟨5, true⟩ 6 7),
    (0x1A00188D, 0x80000004, 0x0, .sleepSi ⟨5, true⟩ 6 0x80000004),
    (0x1A939890, 0x0, 0x0, .testseq ⟨5, true⟩ 6 7 9),
    (0x1A939891, 0x80000004, 0x0, .testseqSi ⟨5, true⟩ 6 7 9 0x80000004),
    (0x1A039894, 0x0, 0x0, .cfg ⟨5, true⟩ 6 7),
    (0x1A039895, 0x80000004, 0x0, .cfgSi ⟨5, true⟩ 6 7 0x80000004),
    (0x3A039894, 0x0, 0x0, .cfgList ⟨5, true⟩ 6 7),
    (0x3A039895, 0x80000004, 0x0, .cfgListSi ⟨5, true⟩ 6 7 0x80000004),
    (0x1A001898, 0x0, 0x0, .cfgstep ⟨5, true⟩ 6),
    (0x1A001899, 0x80000004, 0x0, .cfgstepSi ⟨5, true⟩ 6 0x80000004),
    (0x1A03989C, 0x0, 0x0, .run ⟨5, true⟩ 6 7),
    (0x1A00189D, 0x80000004, 0x0, .runSi ⟨5, true⟩ 6 0x80000004),
    (0x1A9398A0, 0x0, 0x0, .bound ⟨5, true⟩ 6 7 9),
    (0x1A9018A1, 0x1E4, 0x0, .boundSi ⟨5, true⟩ 6 9 0x64 0x3),
    (0x1A0018A4, 0x0, 0x0, .accrst ⟨5, true⟩ 6),
    (0x1A0018A5, 0xFFFF8000, 0x0, .accrstSi ⟨5, true⟩ 6 0xFFFF8000)] = true := by decide +kernel

theorem test_decode_sequencer_3 : readAs [
    (0x7A0398A8, 0x0, 0x0, .accrd ⟨5, true⟩ 3 6 7),
    (0x7A0018A9, 0xB, 0x0, .accrdSi ⟨5, true⟩ 3 6 0xB),
    (0x3A9398AC, 0x0, 0x0, .portw ⟨5, true⟩ true 6 7 9),
    (0x3A0398AD, 0x29, 0x0, .portwSi ⟨5, true⟩ true 6 7 0x29),
    (0x9A0398B0, 0x0, 0x0, .portr ⟨5, true⟩ 4 6 7),
    (0x9A0018B1, 0x29, 0x0, .portrSi ⟨5, true⟩ 4 6 0x29),
    (0x1A0000B5, 0x80000004, 0x0, .trap ⟨5, true⟩ 0x80000004),
    (0x1A0000B8, 0x0, 0x0, .rett ⟨5, true⟩),
    (0x3A0000B8, 0x0, 0x0, .rettNext ⟨5, true⟩),
    (0x1A0018BD, 0x101, 0x0, .csrr ⟨5, true⟩ 6 .ecause),
    (0x1A0380C1, 0x104, 0x0, .csrw ⟨5, true⟩ 7 .tvec),
    (0x1A0398DD, 0x102002, 0x0, .csrx ⟨5, true⟩ 6 7 .acs 2 4),
    (0x000000C4, 0x0, 0x0, .halt),
    (0x1A0380C8, 0x0, 0x0, .snap ⟨5, true⟩ 7),
    (0x1A0380CC, 0x0, 0x0, .budget ⟨5, true⟩ 7),
    (0x1A0000CD, 0x80000004, 0x0, .budgetSi ⟨5, true⟩ 0x80000004),
    (0x3A0018CC, 0x0, 0x0, .budgetTest ⟨5, true⟩ 6),
    (0x3A0018CD, 0x0, 0x0, .budgetTestSi ⟨5, true⟩ 6),
    (0x1A9398D0, 0x0, 0x0, .best ⟨5, true⟩ 6 7 9),
    (0x1A0398D1, 0x80000004, 0x0, .bestSi ⟨5, true⟩ 6 7 0x80000004),
    (0x3A0018D0, 0x0, 0x0, .bestClr ⟨5, true⟩ 6),
    (0x3A0018D1, 0x0, 0x0, .bestClrSi ⟨5, true⟩ 6)] = true := by decide +kernel

theorem test_decode_streams_1 : readAs [
    (0x1A039900, 0x0, 0x0, .sload ⟨5, true⟩ 6 7),
    (0x1A039901, 0x80000004, 0x0, .sloadSi ⟨5, true⟩ 6 7 0x80000004),
    (0x1A039904, 0x0, 0x0, .sstore ⟨5, true⟩ 6 7),
    (0x1A039905, 0x80000004, 0x0, .sstoreSi ⟨5, true⟩ 6 7 0x80000004),
    (0x1A039908, 0x0, 0x0, .sclose ⟨5, true⟩ 6 7),
    (0x1A001909, 0x29, 0x0, .scloseSi ⟨5, true⟩ 6 0x29),
    (0x3A039908, 0x0, 0x0, .scloseCancel ⟨5, true⟩ 6 7),
    (0x3A001909, 0x29, 0x0, .scloseCancelSi ⟨5, true⟩ 6 0x29),
    (0x5A039908, 0x0, 0x0, .scloseQueue ⟨5, true⟩ 6 7),
    (0x5A001909, 0x5, 0x0, .scloseQueueSi ⟨5, true⟩ 6 0x5),
    (0x1A03990C, 0x0, 0x0, .sbar ⟨5, true⟩ 6 7),
    (0x1A00190D, 0xA5, 0x0, .sbarSi ⟨5, true⟩ 6 0xA5),
    (0x1A039910, 0x0, 0x0, .sstat ⟨5, true⟩ 6 7),
    (0x1A001911, 0x4D, 0x0, .sstatSi ⟨5, true⟩ 6 0x5 0x9),
    (0x1A039914, 0x0, 0x0, .cpy ⟨5, true⟩ 6 7),
    (0x1A039915, 0x80000004, 0x0, .cpySi ⟨5, true⟩ 6 7 0x80000004),
    (0x1A039918, 0x0, 0x0, .etbl ⟨5, true⟩ 6 7),
    (0x1A039919, 0x80000004, 0x0, .etblSi ⟨5, true⟩ 6 7 0x80000004),
    (0x1A03991C, 0x0, 0x0, .xpose ⟨5, true⟩ 6 7),
    (0x1A03991D, 0x80000004, 0x0, .xposeSi ⟨5, true⟩ 6 7 0x80000004),
    (0x1A039920, 0x0, 0x0, .gather ⟨5, true⟩ 6 7),
    (0x1A039921, 0x80000004, 0x0, .gatherSi ⟨5, true⟩ 6 7 0x80000004),
    (0x1A039924, 0x0, 0x0, .scatter ⟨5, true⟩ 6 7),
    (0x1A039925, 0x80000004, 0x0, .scatterSi ⟨5, true⟩ 6 7 0x80000004),
    (0x1A039928, 0x0, 0x0, .mcast ⟨5, true⟩ 6 7),
    (0x1A039929, 0x80000004, 0x0, .mcastSi ⟨5, true⟩ 6 7 0x80000004),
    (0x1A93992C, 0x0, 0x0, .pin ⟨5, true⟩ 6 7 9),
    (0x1A03992D, 0x80000004, 0x0, .pinSi ⟨5, true⟩ 6 7 0x80000004),
    (0x1A939930, 0x0, 0x0, .unpin ⟨5, true⟩ 6 7 9),
    (0x1A039931, 0x80000004, 0x0, .unpinSi ⟨5, true⟩ 6 7 0x80000004),
    (0x9A939934, 0x0, 0x0, .pref ⟨5, true⟩ 4 6 7 9),
    (0x9A039935, 0x80000004, 0x0, .prefSi ⟨5, true⟩ 4 6 7 0x80000004),
    (0x9A939938, 0x0, 0x0, .flush ⟨5, true⟩ 4 6 7 9),
    (0x9A039939, 0x80000004, 0x0, .flushSi ⟨5, true⟩ 4 6 7 0x80000004),
    (0x1A03993C, 0x0, 0x0, .chainw ⟨5, true⟩ 6 7),
    (0x1A03993D, 0x80000004, 0x0, .chainwSi ⟨5, true⟩ 6 7 0x80000004),
    (0x1A939940, 0x0, 0x0, .chaint ⟨5, true⟩ 6 7 9),
    (0x1A039941, 0x80000004, 0x0, .chaintSi ⟨5, true⟩ 6 7 0x80000004),
    (0x1A939944, 0x0, 0x0, .qpush ⟨5, true⟩ 6 7 9),
    (0x1A901945, 0x1ABC, 0x0, .qpushSi ⟨5, true⟩ 6 9 0x1ABC)] = true := by decide +kernel

theorem test_decode_streams_2 : readAs [
    (0x1A939948, 0x0, 0x0, .qpop ⟨5, true⟩ 6 7 9),
    (0x1A901949, 0x1ABC, 0x0, .qpopSi ⟨5, true⟩ 6 9 0x1ABC),
    (0x9A03994C, 0x0, 0x0, .qfence ⟨5, true⟩ .die 6 7),
    (0x9A00194D, 0xA5, 0x0, .qfenceSi ⟨5, true⟩ .die 6 0xA5),
    (0x3A039950, 0x0, 0x0, .qseq ⟨5, true⟩ true 6 7),
    (0x3A001951, 0x1ABC, 0x0, .qseqSi ⟨5, true⟩ true 6 0x1ABC),
    (0x1A939954, 0x0, 0x0, .barinit ⟨5, true⟩ 6 7 9),
    (0x1A039955, 0x80000004, 0x0, .barinitSi ⟨5, true⟩ 6 7 0x80000004),
    (0x1A039958, 0x0, 0x0, .bararr ⟨5, true⟩ 6 7),
    (0x1A039959, 0x80000004, 0x0, .bararrSi ⟨5, true⟩ 6 7 0x80000004),
    (0x1A93995C, 0x0, 0x0, .bartest ⟨5, true⟩ 6 7 9),
    (0x1A03995D, 0x80000004, 0x0, .bartestSi ⟨5, true⟩ 6 7 0x80000004)] = true := by decide +kernel

theorem test_decode_tasks : readAs [
    (0x1A039960, 0x0, 0x0, .spawn ⟨5, true⟩ 6 7),
    (0x1A039961, 0x80000004, 0x0, .spawnSi ⟨5, true⟩ 6 7 0x80000004),
    (0x1A939964, 0x0, 0x0, .vdecl ⟨5, true⟩ 6 7 9),
    (0x1A939965, 0xD, 0x0, .vdeclSi ⟨5, true⟩ 6 7 9 0xD),
    (0x1A001968, 0x0, 0x0, .tend ⟨5, true⟩ 6),
    (0x3A039968, 0x0, 0x0, .tendChild ⟨5, true⟩ 6 7),
    (0x1A00196C, 0x0, 0x0, .tsync ⟨5, true⟩ 6),
    (0x3A00196C, 0x0, 0x0, .tsyncTake ⟨5, true⟩ 6),
    (0x1A039970, 0x0, 0x0, .tresume ⟨5, true⟩ 6 7),
    (0x3A039970, 0x0, 0x0, .tresumeSkip ⟨5, true⟩ 6 7),
    (0x1A901974, 0x0, 0x0, .tinfo ⟨5, true⟩ 6 9),
    (0x1A001975, 0x12B, 0x0, .tinfoSi ⟨5, true⟩ 6 0xB 0x9),
    (0x3A939974, 0x0, 0x0, .tinfoCh ⟨5, true⟩ 6 7 9),
    (0x3A039975, 0x12B, 0x0, .tinfoChSi ⟨5, true⟩ 6 7 0xB 0x9)] = true := by decide +kernel

theorem test_decode_erg : readAs [
    (0x1A039980, 0x0, 0x0, .eload ⟨5, true⟩ 6 7),
    (0x1A039981, 0x80000004, 0x0, .eloadSi ⟨5, true⟩ 6 7 0x80000004),
    (0x1A039984, 0x0, 0x0, .ewire ⟨5, true⟩ 6 7),
    (0x1A039985, 0x80000004, 0x0, .ewireSi ⟨5, true⟩ 6 7 0x80000004),
    (0x1A039988, 0x0, 0x0, .esel ⟨5, true⟩ 6 7),
    (0x1A001989, 0xD, 0x0, .eselSi ⟨5, true⟩ 6 0x1 0x3),
    (0x1A03998C, 0x0, 0x0, .ethr ⟨5, true⟩ 6 7),
    (0x1A03998D, 0x80000004, 0x0, .ethrSi ⟨5, true⟩ 6 7 0x80000004),
    (0x1A039990, 0x0, 0x0, .exf ⟨5, true⟩ 6 7),
    (0x1A039991, 0x80000004, 0x0, .exfSi ⟨5, true⟩ 6 7 0x80000004),
    (0x1A939994, 0x0, 0x0, .eeval ⟨5, true⟩ 6 7 9),
    (0x1A001995, 0x123456, 0x0, .eevalSi ⟨5, true⟩ 6 0x456 0x123),
    (0x1A039998, 0x0, 0x0, .epop ⟨5, true⟩ 6 7),
    (0x1A039999, 0x80000004, 0x0, .epopSi ⟨5, true⟩ 6 7 0x80000004),
    (0x1A03999C, 0x0, 0x0, .exb ⟨5, true⟩ 6 7),
    (0x1A03999D, 0x80000004, 0x0, .exbSi ⟨5, true⟩ 6 7 0x80000004)] = true := by decide +kernel

theorem test_decode_nodes_1 : readAs [
    (0x84415E00, 0x0, 0x0, .ingr { k := 2, c1 := 21, c2 := 34, t := 3 }),
    (0x84415201, 0x190A819, 0x0, .ingrN64 { k := 2, c1 := 21, c2 := 34, fmt := 0x19, den := 8, xc := 2, c3 := 66, c4 := 3 }),
    (0x84415202, 0x190A819, 0xABCD1234, .ingrN96 { k := 2, c1 := 21, c2 := 34, fmt := 0x19, den := 8, xc := 2, c3 := 66, c4 := 3, lit := 0xABCD1234 }),
    (0x00000E04, 0x0, 0x0, .egr { k := 0, c1 := 0, c2 := 0, t := 3 }),
    (0x84415205, 0x190A819, 0x0, .egrN64 { k := 2, c1 := 21, c2 := 34, fmt := 0x19, den := 8, xc := 2, c3 := 66, c4 := 3 }),
    (0x84415206, 0x190A819, 0xABCD1234, .egrN96 { k := 2, c1 := 21, c2 := 34, fmt := 0x19, den := 8, xc := 2, c3 := 66, c4 := 3, lit := 0xABCD1234 }),
    (0x84415E08, 0x0, 0x0, .cst { k := 2, c1 := 21, c2 := 34, t := 3 }),
    (0x84415209, 0x190A819, 0x0, .cstN64 { k := 2, c1 := 21, c2 := 34, fmt := 0x19, den := 8, xc := 2, c3 := 66, c4 := 3 }),
    (0x8441520A, 0x190A819, 0xABCD1234, .cstN96 { k := 2, c1 := 21, c2 := 34, fmt := 0x19, den := 8, xc := 2, c3 := 66, c4 := 3, lit := 0xABCD1234 }),
    (0x84415E0C, 0x0, 0x0, .addNode { k := 2, c1 := 21, c2 := 34, t := 3 }),
    (0x8441520D, 0x190A819, 0x0, .addNodeN64 { k := 2, c1 := 21, c2 := 34, fmt := 0x19, den := 8, xc := 2, c3 := 66, c4 := 3 }),
    (0x8441520E, 0x190A819, 0xABCD1234, .addNodeN96 { k := 2, c1 := 21, c2 := 34, fmt := 0x19, den := 8, xc := 2, c3 := 66, c4 := 3, lit := 0xABCD1234 }),
    (0x84415E10, 0x0, 0x0, .subNode { k := 2, c1 := 21, c2 := 34, t := 3 }),
    (0x84415211, 0x190A819, 0x0, .subNodeN64 { k := 2, c1 := 21, c2 := 34, fmt := 0x19, den := 8, xc := 2, c3 := 66, c4 := 3 }),
    (0x84415212, 0x190A819, 0xABCD1234, .subNodeN96 { k := 2, c1 := 21, c2 := 34, fmt := 0x19, den := 8, xc := 2, c3 := 66, c4 := 3, lit := 0xABCD1234 }),
    (0x84415E14, 0x0, 0x0, .mulNode { k := 2, c1 := 21, c2 := 34, t := 3 }),
    (0x84415215, 0x190A819, 0x0, .mulNodeN64 { k := 2, c1 := 21, c2 := 34, fmt := 0x19, den := 8, xc := 2, c3 := 66, c4 := 3 }),
    (0x84415216, 0x190A819, 0xABCD1234, .mulNodeN96 { k := 2, c1 := 21, c2 := 34, fmt := 0x19, den := 8, xc := 2, c3 := 66, c4 := 3, lit := 0xABCD1234 }),
    (0x84415E18, 0x0, 0x0, .mad { k := 2, c1 := 21, c2 := 34, t := 3 }),
    (0x84415219, 0x190A819, 0x0, .madN64 { k := 2, c1 := 21, c2 := 34, fmt := 0x19, den := 8, xc := 2, c3 := 66, c4 := 3 }),
    (0x8441521A, 0x190A819, 0xABCD1234, .madN96 { k := 2, c1 := 21, c2 := 34, fmt := 0x19, den := 8, xc := 2, c3 := 66, c4 := 3, lit := 0xABCD1234 }),
    (0x84415E1C, 0x0, 0x0, .minNode { k := 2, c1 := 21, c2 := 34, t := 3 }),
    (0x8441521D, 0x190A819, 0x0, .minNodeN64 { k := 2, c1 := 21, c2 := 34, fmt := 0x19, den := 8, xc := 2, c3 := 66, c4 := 3 }),
    (0x8441521E, 0x190A819, 0xABCD1234, .minNodeN96 { k := 2, c1 := 21, c2 := 34, fmt := 0x19, den := 8, xc := 2, c3 := 66, c4 := 3, lit := 0xABCD1234 }),
    (0x84415E20, 0x0, 0x0, .maxNode { k := 2, c1 := 21, c2 := 34, t := 3 }),
    (0x84415221, 0x190A819, 0x0, .maxNodeN64 { k := 2, c1 := 21, c2 := 34, fmt := 0x19, den := 8, xc := 2, c3 := 66, c4 := 3 }),
    (0x84415222, 0x190A819, 0xABCD1234, .maxNodeN96 { k := 2, c1 := 21, c2 := 34, fmt := 0x19, den := 8, xc := 2, c3 := 66, c4 := 3, lit := 0xABCD1234 }),
    (0x84415E24, 0x0, 0x0, .absNode { k := 2, c1 := 21, c2 := 34, t := 3 }),
    (0x84415225, 0x190A819, 0x0, .absNodeN64 { k := 2, c1 := 21, c2 := 34, fmt := 0x19, den := 8, xc := 2, c3 := 66, c4 := 3 }),
    (0x84415226, 0x190A819, 0xABCD1234, .absNodeN96 { k := 2, c1 := 21, c2 := 34, fmt := 0x19, den := 8, xc := 2, c3 := 66, c4 := 3, lit := 0xABCD1234 }),
    (0x84415E28, 0x0, 0x0, .andNode { k := 2, c1 := 21, c2 := 34, t := 3 }),
    (0x84415229, 0x190A819, 0x0, .andNodeN64 { k := 2, c1 := 21, c2 := 34, fmt := 0x19, den := 8, xc := 2, c3 := 66, c4 := 3 }),
    (0x8441522A, 0x190A819, 0xABCD1234, .andNodeN96 { k := 2, c1 := 21, c2 := 34, fmt := 0x19, den := 8, xc := 2, c3 := 66, c4 := 3, lit := 0xABCD1234 }),
    (0x84415E2C, 0x0, 0x0, .orNode { k := 2, c1 := 21, c2 := 34, t := 3 }),
    (0x8441522D, 0x190A819, 0x0, .orNodeN64 { k := 2, c1 := 21, c2 := 34, fmt := 0x19, den := 8, xc := 2, c3 := 66, c4 := 3 }),
    (0x8441522E, 0x190A819, 0xABCD1234, .orNodeN96 { k := 2, c1 := 21, c2 := 34, fmt := 0x19, den := 8, xc := 2, c3 := 66, c4 := 3, lit := 0xABCD1234 }),
    (0x84415E30, 0x0, 0x0, .xorNode { k := 2, c1 := 21, c2 := 34, t := 3 }),
    (0x84415231, 0x190A819, 0x0, .xorNodeN64 { k := 2, c1 := 21, c2 := 34, fmt := 0x19, den := 8, xc := 2, c3 := 66, c4 := 3 }),
    (0x84415232, 0x190A819, 0xABCD1234, .xorNodeN96 { k := 2, c1 := 21, c2 := 34, fmt := 0x19, den := 8, xc := 2, c3 := 66, c4 := 3, lit := 0xABCD1234 }),
    (0x84415E34, 0x0, 0x0, .shlNode { k := 2, c1 := 21, c2 := 34, t := 3 })] = true := by decide +kernel

theorem test_decode_nodes_2 : readAs [
    (0x84415235, 0x190A819, 0x0, .shlNodeN64 { k := 2, c1 := 21, c2 := 34, fmt := 0x19, den := 8, xc := 2, c3 := 66, c4 := 3 }),
    (0x84415236, 0x190A819, 0xABCD1234, .shlNodeN96 { k := 2, c1 := 21, c2 := 34, fmt := 0x19, den := 8, xc := 2, c3 := 66, c4 := 3, lit := 0xABCD1234 }),
    (0x84415E38, 0x0, 0x0, .shrNode { k := 2, c1 := 21, c2 := 34, t := 3 }),
    (0x84415239, 0x190A819, 0x0, .shrNodeN64 { k := 2, c1 := 21, c2 := 34, fmt := 0x19, den := 8, xc := 2, c3 := 66, c4 := 3 }),
    (0x8441523A, 0x190A819, 0xABCD1234, .shrNodeN96 { k := 2, c1 := 21, c2 := 34, fmt := 0x19, den := 8, xc := 2, c3 := 66, c4 := 3, lit := 0xABCD1234 }),
    (0x84415E3C, 0x0, 0x0, .sarNode { k := 2, c1 := 21, c2 := 34, t := 3 }),
    (0x8441523D, 0x190A819, 0x0, .sarNodeN64 { k := 2, c1 := 21, c2 := 34, fmt := 0x19, den := 8, xc := 2, c3 := 66, c4 := 3 }),
    (0x8441523E, 0x190A819, 0xABCD1234, .sarNodeN96 { k := 2, c1 := 21, c2 := 34, fmt := 0x19, den := 8, xc := 2, c3 := 66, c4 := 3, lit := 0xABCD1234 }),
    (0x84415240, 0x0, 0x0, .cmpNode { k := 2, c1 := 21, c2 := 34, t := 0 }),
    (0x84415241, 0x190A819, 0x0, .cmpNodeN64 { k := 2, c1 := 21, c2 := 34, fmt := 0x19, den := 8, xc := 2, c3 := 66, c4 := 3 }),
    (0x84415242, 0x190A819, 0xABCD1234, .cmpNodeN96 { k := 2, c1 := 21, c2 := 34, fmt := 0x19, den := 8, xc := 2, c3 := 66, c4 := 3, lit := 0xABCD1234 }),
    (0x84415E44, 0x0, 0x0, .selNode { k := 2, c1 := 21, c2 := 34, t := 3 }),
    (0x84415245, 0x190A819, 0x0, .selNodeN64 { k := 2, c1 := 21, c2 := 34, fmt := 0x19, den := 8, xc := 2, c3 := 66, c4 := 3 }),
    (0x84415246, 0x190A819, 0xABCD1234, .selNodeN96 { k := 2, c1 := 21, c2 := 34, fmt := 0x19, den := 8, xc := 2, c3 := 66, c4 := 3, lit := 0xABCD1234 }),
    (0x84415E48, 0x0, 0x0, .cvt { k := 2, c1 := 21, c2 := 34, t := 3 }),
    (0x84415249, 0x190A819, 0x0, .cvtN64 { k := 2, c1 := 21, c2 := 34, fmt := 0x19, den := 8, xc := 2, c3 := 66, c4 := 3 }),
    (0x8441524A, 0x190A819, 0xABCD1234, .cvtN96 { k := 2, c1 := 21, c2 := 34, fmt := 0x19, den := 8, xc := 2, c3 := 66, c4 := 3, lit := 0xABCD1234 }),
    (0x84415E4C, 0x0, 0x0, .fadd { k := 2, c1 := 21, c2 := 34, t := 3 }),
    (0x8441524D, 0x190A819, 0x0, .faddN64 { k := 2, c1 := 21, c2 := 34, fmt := 0x19, den := 8, xc := 2, c3 := 66, c4 := 3 }),
    (0x8441524E, 0x190A819, 0xABCD1234, .faddN96 { k := 2, c1 := 21, c2 := 34, fmt := 0x19, den := 8, xc := 2, c3 := 66, c4 := 3, lit := 0xABCD1234 }),
    (0x84415E50, 0x0, 0x0, .fmul { k := 2, c1 := 21, c2 := 34, t := 3 }),
    (0x84415251, 0x190A819, 0x0, .fmulN64 { k := 2, c1 := 21, c2 := 34, fmt := 0x19, den := 8, xc := 2, c3 := 66, c4 := 3 }),
    (0x84415252, 0x190A819, 0xABCD1234, .fmulN96 { k := 2, c1 := 21, c2 := 34, fmt := 0x19, den := 8, xc := 2, c3 := 66, c4 := 3, lit := 0xABCD1234 }),
    (0x84415E54, 0x0, 0x0, .fma { k := 2, c1 := 21, c2 := 34, t := 3 }),
    (0x84415255, 0x190A819, 0x0, .fmaN64 { k := 2, c1 := 21, c2 := 34, fmt := 0x19, den := 8, xc := 2, c3 := 66, c4 := 3 }),
    (0x84415256, 0x190A819, 0xABCD1234, .fmaN96 { k := 2, c1 := 21, c2 := 34, fmt := 0x19, den := 8, xc := 2, c3 := 66, c4 := 3, lit := 0xABCD1234 }),
    (0x84415E58, 0x0, 0x0, .fmin { k := 2, c1 := 21, c2 := 34, t := 3 }),
    (0x84415259, 0x190A819, 0x0, .fminN64 { k := 2, c1 := 21, c2 := 34, fmt := 0x19, den := 8, xc := 2, c3 := 66, c4 := 3 }),
    (0x8441525A, 0x190A819, 0xABCD1234, .fminN96 { k := 2, c1 := 21, c2 := 34, fmt := 0x19, den := 8, xc := 2, c3 := 66, c4 := 3, lit := 0xABCD1234 }),
    (0x84415E5C, 0x0, 0x0, .fmax { k := 2, c1 := 21, c2 := 34, t := 3 }),
    (0x8441525D, 0x190A819, 0x0, .fmaxN64 { k := 2, c1 := 21, c2 := 34, fmt := 0x19, den := 8, xc := 2, c3 := 66, c4 := 3 }),
    (0x8441525E, 0x190A819, 0xABCD1234, .fmaxN96 { k := 2, c1 := 21, c2 := 34, fmt := 0x19, den := 8, xc := 2, c3 := 66, c4 := 3, lit := 0xABCD1234 }),
    (0x84415260, 0x0, 0x0, .fcmp { k := 2, c1 := 21, c2 := 34, t := 0 }),
    (0x84415261, 0x190A819, 0x0, .fcmpN64 { k := 2, c1 := 21, c2 := 34, fmt := 0x19, den := 8, xc := 2, c3 := 66, c4 := 3 }),
    (0x84415262, 0x190A819, 0xABCD1234, .fcmpN96 { k := 2, c1 := 21, c2 := 34, fmt := 0x19, den := 8, xc := 2, c3 := 66, c4 := 3, lit := 0xABCD1234 }),
    (0x84415E64, 0x0, 0x0, .frcp { k := 2, c1 := 21, c2 := 34, t := 3 }),
    (0x84415265, 0x190A819, 0x0, .frcpN64 { k := 2, c1 := 21, c2 := 34, fmt := 0x19, den := 8, xc := 2, c3 := 66, c4 := 3 }),
    (0x84415266, 0x190A819, 0xABCD1234, .frcpN96 { k := 2, c1 := 21, c2 := 34, fmt := 0x19, den := 8, xc := 2, c3 := 66, c4 := 3, lit := 0xABCD1234 }),
    (0x84415E68, 0x0, 0x0, .frsq { k := 2, c1 := 21, c2 := 34, t := 3 }),
    (0x84415269, 0x190A819, 0x0, .frsqN64 { k := 2, c1 := 21, c2 := 34, fmt := 0x19, den := 8, xc := 2, c3 := 66, c4 := 3 })] = true := by decide +kernel

theorem test_decode_nodes_3 : readAs [
    (0x8441526A, 0x190A819, 0xABCD1234, .frsqN96 { k := 2, c1 := 21, c2 := 34, fmt := 0x19, den := 8, xc := 2, c3 := 66, c4 := 3, lit := 0xABCD1234 }),
    (0x84415E6C, 0x0, 0x0, .fexp2 { k := 2, c1 := 21, c2 := 34, t := 3 }),
    (0x8441526D, 0x190A819, 0x0, .fexp2N64 { k := 2, c1 := 21, c2 := 34, fmt := 0x19, den := 8, xc := 2, c3 := 66, c4 := 3 }),
    (0x8441526E, 0x190A819, 0xABCD1234, .fexp2N96 { k := 2, c1 := 21, c2 := 34, fmt := 0x19, den := 8, xc := 2, c3 := 66, c4 := 3, lit := 0xABCD1234 }),
    (0x84415E70, 0x0, 0x0, .flog2 { k := 2, c1 := 21, c2 := 34, t := 3 }),
    (0x84415271, 0x190A819, 0x0, .flog2N64 { k := 2, c1 := 21, c2 := 34, fmt := 0x19, den := 8, xc := 2, c3 := 66, c4 := 3 }),
    (0x84415272, 0x190A819, 0xABCD1234, .flog2N96 { k := 2, c1 := 21, c2 := 34, fmt := 0x19, den := 8, xc := 2, c3 := 66, c4 := 3, lit := 0xABCD1234 }),
    (0x84415274, 0x0, 0x0, .unpk3 { k := 2, c1 := 21, c2 := 34, t := 0 }),
    (0x84415275, 0x190A819, 0x0, .unpk3N64 { k := 2, c1 := 21, c2 := 34, fmt := 0x19, den := 8, xc := 2, c3 := 66, c4 := 3 }),
    (0x84415276, 0x190A819, 0xABCD1234, .unpk3N96 { k := 2, c1 := 21, c2 := 34, fmt := 0x19, den := 8, xc := 2, c3 := 66, c4 := 3, lit := 0xABCD1234 }),
    (0x84415279, 0x190A819, 0x0, .bmandN64 { k := 2, c1 := 21, c2 := 34, fmt := 0x19, den := 8, xc := 2, c3 := 66, c4 := 3 }),
    (0x8441527A, 0x190A819, 0xABCD1234, .bmandN96 { k := 2, c1 := 21, c2 := 34, fmt := 0x19, den := 8, xc := 2, c3 := 66, c4 := 3, lit := 0xABCD1234 }),
    (0x84415A7C, 0x0, 0x0, .pfxpop { k := 2, c1 := 21, c2 := 34, t := 2 }),
    (0x8441527D, 0x190A819, 0x0, .pfxpopN64 { k := 2, c1 := 21, c2 := 34, fmt := 0x19, den := 8, xc := 2, c3 := 66, c4 := 3 }),
    (0x8441527E, 0x190A819, 0xABCD1234, .pfxpopN96 { k := 2, c1 := 21, c2 := 34, fmt := 0x19, den := 8, xc := 2, c3 := 66, c4 := 3, lit := 0xABCD1234 }),
    (0x84415E80, 0x0, 0x0, .six { k := 2, c1 := 21, c2 := 34, t := 3 }),
    (0x84415281, 0x190A819, 0x0, .sixN64 { k := 2, c1 := 21, c2 := 34, fmt := 0x19, den := 8, xc := 2, c3 := 66, c4 := 3 }),
    (0x84415282, 0x190A819, 0xABCD1234, .sixN96 { k := 2, c1 := 21, c2 := 34, fmt := 0x19, den := 8, xc := 2, c3 := 66, c4 := 3, lit := 0xABCD1234 }),
    (0x84415E84, 0x0, 0x0, .sun { k := 2, c1 := 21, c2 := 34, t := 3 }),
    (0x84415285, 0x190A819, 0x0, .sunN64 { k := 2, c1 := 21, c2 := 34, fmt := 0x19, den := 8, xc := 2, c3 := 66, c4 := 3 }),
    (0x84415286, 0x190A819, 0xABCD1234, .sunN96 { k := 2, c1 := 21, c2 := 34, fmt := 0x19, den := 8, xc := 2, c3 := 66, c4 := 3, lit := 0xABCD1234 }),
    (0x84415E88, 0x0, 0x0, .topk { k := 2, c1 := 21, c2 := 34, t := 3 }),
    (0x84415289, 0x190A819, 0x0, .topkN64 { k := 2, c1 := 21, c2 := 34, fmt := 0x19, den := 8, xc := 2, c3 := 66, c4 := 3 }),
    (0x8441528A, 0x190A819, 0xABCD1234, .topkN96 { k := 2, c1 := 21, c2 := 34, fmt := 0x19, den := 8, xc := 2, c3 := 66, c4 := 3, lit := 0xABCD1234 }),
    (0x84415E8C, 0x0, 0x0, .mm { k := 2, c1 := 21, c2 := 34, t := 3 }),
    (0x8441528D, 0x190A819, 0x0, .mmN64 { k := 2, c1 := 21, c2 := 34, fmt := 0x19, den := 8, xc := 2, c3 := 66, c4 := 3 }),
    (0x8441528E, 0x190A819, 0xABCD1234, .mmN96 { k := 2, c1 := 21, c2 := 34, fmt := 0x19, den := 8, xc := 2, c3 := 66, c4 := 3, lit := 0xABCD1234 }),
    (0x84415290, 0x0, 0x0, .mmpl { k := 2, c1 := 21, c2 := 34, t := 0 }),
    (0x84415291, 0x190A819, 0x0, .mmplN64 { k := 2, c1 := 21, c2 := 34, fmt := 0x19, den := 8, xc := 2, c3 := 66, c4 := 3 }),
    (0x84415292, 0x190A819, 0xABCD1234, .mmplN96 { k := 2, c1 := 21, c2 := 34, fmt := 0x19, den := 8, xc := 2, c3 := 66, c4 := 3, lit := 0xABCD1234 }),
    (0x00000E94, 0x0, 0x0, .acc { k := 0, c1 := 0, c2 := 0, t := 3 }),
    (0x84415295, 0x190A819, 0x0, .accN64 { k := 2, c1 := 21, c2 := 34, fmt := 0x19, den := 8, xc := 2, c3 := 66, c4 := 3 }),
    (0x84415296, 0x190A819, 0xABCD1234, .accN96 { k := 2, c1 := 21, c2 := 34, fmt := 0x19, den := 8, xc := 2, c3 := 66, c4 := 3, lit := 0xABCD1234 }),
    (0x84415E98, 0x0, 0x0, .drain { k := 2, c1 := 21, c2 := 34, t := 3 }),
    (0x84415299, 0x190A819, 0x0, .drainN64 { k := 2, c1 := 21, c2 := 34, fmt := 0x19, den := 8, xc := 2, c3 := 66, c4 := 3 }),
    (0x8441529A, 0x190A819, 0xABCD1234, .drainN96 { k := 2, c1 := 21, c2 := 34, fmt := 0x19, den := 8, xc := 2, c3 := 66, c4 := 3, lit := 0xABCD1234 }),
    (0x84415E9C, 0x0, 0x0, .cnt { k := 2, c1 := 21, c2 := 34, t := 3 }),
    (0x8441529D, 0x190A819, 0x0, .cntN64 { k := 2, c1 := 21, c2 := 34, fmt := 0x19, den := 8, xc := 2, c3 := 66, c4 := 3 }),
    (0x8441529E, 0x190A819, 0xABCD1234, .cntN96 { k := 2, c1 := 21, c2 := 34, fmt := 0x19, den := 8, xc := 2, c3 := 66, c4 := 3, lit := 0xABCD1234 }),
    (0x84415EA0, 0x0, 0x0, .agen { k := 2, c1 := 21, c2 := 34, t := 3 })] = true := by decide +kernel

theorem test_decode_nodes_4 : readAs [
    (0x844152A1, 0x190A819, 0x0, .agenN64 { k := 2, c1 := 21, c2 := 34, fmt := 0x19, den := 8, xc := 2, c3 := 66, c4 := 3 }),
    (0x844152A2, 0x190A819, 0xABCD1234, .agenN96 { k := 2, c1 := 21, c2 := 34, fmt := 0x19, den := 8, xc := 2, c3 := 66, c4 := 3, lit := 0xABCD1234 }),
    (0x84415EA4, 0x0, 0x0, .join { k := 2, c1 := 21, c2 := 34, t := 3 }),
    (0x844152A5, 0x190A819, 0x0, .joinN64 { k := 2, c1 := 21, c2 := 34, fmt := 0x19, den := 8, xc := 2, c3 := 66, c4 := 3 }),
    (0x844152A6, 0x190A819, 0xABCD1234, .joinN96 { k := 2, c1 := 21, c2 := 34, fmt := 0x19, den := 8, xc := 2, c3 := 66, c4 := 3, lit := 0xABCD1234 }),
    (0x84415EA8, 0x0, 0x0, .split { k := 2, c1 := 21, c2 := 34, t := 3 }),
    (0x844152A9, 0x190A819, 0x0, .splitN64 { k := 2, c1 := 21, c2 := 34, fmt := 0x19, den := 8, xc := 2, c3 := 66, c4 := 3 }),
    (0x844152AA, 0x190A819, 0xABCD1234, .splitN96 { k := 2, c1 := 21, c2 := 34, fmt := 0x19, den := 8, xc := 2, c3 := 66, c4 := 3, lit := 0xABCD1234 }),
    (0x84415EAC, 0x0, 0x0, .merge { k := 2, c1 := 21, c2 := 34, t := 3 }),
    (0x844152AD, 0x190A819, 0x0, .mergeN64 { k := 2, c1 := 21, c2 := 34, fmt := 0x19, den := 8, xc := 2, c3 := 66, c4 := 3 }),
    (0x844152AE, 0x190A819, 0xABCD1234, .mergeN96 { k := 2, c1 := 21, c2 := 34, fmt := 0x19, den := 8, xc := 2, c3 := 66, c4 := 3, lit := 0xABCD1234 }),
    (0x84415EB0, 0x0, 0x0, .steer { k := 2, c1 := 21, c2 := 34, t := 3 }),
    (0x844152B1, 0x190A819, 0x0, .steerN64 { k := 2, c1 := 21, c2 := 34, fmt := 0x19, den := 8, xc := 2, c3 := 66, c4 := 3 }),
    (0x844152B2, 0x190A819, 0xABCD1234, .steerN96 { k := 2, c1 := 21, c2 := 34, fmt := 0x19, den := 8, xc := 2, c3 := 66, c4 := 3, lit := 0xABCD1234 }),
    (0x84415EB4, 0x0, 0x0, .bartok { k := 2, c1 := 21, c2 := 34, t := 3 }),
    (0x844152B5, 0x190A819, 0x0, .bartokN64 { k := 2, c1 := 21, c2 := 34, fmt := 0x19, den := 8, xc := 2, c3 := 66, c4 := 3 }),
    (0x844152B6, 0x190A819, 0xABCD1234, .bartokN96 { k := 2, c1 := 21, c2 := 34, fmt := 0x19, den := 8, xc := 2, c3 := 66, c4 := 3, lit := 0xABCD1234 }),
    (0x84415EB8, 0x0, 0x0, .ldn { k := 2, c1 := 21, c2 := 34, t := 3 }),
    (0x844152B9, 0x190A819, 0x0, .ldnN64 { k := 2, c1 := 21, c2 := 34, fmt := 0x19, den := 8, xc := 2, c3 := 66, c4 := 3 }),
    (0x844152BA, 0x190A819, 0xABCD1234, .ldnN96 { k := 2, c1 := 21, c2 := 34, fmt := 0x19, den := 8, xc := 2, c3 := 66, c4 := 3, lit := 0xABCD1234 }),
    (0x84415EBC, 0x0, 0x0, .stn { k := 2, c1 := 21, c2 := 34, t := 3 }),
    (0x844152BD, 0x190A819, 0x0, .stnN64 { k := 2, c1 := 21, c2 := 34, fmt := 0x19, den := 8, xc := 2, c3 := 66, c4 := 3 }),
    (0x844152BE, 0x190A819, 0xABCD1234, .stnN96 { k := 2, c1 := 21, c2 := 34, fmt := 0x19, den := 8, xc := 2, c3 := 66, c4 := 3, lit := 0xABCD1234 }),
    (0x84415EC0, 0x0, 0x0, .atomNode { k := 2, c1 := 21, c2 := 34, t := 3 }),
    (0x844152C1, 0x190A819, 0x0, .atomNodeN64 { k := 2, c1 := 21, c2 := 34, fmt := 0x19, den := 8, xc := 2, c3 := 66, c4 := 3 }),
    (0x844152C2, 0x190A819, 0xABCD1234, .atomNodeN96 { k := 2, c1 := 21, c2 := 34, fmt := 0x19, den := 8, xc := 2, c3 := 66, c4 := 3, lit := 0xABCD1234 }),
    (0x84415EC4, 0x0, 0x0, .acqn { k := 2, c1 := 21, c2 := 34, t := 3 }),
    (0x844152C5, 0x190A819, 0x0, .acqnN64 { k := 2, c1 := 21, c2 := 34, fmt := 0x19, den := 8, xc := 2, c3 := 66, c4 := 3 }),
    (0x844152C6, 0x190A819, 0xABCD1234, .acqnN96 { k := 2, c1 := 21, c2 := 34, fmt := 0x19, den := 8, xc := 2, c3 := 66, c4 := 3, lit := 0xABCD1234 }),
    (0x844152C9, 0x190A819, 0x0, .relnN64 { k := 2, c1 := 21, c2 := 34, fmt := 0x19, den := 8, xc := 2, c3 := 66, c4 := 3 }),
    (0x844152CA, 0x190A819, 0xABCD1234, .relnN96 { k := 2, c1 := 21, c2 := 34, fmt := 0x19, den := 8, xc := 2, c3 := 66, c4 := 3, lit := 0xABCD1234 }),
    (0x84415ECC, 0x0, 0x0, .wcvt { k := 2, c1 := 21, c2 := 34, t := 3 }),
    (0x844152CD, 0x190A819, 0x0, .wcvtN64 { k := 2, c1 := 21, c2 := 34, fmt := 0x19, den := 8, xc := 2, c3 := 66, c4 := 3 }),
    (0x844152CE, 0x190A819, 0xABCD1234, .wcvtN96 { k := 2, c1 := 21, c2 := 34, fmt := 0x19, den := 8, xc := 2, c3 := 66, c4 := 3, lit := 0xABCD1234 }),
    (0x84415ED0, 0x0, 0x0, .mstore { k := 2, c1 := 21, c2 := 34, t := 3 }),
    (0x844152D1, 0x190A819, 0x0, .mstoreN64 { k := 2, c1 := 21, c2 := 34, fmt := 0x19, den := 8, xc := 2, c3 := 66, c4 := 3 }),
    (0x844152D2, 0x190A819, 0xABCD1234, .mstoreN96 { k := 2, c1 := 21, c2 := 34, fmt := 0x19, den := 8, xc := 2, c3 := 66, c4 := 3, lit := 0xABCD1234 }),
    (0x84415ED4, 0x0, 0x0, .pivdiv { k := 2, c1 := 21, c2 := 34, t := 3 }),
    (0x844152D5, 0x190A819, 0x0, .pivdivN64 { k := 2, c1 := 21, c2 := 34, fmt := 0x19, den := 8, xc := 2, c3 := 66, c4 := 3 }),
    (0x844152D6, 0x190A819, 0xABCD1234, .pivdivN96 { k := 2, c1 := 21, c2 := 34, fmt := 0x19, den := 8, xc := 2, c3 := 66, c4 := 3, lit := 0xABCD1234 })] = true := by decide +kernel

theorem test_decode_nodes_5 : readAs [
    (0x84415ED8, 0x0, 0x0, .resid { k := 2, c1 := 21, c2 := 34, t := 3 }),
    (0x844152D9, 0x190A819, 0x0, .residN64 { k := 2, c1 := 21, c2 := 34, fmt := 0x19, den := 8, xc := 2, c3 := 66, c4 := 3 }),
    (0x844152DA, 0x190A819, 0xABCD1234, .residN96 { k := 2, c1 := 21, c2 := 34, fmt := 0x19, den := 8, xc := 2, c3 := 66, c4 := 3, lit := 0xABCD1234 }),
    (0x84415EDC, 0x0, 0x0, .shuf { k := 2, c1 := 21, c2 := 34, t := 3 }),
    (0x844152DD, 0x190A819, 0x0, .shufN64 { k := 2, c1 := 21, c2 := 34, fmt := 0x19, den := 8, xc := 2, c3 := 66, c4 := 3 }),
    (0x844152DE, 0x190A819, 0xABCD1234, .shufN96 { k := 2, c1 := 21, c2 := 34, fmt := 0x19, den := 8, xc := 2, c3 := 66, c4 := 3, lit := 0xABCD1234 })] = true := by decide +kernel

theorem test_decode_fibres : readAs [
    (0x84415EE0, 0x0, 0x0, .fmerge { k := 2, c1 := 21, c2 := 34, t := 3 }),
    (0x844152E1, 0x190A819, 0x0, .fmergeN64 { k := 2, c1 := 21, c2 := 34, fmt := 0x19, den := 8, xc := 2, c3 := 66, c4 := 3 }),
    (0x844152E2, 0x190A819, 0xABCD1234, .fmergeN96 { k := 2, c1 := 21, c2 := 34, fmt := 0x19, den := 8, xc := 2, c3 := 66, c4 := 3, lit := 0xABCD1234 }),
    (0x84415EE4, 0x0, 0x0, .fins { k := 2, c1 := 21, c2 := 34, t := 3 }),
    (0x844152E5, 0x190A819, 0x0, .finsN64 { k := 2, c1 := 21, c2 := 34, fmt := 0x19, den := 8, xc := 2, c3 := 66, c4 := 3 }),
    (0x844152E6, 0x190A819, 0xABCD1234, .finsN96 { k := 2, c1 := 21, c2 := 34, fmt := 0x19, den := 8, xc := 2, c3 := 66, c4 := 3, lit := 0xABCD1234 }),
    (0x84415EE8, 0x0, 0x0, .fscan { k := 2, c1 := 21, c2 := 34, t := 3 }),
    (0x844152E9, 0x190A819, 0x0, .fscanN64 { k := 2, c1 := 21, c2 := 34, fmt := 0x19, den := 8, xc := 2, c3 := 66, c4 := 3 }),
    (0x844152EA, 0x190A819, 0xABCD1234, .fscanN96 { k := 2, c1 := 21, c2 := 34, fmt := 0x19, den := 8, xc := 2, c3 := 66, c4 := 3, lit := 0xABCD1234 }),
    (0x84415EEC, 0x0, 0x0, .fprobe { k := 2, c1 := 21, c2 := 34, t := 3 }),
    (0x844152ED, 0x190A819, 0x0, .fprobeN64 { k := 2, c1 := 21, c2 := 34, fmt := 0x19, den := 8, xc := 2, c3 := 66, c4 := 3 }),
    (0x844152EE, 0x190A819, 0xABCD1234, .fprobeN96 { k := 2, c1 := 21, c2 := 34, fmt := 0x19, den := 8, xc := 2, c3 := 66, c4 := 3, lit := 0xABCD1234 }),
    (0x84415EF0, 0x0, 0x0, .finter { k := 2, c1 := 21, c2 := 34, t := 3 }),
    (0x844152F1, 0x190A819, 0x0, .finterN64 { k := 2, c1 := 21, c2 := 34, fmt := 0x19, den := 8, xc := 2, c3 := 66, c4 := 3 }),
    (0x844152F2, 0x190A819, 0xABCD1234, .finterN96 { k := 2, c1 := 21, c2 := 34, fmt := 0x19, den := 8, xc := 2, c3 := 66, c4 := 3, lit := 0xABCD1234 }),
    (0x844152F5, 0x190A819, 0x0, .fcountN64 { k := 2, c1 := 21, c2 := 34, fmt := 0x19, den := 8, xc := 2, c3 := 66, c4 := 3 }),
    (0x844152F6, 0x190A819, 0xABCD1234, .fcountN96 { k := 2, c1 := 21, c2 := 34, fmt := 0x19, den := 8, xc := 2, c3 := 66, c4 := 3, lit := 0xABCD1234 }),
    (0x844152F9, 0x190A819, 0x0, .fclearN64 { k := 2, c1 := 21, c2 := 34, fmt := 0x19, den := 8, xc := 2, c3 := 66, c4 := 3 }),
    (0x844152FA, 0x190A819, 0xABCD1234, .fclearN96 { k := 2, c1 := 21, c2 := 34, fmt := 0x19, den := 8, xc := 2, c3 := 66, c4 := 3, lit := 0xABCD1234 }),
    (0x844152FD, 0x190A819, 0x0, .fcompactN64 { k := 2, c1 := 21, c2 := 34, fmt := 0x19, den := 8, xc := 2, c3 := 66, c4 := 3 }),
    (0x844152FE, 0x190A819, 0xABCD1234, .fcompactN96 { k := 2, c1 := 21, c2 := 34, fmt := 0x19, den := 8, xc := 2, c3 := 66, c4 := 3, lit := 0xABCD1234 }),
    (0x84415F00, 0x0, 0x0, .ftopk { k := 2, c1 := 21, c2 := 34, t := 3 }),
    (0x84415301, 0x190A819, 0x0, .ftopkN64 { k := 2, c1 := 21, c2 := 34, fmt := 0x19, den := 8, xc := 2, c3 := 66, c4 := 3 }),
    (0x84415302, 0x190A819, 0xABCD1234, .ftopkN96 { k := 2, c1 := 21, c2 := 34, fmt := 0x19, den := 8, xc := 2, c3 := 66, c4 := 3, lit := 0xABCD1234 }),
    (0x84415305, 0x190A819, 0x0, .fstatN64 { k := 2, c1 := 21, c2 := 34, fmt := 0x19, den := 8, xc := 2, c3 := 66, c4 := 3 }),
    (0x84415306, 0x190A819, 0xABCD1234, .fstatN96 { k := 2, c1 := 21, c2 := 34, fmt := 0x19, den := 8, xc := 2, c3 := 66, c4 := 3, lit := 0xABCD1234 })] = true := by decide +kernel

/-- Encodings that are refused, each by the check that fails: a reserved opcode, a form the opcode has not, a nonzero
unused field, a header word (R99, R109). -/
theorem test_decode_refuses :
    (decodeWords 0x000000E0 0 0).toOption = none ∧ (decodeWords 0x00000045 0 0).toOption = none ∧
    (decodeWords 0x00100044 0 0).toOption = none ∧ (decodeWords 3 0 0).toOption = none ∧
    (decodeWords 0x00000309 0 0).toOption = none := by decide +kernel

/-! ### Witnesses: the sequencer -/

/-- Region 1 has its turn on its lead, in context 0, whose first page of 64 KiB is mapped to the frame at 64 KiB; `m` holds the
bytes placed there. -/
def seatState (rg : Region) (m : List (Nat × Nat) := []) (pg : Nat := 0) : State :=
  { State.reset with
    agent := .seq 1 pg
    nextId := 2
    ctxs := [(0, probeCtx)]
    regions := [(1, rg)]
    mem := m.foldl (fun l e => Memory.setAll l (0x10000 + e.1) (leBytes 8 e.2)) (probeTables []) }

/-- A region on page 0 of core 0 with one sequencer. -/
def oneSeq (q : Seq) : Region :=
  { ctx := 0, st := .unarmed, place := some (0, 0), seqs := [q], know := List.replicate 12 0 }

/-- Registers g1 to g7 as listed, the others zero. -/
def regsOf (l : List W64) : Seq :=
  { g := (List.range 8).foldl (fun v i => v.set! i ((0 :: l).getD i 0)) (Vector.replicate 32 0), halted := false }

theorem able_seat {rg : Region} {q : Seq} {g : Guard} {src : List Reg} (m : List (Nat × Nat)) (pg : Nat)
    (h0 : rg.seqs[pg]? = some q) (hg : q.guardOk g = true) (hp : q.parity = 0) :
    Able (seatState rg m pg) 1 pg rg q g src :=
  ⟨⟨rfl, rfl, h0⟩, hg, fun _ _ => by simp [hp]⟩

/-- The lead of a region whose registers are `q`. -/
theorem able_one {q : Seq} {src : List Reg} (hp : q.parity = 0) (hg : q.guardOk ⟨0, false⟩ = true) :
    Able (seatState (oneSeq q)) 1 0 (oneSeq q) q ⟨0, false⟩ src := able_seat [] 0 rfl hg hp

/-- Two operands, and the boundary immediates of the two-word forms need no more. -/
theorem wit_AluResults :
    Able (seatState (oneSeq (regsOf [5, 7]))) 1 0 (oneSeq (regsOf [5, 7])) (regsOf [5, 7]) ⟨0, false⟩ [1, 2] ∧
    Able (seatState (oneSeq (regsOf [5]))) 1 0 (oneSeq (regsOf [5])) (regsOf [5]) ⟨0, false⟩ [1] :=
  ⟨able_one rfl rfl, able_one rfl rfl⟩

/-- A divisor of 1, of 0 without and with DZT, and the same as immediates. -/
theorem wit_DivideAndRemainder :
    (let q := regsOf [5, 1]
     Able (seatState (oneSeq q)) 1 0 (oneSeq q) q ⟨0, false⟩ [1, 2] ∧ q.getG 2 ≠ 0 ∧ (1 : Imm) ≠ 0) ∧
    (let q := regsOf [5, 0]
     Able (seatState (oneSeq q)) 1 0 (oneSeq q) q ⟨0, false⟩ [1, 2] ∧ q.dzt = false) ∧
    (let q := { regsOf [5, 0] with stat := 0x800 }
     Able (seatState (oneSeq q)) 1 0 (oneSeq q) q ⟨0, false⟩ [1, 2] ∧ q.inh = false ∧ q.dzt = true ∧ q.getG 2 = 0) :=
  ⟨⟨able_one rfl rfl, by decide, by decide⟩, ⟨able_one rfl rfl, by decide⟩, able_one rfl rfl, by decide, by decide, by decide⟩

/-- Fields that end at bit 63. -/
theorem wit_BitOperations :
    Able (seatState (oneSeq (regsOf [5, 64, 9]))) 1 0 (oneSeq (regsOf [5, 64, 9])) (regsOf [5, 64, 9]) ⟨0, false⟩ [1, 2, 3] ∧
    (63 : BitVec 6).toNat + (0 : BitVec 6).toNat ≤ 63 ∧ (0 : BitVec 6).toNat + (63 : BitVec 6).toNat ≤ 63 :=
  ⟨able_one rfl rfl, by decide, by decide⟩
theorem wit_CompareAndSelect :
    Able (seatState (oneSeq (regsOf [5, 7]))) 1 0 (oneSeq (regsOf [5, 7])) (regsOf [5, 7]) ⟨0, false⟩ [1, 2] := able_one rfl rfl
theorem wit_MovesAndLiterals (m : MemRef) :
    Able (seatState (oneSeq (regsOf [5, 7]))) 1 0 (oneSeq (regsOf [5, 7])) (regsOf [5, 7]) noGuard (memRegs m) := able_one rfl rfl
/-- A region; a register with bad parity and a good duplicate, none, and a bad one. -/
theorem wit_RegisterFile :
    (seatState (oneSeq (regsOf []))).rg? 1 = some (oneSeq (regsOf [])) ∧
    (∀ e ∈ ([([(1, 7)], 0), ([], 0), ([(1, 7)], 2)] : List (List (Reg × W64) × BitVec 32)),
      let q : Seq := { regsOf [5] with parity := 2, dups := e.1, dupParity := e.2 }
      Seat (seatState (oneSeq q)) 1 0 (oneSeq q) q ∧ q.guardOk ⟨0, false⟩ = true ∧ q.parity.getLsbD (1 : Reg).toNat = true ∧
      q.inh = false) ∧
    ([(1, 7)] : List (Reg × W64)).find? (fun e => e.1 = 1) = some (1, 7) ∧
    ((0 : BitVec 32).getLsbD 1 = false ∧ (2 : BitVec 32).getLsbD 1 = true) :=
  ⟨rfl, fun _ _ => ⟨⟨rfl, rfl, rfl⟩, rfl, (by decide : (2 : BitVec 32).getLsbD 1 = true), (by decide : (regsOf [5]).inh = false)⟩, by decide, by decide⟩

/-- A guard that is false: !p0. -/
theorem wit_FalseGuardSkips :
    (∃ w, encodeFields (.add ⟨0, true⟩ 1 2 3) = some (.seq w) ∧ (regsOf []).guardOk w.guard = false) ∧
    Seat (seatState (oneSeq (regsOf []))) 1 0 (oneSeq (regsOf [])) (regsOf []) := ⟨⟨_, rfl, rfl⟩, rfl, rfl, rfl⟩

/-- Targets 4 and 2 bytes into a word, the last turn of a loop and one before. -/
theorem wit_ControlTransfers :
    (let q := regsOf [4, 1]
     Able (seatState (oneSeq q)) 1 0 (oneSeq q) q ⟨0, false⟩ [1] ∧ (q.getG 1).toNat % 4 = 0 ∧ q.getG 2 - 1 = 0) ∧
    (let q := regsOf [2, 2]
     Able (seatState (oneSeq q)) 1 0 (oneSeq q) q ⟨0, false⟩ [1] ∧ (q.getG 1).toNat % 4 ≠ 0 ∧ q.inh = false ∧ q.getG 2 - 1 ≠ 0) :=
  ⟨⟨able_one rfl rfl, by decide, by decide⟩, able_one rfl rfl, by decide, by decide, by decide⟩

/-- LOOP of a register that enters at 1 and at 0, and of g0. -/
theorem wit_LoopCounts :
    let q := regsOf [1, 0]
    Able (seatState (oneSeq q)) 1 0 (oneSeq q) q ⟨0, false⟩ [1] ∧ q.getG 1 - 1 = 0 ∧
    Able (seatState (oneSeq q)) 1 0 (oneSeq q) q ⟨0, false⟩ [2] ∧ q.getG 2 = 0 ∧
    Able (seatState (oneSeq q)) 1 0 (oneSeq q) q ⟨0, false⟩ [0] :=
  ⟨able_one rfl rfl, by decide, able_one rfl rfl, by decide, able_one rfl rfl⟩

/-- INH 0, an ECAUSE that names no node and one that does, and a readable word at EPC. -/
theorem wit_TrapAndReturn :
    let q : Seq := { regsOf [] with epc := 8, ecause := 0x100 }
    Able (seatState (oneSeq q)) 1 0 (oneSeq q) q ⟨0, false⟩ [] ∧ q.inh = false ∧ (regsOf []).inh = false ∧
    bit (regsOf []).ecause 8 = false ∧ bit q.ecause 8 = true ∧
    (let v := runAt (seatState (oneSeq q)) 1 0 (oneSeq q) q 1
     xlate v.s 0 0 q.epc .fetch = .ok (.loc 0x10008 false) ∧ v.s.poisonedAt 0x10008 1 = false) ∧
    q.mgmt = false ∧ (let q : Seq := { regsOf [] with stat := 128, mgmt := true }
      Able (seatState (oneSeq q)) 1 0 (oneSeq q) q ⟨0, false⟩ [] ∧ q.mgmt = true ∧ q.inh = false) :=
  ⟨able_one rfl rfl, by decide, by decide, by decide, by decide, ⟨rfl, rfl⟩, rfl, able_one rfl rfl, rfl, by decide⟩

/-- A double trap; a failed fetch; a pending asynchronous trap. -/
theorem wit_OtherTraps :
    (let q : Seq := { regsOf [] with stat := 0x400 }
     (seatState (oneSeq q)).rg? 1 = some (oneSeq q) ∧ (oneSeq q).seqs[0]? = some q ∧ q.inh = true) ∧
    (let q := regsOf []
     let rg : Region := { oneSeq q with pendTraps := [{ cause := 5 }] }
     Seat (seatState rg) 1 0 rg q ∧ q.inh = false ∧ q.halted = false ∧ takeTrap 0 rg.pendTraps = some ({ cause := 5 }, [])) :=
  ⟨⟨rfl, rfl, by decide⟩, ⟨rfl, rfl, rfl⟩, by decide, by decide, by decide⟩

/-- A helper and a lead that halt; sleeps of limit 0 and 1; a watched sector; a sleep whose limit passes. -/
theorem wit_HaltAndSleep :
    (let q := regsOf [0, 1]
     let rg : Region := { oneSeq q with seqs := [q, q] }
     (Able (seatState rg [] 1) 1 1 rg q ⟨0, false⟩ [] ∧ q.stores = [] ∧ rg.pendTraps = []) ∧
     (Able (seatState rg) 1 0 rg q ⟨0, false⟩ [] ∧ (∀ y ∈ rg.seqs, y.stores = []) ∧ q.inh = false) ∧
     q.wp = false ∧ (q.getG 1).toNat = 0 ∧ (q.getG 2).toNat = 1 ∧
     (runAt (seatState rg) 1 0 rg q 1).target (q.getG 1) 1 .read = .ok (.loc 0x10000 false)) ∧
    (let q : Seq := { regsOf [] with sleep := some (3, 2) }
     let rg : Region := { oneSeq q with st := .running }
     (seatState rg).rg? 1 = some rg ∧ rg.seqs[0]? = some q ∧ rg.resident = true ∧ q.sleep = some (3, 2)) :=
  ⟨⟨⟨able_seat [] 1 rfl rfl rfl, rfl, rfl⟩, ⟨able_seat [] 0 rfl rfl rfl, by simp [regsOf], by decide⟩,
    by decide, by decide, by decide, rfl⟩, rfl, rfl, by decide, rfl⟩

/-- A budget with cycles left in a resident region. -/
theorem wit_BudgetAndBest :
    let q : Seq := { regsOf [1, 2] with budget := 1 }
    let rg : Region := { oneSeq q with st := .running }
    Able (seatState rg) 1 0 rg q ⟨0, false⟩ [1, 2] ∧ (seatState rg).rg? 1 = some rg ∧ rg.seqs[0]? = some q ∧
      rg.resident = true ∧ q.budget.toNat % 2 ^ 48 ≠ 0 :=
  ⟨able_seat [] 0 rfl rfl rfl, rfl, rfl, by decide, by decide⟩
theorem wit_SpecialRegisters :
    Able (seatState (oneSeq (regsOf [5]))) 1 0 (oneSeq (regsOf [5])) (regsOf [5]) ⟨0, false⟩ [1] ∧
    (63 : BitVec 6).toNat + (0 : BitVec 6).toNat ≤ 63 := ⟨able_one rfl rfl, by decide⟩

/-- An aligned and a misaligned address of SNAP, whose 40 stores meet no fault, and one in an unmapped page. -/
theorem wit_RegisterSnapshot :
    (let q := regsOf [64]
     let s := seatState (oneSeq q)
     let told := fun (i : Nat) => (List.range i).foldl (fun t j => t.cache 0 0 (64 + BitVec.ofNat 64 (8 * j)))
       (runAt s 1 0 (oneSeq q) q 1).s
     Able s 1 0 (oneSeq q) q ⟨0, false⟩ allRegs ∧ (q.getG 1).toNat % 64 = 0 ∧
     (List.range 40).all (fun i => match xlate (told i) 0 0 (64 + BitVec.ofNat 64 (8 * i)) .write with
       | .ok (.loc a u) => decide (a = 0x10040 + 8 * i) && !u && decide (s.race (oneSeq q) (sectorOf a) = none)
       | _ => false) = true ∧
     (∀ i, i < 40 → Statements.Alone s 1 (sectorOf (0x10040 + 8 * i)))) ∧
    (let q := regsOf [0x20000]
     Able (seatState (oneSeq q)) 1 0 (oneSeq q) q ⟨0, false⟩ allRegs ∧ (q.getG 1).toNat % 64 = 0 ∧
     (let v := runAt (seatState (oneSeq q)) 1 0 (oneSeq q) q 1
      ((snapFrom (q.getG 1) 0 v.snapDwords v).2.any (fun t => decide (t.cause = 3))) = true)) ∧
    (let q := regsOf [63]
     Able (seatState (oneSeq q)) 1 0 (oneSeq q) q ⟨0, false⟩ allRegs ∧ (q.getG 1).toNat % 64 ≠ 0 ∧ q.inh = false) := by
  refine ⟨⟨able_one rfl rfl, by decide, by decide +kernel, fun i _ => ?_⟩, ⟨able_one rfl rfl, by decide, by decide +kernel⟩,
    able_one rfl rfl, by decide, by decide⟩
  simp [Statements.Alone, seatState, oneSeq, regsOf]

/-- Aligned, misaligned and untranslated addresses; a store and an atomic on the mapped page; CAS and the others. -/
theorem wit_LoadResult :
    (let q := regsOf [8]
     let s := seatState (oneSeq q) [(8, 0x1122334455667788)]
     Able s 1 0 (oneSeq q) q ⟨0, false⟩ (memRegs (.base 1 0)) ∧ q.stores = [] ∧
     (let v := runAt s 1 0 (oneSeq q) q 2
      let ea := (past q 2).ea q.pc (.base 1 0)
      v.target ea 8 .read = .ok (.loc 0x10008 false) ∧
      (∃ x, v.load ea 0x10008 8 true = .ok x ∧ x.val = 0x1122334455667788))) ∧
    (let q := regsOf [7]
     Able (seatState (oneSeq q)) 1 0 (oneSeq q) q ⟨0, false⟩ (memRegs (.base 1 0)) ∧
     ((past q 2).ea q.pc (.base 1 0)).toNat % 8 ≠ 0 ∧ q.inh = false) ∧
    (let q := regsOf [65536]
     let s := seatState (oneSeq q)
     Able s 1 0 (oneSeq q) q ⟨0, false⟩ (memRegs (.base 1 0)) ∧
     (let v := runAt s 1 0 (oneSeq q) q 2
      let ea := (past q 2).ea q.pc (.base 1 0)
      ea.toNat % 8 = 0 ∧ (∃ f, xlate v.s 0 0 ea .read = .error f) ∧ q.inh = false)) :=
  ⟨⟨able_seat _ 0 rfl rfl rfl, rfl, rfl, _, rfl, by decide +kernel⟩, ⟨able_one rfl rfl, by decide, by decide⟩,
    able_one rfl rfl, by decide, ⟨_, rfl⟩, by decide⟩

/-- A buffered store that covers the loaded bytes, with a newer one beside them; no stack or row is quiesced. -/
theorem wit_LoadResult_buffered :
    (let st : PendStore := { pa := 0x10008, va := 8, bytes := leBytes 8 6, release := false, sys := false, chk := false }
     let nu : PendStore := { st with pa := 0x10010, va := 16 }
     let q : Seq := { regsOf [8] with stores := [st, nu] }
     let s := seatState (oneSeq q)
     let v := runAt s 1 0 (oneSeq q) q 2
     Able s 1 0 (oneSeq q) q ⟨0, false⟩ (memRegs (.base 1 0)) ∧ q.stores = [] ++ st :: [nu] ∧
     v.target ((past q 2).ea q.pc (.base 1 0)) 8 .read = .ok (.loc 0x10008 false) ∧
     (st.pa ≤ 0x10008 ∧ 0x10008 + 8 ≤ st.pa + st.bytes.length) ∧ (∀ y ∈ [nu], 0x10008 + 8 ≤ y.pa) ∧
     (∃ x, v.load ((past q 2).ea q.pc (.base 1 0)) 0x10008 8 true = .ok x ∧ x.val = 6)) ∧
    (∀ (rg : Region) (m : List (Nat × Nat)) (pg a : Nat), (seatState rg m pg).quiesced a = false) :=
  ⟨⟨able_seat _ 0 rfl rfl rfl, rfl, rfl, by decide, by decide, _, rfl, by decide +kernel⟩, fun _ _ _ _ => rfl⟩

theorem wit_StoreIsBuffered :
    (let q := regsOf [4088, 5]
     let s := seatState (oneSeq q)
     Able s 1 0 (oneSeq q) q ⟨0, false⟩ (2 :: memRegs (.base 1 0)) ∧ q.armed = none ∧
     (let v := runAt s 1 0 (oneSeq q) q 2
      let ea := (past q 2).ea q.pc (.base 1 0)
      v.target ea 8 .write = .ok (.loc 0x10FF8 false) ∧ (v.settled ea 8).target ea 8 .write = .ok (.loc 0x10FF8 false) ∧
      s.race (oneSeq q) (sectorOf 0x10FF8) = none ∧ (v.settled ea 8).s.race (oneSeq q) (sectorOf 0x10FF8) = none ∧
      Statements.Alone s 1 (sectorOf 0x10FF8))) ∧
    (let q := regsOf [4089, 5]
     Able (seatState (oneSeq q)) 1 0 (oneSeq q) q ⟨0, false⟩ (2 :: memRegs (.base 1 0)) ∧ q.armed = none ∧
     ((past q 2).ea q.pc (.base 1 0)).toNat % 8 ≠ 0 ∧ q.inh = false) := by
  refine ⟨⟨able_one rfl rfl, rfl, rfl, rfl, by decide +kernel, by decide +kernel, ?_⟩, able_one rfl rfl, rfl,
    by decide, by decide⟩
  simp [Statements.Alone, seatState, oneSeq, regsOf]

/-- A checked store, a release and a SNAP's last. -/
theorem wit_BufferedStorePerforms : ∀ e ∈ ([(false, false), (true, false), (false, true)] : List (Bool × Bool)),
    let st : PendStore := { pa := 0x10000, va := 0, bytes := leBytes 8 5, release := e.1, sys := false, chk := true, raw := e.2 }
    let q : Seq := { regsOf [] with stores := [st] }
    let s := seatState (oneSeq q)
    s.rg? 1 = some (oneSeq q) ∧ (oneSeq q).seqs[0]? = some q ∧ q.stores = [st] ∧ Memory.wf s.mem = true ∧
    s.readable (s.keyOf 0) (sectorOf st.pa) = true ∧ s.quiesced st.pa = false ∧ (oneSeq q).first < (s.core (oneSeq q).core).counts.length :=
  fun _ _ => ⟨rfl, rfl, rfl, (by decide +kernel : Memory.wf (probeTables []) = true),
    (by decide +kernel : (seatState (oneSeq (regsOf []))).readable ((seatState (oneSeq (regsOf []))).keyOf 0) (sectorOf 0x10000) = true),
    rfl, by simp [oneSeq, Region.first, Region.core, seatState, State.core]; decide⟩

theorem wit_AtomicResult :
    (let q := regsOf [0, 5, 9]
     let s := seatState (oneSeq q) [(0, 9)]
     Able s 1 0 (oneSeq q) q ⟨0, false⟩ [1, 2, 3] ∧ q.armed = none ∧
     (let v := (runAt s 1 0 (oneSeq q) q 2).drained
      v.target (q.getG 1) 8 .atomic = .ok (.loc 0x10000 false) ∧ v.bytes (q.getG 1) 0x10000 8 = .ok (leBytes 8 9))) ∧
    (let q := regsOf [4, 5]
     Able (seatState (oneSeq q)) 1 0 (oneSeq q) q ⟨0, false⟩ [1, 2] ∧ q.armed = none ∧ (q.getG 1).toNat % 8 ≠ 0 ∧
     q.inh = false) :=
  ⟨⟨able_seat _ 0 rfl rfl rfl, rfl, rfl, rfl⟩, able_one rfl rfl, rfl, by decide, by decide⟩

theorem wit_FenceAndTest :
    let q := regsOf [0, 1]
    let s := seatState (oneSeq q)
    Able s 1 0 (oneSeq q) q ⟨0, false⟩ [1, 2] ∧
    (runAt s 1 0 (oneSeq q) q 1).target (q.getG 1) 8 .read = .ok (.loc 0x10000 false) ∧
    (runAt s 1 0 (oneSeq q) q 2).target (q.getG 1 + (8 : Imm).signExtend 64) 8 .read = .ok (.loc 0x10008 false) ∧
    (∃ x, (runAt s 1 0 (oneSeq q) q 1).load (q.getG 1) 0x10000 8 false = .ok x) ∧
    (∃ x, (runAt s 1 0 (oneSeq q) q 2).load (q.getG 1 + (8 : Imm).signExtend 64) 0x10008 8 false = .ok x) :=
  ⟨able_one rfl rfl, rfl, rfl, ⟨_, rfl⟩, ⟨_, rfl⟩⟩

/-- The leaf of the second page names node 3 over channel 2. -/
theorem wit_RemoteAccessIsSent :
    let q := regsOf [65536, 5]
    let s : State := { seatState (oneSeq q) with
      ctxs := [(0, { probeCtx with chans := [(2, { rnode := 3, rctx := 0, rgen := 0 })] })]
      mem := Memory.setAll (probeTables []) 0x5008 (leBytes 8 (3 * 2 ^ 48 + 2 ^ 16 + 2 * 2 ^ 10 + 0x47)) }
    let v := runAt s 1 0 (oneSeq q) q 2
    let ea := (past q 2).ea q.pc (.base 1 0)
    Able s 1 0 (oneSeq q) q ⟨0, false⟩ (3 :: 2 :: memRegs (.base 1 0)) ∧ q.armed = none ∧
    v.target ea (tySize .i64) .read = .ok (.rem 3 2 false 65536 false) ∧
    v.target ea (tySize .i64) .write = .ok (.rem 3 2 false 65536 false) ∧
    v.drained.target (q.getG 1 + (0 : BitVec 24).signExtend 64) (tySize .i64) .atomic = .ok (.rem 3 2 false 65536 false) :=
  ⟨⟨⟨rfl, rfl, rfl⟩, rfl, fun _ _ => by simp [regsOf]⟩, rfl, rfl, rfl, rfl⟩

/-! ### Witnesses: the fabric -/

theorem ok_of {ε α : Type} {x : Except ε α} (h : x.toOption.isSome = true) : ∃ k, x = .ok k := by
  cases x with
  | ok k => exact ⟨k, rfl⟩
  | error e => simp [Except.toOption] at h

theorem eq_ok {ε α : Type} {x : Except ε α} {a : α} (h : x.toOption = some a) : x = .ok a := by
  cases x with
  | ok k => simpa [Except.toOption] using h
  | error e => simp [Except.toOption] at h

/-- A descriptor at 0x100, its block table at 0x140, a list of one entry at 0x180, and at 0x200 a block with INGR of port 0
feeding EGR of port 0 (R103, R105, R136, R371). -/
def cfgBytes : List (Nat × Nat) :=
  [(0x100, 0), (0x108, 0), (0x110, 0x140), (0x118, 0), (0x140, 0x200), (0x180, 1), (0x188, 0x100),
    (0x200, 0x43 + 9 * 2 ^ 32), (0x208, 0), (0x210, 0x40004A00 + 0xA04 * 2 ^ 32), (0x218, 0xFFFFFFFF * 2 ^ 32),
    (0x220, 0xFFFFFF19)]

theorem wit_ConfigurationLoads :
    (let q := regsOf [0x100, 1]
     let rg := oneSeq q
     let s := seatState rg cfgBytes
     Able s 1 0 rg q ⟨0, false⟩ [1] ∧ rg.live = false ∧ rg.lp = none ∧
     (∃ k, loadConfig (runAt s 1 0 rg q 1).rd rg.pm1 (q.getG 1) = .ok k) ∧
     loadConfig (runAt s 1 0 rg q 1).rd rg.pm1 (q.getG 2) = .error (.refuse 1 8191)) ∧
    (let q := regsOf [0x180]
     let rg : Region := { oneSeq q with lp := some (0x180, 1, 0) }
     let s := seatState rg cfgBytes
     let v := runAt s 1 0 rg q 1
     Able s 1 0 rg q ⟨0, false⟩ [1] ∧ rg.live = false ∧ v.rd 0x180 8 = .ok 1 ∧ v.rd 0x188 8 = .ok 0x100 ∧
     (∃ k, loadConfig v.rd rg.pm1 0x100 = .ok k) ∧ (0 : Nat) < 1 ∧ (1 : Nat) ≤ 4096) ∧
    (let q := regsOf []
     let rg : Region := { oneSeq q with seqs := [q, q] }
     Able (seatState rg [] 1) 1 1 rg q ⟨0, false⟩ [1]) ∧
    (let q := regsOf []
     let rg : Region := { oneSeq q with live := true }
     Able (seatState rg) 1 0 rg q ⟨0, false⟩ [1]) :=
  ⟨⟨able_seat _ 0 rfl rfl rfl, rfl, rfl, ok_of (by decide +kernel), rfl⟩,
    ⟨able_seat _ 0 rfl rfl rfl, rfl, eq_ok (by decide +kernel), eq_ok (by decide +kernel), ok_of (by decide +kernel),
      by decide, by decide⟩, able_seat [] 1 rfl rfl rfl, able_seat [] 0 rfl rfl rfl⟩

/-- A block of the given nodes, each of its words, its dune 0 and the format bytes of its slots. -/
def blockOf (l : List (List W32 × W32)) (pool : List W32 := []) : Block :=
  { amf := 0, lmtrap := false, bid := 0, clone := 0, pool := pool
    nodes := l.map (fun e => { words := e.1, dune := 0, fmts := e.2 }) }

/-- A region whose one block is installed and, if `live`, runs. -/
def withBlock (q : Seq) (b : Block) (live : Bool) (st : NodeSt := {}) : Region :=
  { oneSeq q with st := if live then .running else .armed, live := live, armedCfg := true, cfg := some ⟨[b]⟩
                  nodes := (List.range b.nodes.length).map (fun i => (i, if i = 0 then st else {})) }

/-- INGR of port 0 feeding EGR of port 0. -/
def portBlock : Block := blockOf [([0x40004A00], 0xFFFFFFFF), ([0xA04], 0xFFFFFF19)]

theorem wit_RunStarts :
    (let q := regsOf [0xFFFF]
     let rg := withBlock q portBlock false
     Able (seatState rg) 1 0 rg q ⟨0, false⟩ [1] ∧ rg.armedCfg = true ∧ rg.st = .armed ∧ rg.live = false) ∧
    (let q := regsOf [1]
     Able (seatState (oneSeq q)) 1 0 (oneSeq q) q ⟨0, false⟩ [1] ∧ (oneSeq q).st ≠ .armed) :=
  ⟨⟨able_seat [] 0 rfl rfl rfl, rfl, rfl, rfl⟩, able_one rfl rfl, by decide⟩

/-- CNT as node 0, with bounds of 0, 1, 2^32 and 2^32 + 1. -/
theorem wit_BoundTokens :
    (∀ x ∈ ([1, 2 ^ 32] : List W64),
      let q := regsOf [0, x]
      let b := blockOf [([0x40004A9D, 0x19], 0xFFFFFFFF), ([0xA04], 0xFFFFFF19)]
      let rg := withBlock q b false
      Able (seatState rg) 1 0 rg q ⟨0, false⟩ [1, 2] ∧ rg.armedCfg = true ∧
      (∃ c v, rg.allNodes.find? (fun e => e.1 = 128 * 0 + 0) = some (0, b, c, v) ∧ v.op = 0xA7) ∧
      (rg.nodes.get 0 {}).x.bounded = false ∧ 0 < (q.getG 2).toNat ∧ (q.getG 2).toNat ≤ 2 ^ 32 ∧ (q.getG 1).toNat = 0) ∧
    (∀ x ∈ ([0, 2 ^ 32 + 1] : List W64),
      let q := regsOf [0, x]
      let rg := withBlock q portBlock false
      Able (seatState rg) 1 0 rg q ⟨0, false⟩ [1, 2] ∧ rg.armedCfg = true ∧
      ((q.getG 2).toNat = 0 ∨ 2 ^ 32 < (q.getG 2).toNat)) := by
  constructor
  · intro x hx
    refine ⟨able_seat [] 0 rfl rfl rfl, rfl, ⟨_, _, rfl, rfl⟩, rfl, ?_⟩
    simp only [List.mem_cons, List.not_mem_nil, or_false] at hx
    rcases hx with rfl | rfl <;> decide
  · intro x hx
    refine ⟨able_seat [] 0 rfl rfl rfl, rfl, ?_⟩
    simp only [List.mem_cons, List.not_mem_nil, or_false] at hx
    rcases hx with rfl | rfl <;> decide

theorem wit_AccumulatorAccess :
    Able (seatState (oneSeq (regsOf []))) 1 0 (oneSeq (regsOf [])) (regsOf []) ⟨0, false⟩ [] := able_one rfl rfl

/-- A port with room, one that is full and one that no INGR reads; numbers 63 and 64; a port that holds a data token, is
empty, or is at its end. -/
theorem wit_PortAccess :
    (let q := regsOf [5, 0]
     let rg := withBlock q portBlock true
     Able (seatState rg) 1 0 rg q ⟨0, false⟩ [1, 2] ∧
     (∃ v, rg.inNode (0 : BitVec 6).toNat = some v ∧ fmtWidth v.fmt ≤ 64) ∧ (rg.inPort 0).room = true ∧
     (rg.inPort 0).ended = false ∧ (q.getG 2).toNat = (0 : BitVec 6).toNat ∧ rg.inNode (63 : BitVec 6).toNat = none ∧
     (∃ v, rg.outNode 0 = some v) ∧ (rg.outPort 0).taken = false ∧ (rg.outPort 0).q = [] ∧ (rg.outPort 0).ended = false ∧
     rg.outNode 63 = none) ∧
    (let q := regsOf [0]
     let rg : Region := { withBlock q portBlock true with vout := [(0, { q := [{ val := 7 }] })] }
     Able (seatState rg) 1 0 rg q ⟨0, false⟩ [1] ∧ (∃ v, rg.outNode 0 = some v) ∧ (rg.outPort 0).taken = false ∧
     (rg.outPort 0).q = [{ val := 7 }] ∧ (rg.outPort 0).ended = false ∧ (q.getG 1).toNat = (0 : BitVec 6).toNat) ∧
    (let q := regsOf [0]
     let rg : Region := { withBlock q portBlock true with
       vout := [(0, { q := [eosToken] })], vin := [(0, { q := List.replicate 16 {} })] }
     Able (seatState rg) 1 0 rg q ⟨0, false⟩ [1] ∧ (rg.outPort 0).q = [eosToken] ∧ eosToken.eos = true ∧
     (rg.inPort 0).room = false) ∧
    (let q := regsOf [64, 64]
     Able (seatState (oneSeq q)) 1 0 (oneSeq q) q ⟨0, false⟩ [1, 2] ∧ 64 ≤ (q.getG 1).toNat ∧ 64 ≤ (q.getG 2).toNat) :=
  ⟨⟨able_seat [] 0 rfl rfl rfl, ⟨_, rfl, by decide⟩, by decide, by decide, by decide, by decide, ⟨_, rfl⟩, by decide, by decide,
      by decide, by decide⟩,
    ⟨able_seat [] 0 rfl rfl rfl, ⟨_, rfl⟩, by decide, by decide, by decide, by decide⟩,
    ⟨able_seat [] 0 rfl rfl rfl, by decide, by decide, by decide⟩, able_one rfl rfl, by decide, by decide⟩

/-! ### Witnesses: engines, queues and barriers -/

/-- A CPY descriptor of queue 1 at 0x100, one with a reserved bit at 0x140 and one of length 0 at 0x180. -/
def cpyBytes : List (Nat × Nat) :=
  [(0x100, 0x106), (0x108, 0), (0x110, 0x400), (0x118, 0x800), (0x120, 64), (0x128, 0), (0x140, 0x1106), (0x180, 0x106),
    (0x188, 0), (0x190, 0x400), (0x198, 0x800), (0x1A0, 0), (0x1A8, 0)]

/-- A command that is accepted, one for a full queue, a reserved bit, a length of 0 and an unreadable descriptor. -/
theorem wit_EngineCommandIssue :
    (let q := regsOf [0x100]
     let s := seatState (oneSeq q) cpyBytes
     let v := runAt s 1 0 (oneSeq q) q 1
     Able s 1 0 (oneSeq q) q ⟨0, false⟩ [1] ∧ v.readDws (q.getG 1) 1 = .ok [0x106] ∧
     v.readDws (q.getG 1) 6 = .ok [0x106, 0, 0x400, 0x800, 64, 0] ∧
     descCode .cpy 1 [0x106, 0, 0x400, 0x800, 64, 0] = 0 ∧ ((oneSeq q).eq 1).entries.length < 32) ∧
    (let q := regsOf [0x100]
     let rg := (oneSeq q).setEq 1 { entries := List.replicate 32 (.sbar 1 1) }
     Able (seatState rg cpyBytes) 1 0 rg q ⟨0, false⟩ [1] ∧ 32 ≤ (rg.eq 1).entries.length) ∧
    (let q := regsOf [0x140]
     let s := seatState (oneSeq q) cpyBytes
     Able s 1 0 (oneSeq q) q ⟨0, false⟩ [1] ∧ (runAt s 1 0 (oneSeq q) q 1).readDws (q.getG 1) 1 = .ok [0x1106] ∧
     (0x1106 : W64).toNat / 4096 % 16 ≠ 0) ∧
    (let q := regsOf [0x180]
     let s := seatState (oneSeq q) cpyBytes
     Able s 1 0 (oneSeq q) q ⟨0, false⟩ [1] ∧
     (runAt s 1 0 (oneSeq q) q 1).readDws (q.getG 1) 6 = .ok [0x106, 0, 0x400, 0x800, 0, 0] ∧
     descCode .cpy 1 [0x106, 0, 0x400, 0x800, 0, 0] ≠ 0) ∧
    (let q := regsOf [65536]
     let s := seatState (oneSeq q)
     Able s 1 0 (oneSeq q) q ⟨0, false⟩ [1] ∧ (∃ t, (runAt s 1 0 (oneSeq q) q 1).readDws (q.getG 1) 1 = .error t) ∧
     q.inh = false) :=
  ⟨⟨able_seat _ 0 rfl rfl rfl, eq_ok (by decide +kernel), eq_ok (by decide +kernel), by decide, by decide⟩,
    ⟨able_seat _ 0 rfl rfl rfl, by decide⟩,
    ⟨able_seat _ 0 rfl rfl rfl, eq_ok (by decide +kernel), by decide⟩,
    ⟨able_seat _ 0 rfl rfl rfl, eq_ok (by decide +kernel), by decide⟩, able_one rfl rfl, ⟨_, rfl⟩, by decide⟩

/-- Port numbers 0, 63 and 64, queue numbers 7 and 8, an ended port. -/
theorem wit_StreamClose :
    (let q := regsOf [0, 7]
     let rg := withBlock q portBlock true
     Able (seatState rg) 1 0 rg q ⟨0, false⟩ [1] ∧ (rg.inNode (0 : BitVec 6).toNat).isSome = true ∧
     (rg.inPort 0).ended = false ∧ (q.getG 1).toNat = (0 : BitVec 6).toNat ∧ (q.getG 1).toNat < 64 ∧ (q.getG 2).toNat < 8 ∧
     rg.inNode (63 : BitVec 6).toNat = none) ∧
    (let q := regsOf [0]
     let rg : Region := { withBlock q portBlock true with vin := [(0, { ended := true })] }
     Able (seatState rg) 1 0 rg q ⟨0, false⟩ [1] ∧ (rg.inPort (0 : BitVec 6).toNat).ended = true) ∧
    (let q := regsOf [64, 8]
     Able (seatState (oneSeq q)) 1 0 (oneSeq q) q ⟨0, false⟩ [1] ∧ 64 ≤ (q.getG 1).toNat ∧ 8 ≤ (q.getG 2).toNat) :=
  ⟨⟨able_seat [] 0 rfl rfl rfl, by decide, by decide, by decide, by decide, by decide, by decide⟩,
    ⟨able_seat [] 0 rfl rfl rfl, by decide⟩, able_one rfl rfl, by decide, by decide⟩

/-- Masks 0x81 and 0, and a full queue. -/
theorem wit_QueueFencesAndStatus :
    (let q := regsOf [0x81]
     let bad := fun (rg : Region) (m : BitVec 8) => m = 0 ∨ ((List.range 8).zip rg.eqs).any (fun e =>
       m.getLsbD e.1 && decide (32 ≤ e.2.entries.length)) = true
     Able (seatState (oneSeq q)) 1 0 (oneSeq q) q ⟨0, false⟩ [1] ∧ ¬ bad (oneSeq q) ((q.getG 1).setWidth 8) ∧ bad (oneSeq q) 0 ∧
     bad ((oneSeq q).setEq 7 { entries := List.replicate 32 (.sbar 1 1) }) 0x81) :=
  ⟨able_one rfl rfl, by decide, by decide, by decide⟩

/-- Ranges of 0, 1 and 2^40 + 1 bytes; a quota that holds and one that does not; a full queue. -/
theorem wit_PlayaPlacement :
    (let q := regsOf [0, 1, 0, 2 ^ 40 + 1]
     let s : State := { seatState (oneSeq q) with ctxs := [(0, { probeCtx with pinq := 1 })] }
     let v := runAt s 1 0 (oneSeq q) q 1
     Able s 1 0 (oneSeq q) q ⟨0, false⟩ [1, 2, 3, 4] ∧ q.getG 3 = 0 ∧ q.getG 2 ≠ 0 ∧ 2 ^ 40 < (q.getG 4).toNat ∧
     v.physBlocks 0 1 = .ok [16] ∧ ((oneSeq q).eq 0).entries.length < 32 ∧
     (let m := ([16] : List Nat).foldl (fun m x => addPin m x 0) s.pins
      pinsOf m 0 ≤ ((s.ctx? 0).map (·.pinq)).getD 0 ∧ (∀ x ∈ ([16] : List Nat), pinCount (m.get x []) ≤ 255) ∧
      slicesOk m = true)) ∧
    (let q := regsOf [0, 1]
     let s := seatState (oneSeq q)
     Able s 1 0 (oneSeq q) q ⟨0, false⟩ [1, 2] ∧ (runAt s 1 0 (oneSeq q) q 1).physBlocks 0 1 = .ok [16] ∧
     ((s.ctx? 0).map (·.pinq)).getD 0 < pinsOf (addPin s.pins 16 0) 0) ∧
    (let q := regsOf [0, 1]
     let rg := (oneSeq q).setEq 0 { entries := List.replicate 32 (.sbar 1 1) }
     Able (seatState rg) 1 0 rg q ⟨0, false⟩ [1, 2] ∧ 32 ≤ (rg.eq 0).entries.length) :=
  ⟨⟨⟨⟨rfl, rfl, rfl⟩, rfl, fun _ _ => by simp [regsOf]⟩, by decide, by decide, by decide, eq_ok (by decide +kernel), by decide,
      by decide +kernel⟩,
    ⟨able_one rfl rfl, eq_ok (by decide +kernel), by decide +kernel⟩, able_seat [] 0 rfl rfl rfl, by decide⟩

/-- The dword at 0 as HOLD, and barrier objects: uninitialised, before the last arrival, at it; counts 1, 65,535 and 0;
phases passed and not. -/
theorem wit_BarrierObjects :
    (∀ x ∈ ([1, 0, 2 ^ 32, 2 ^ 33 + 1] : List Nat),
      let q := regsOf [0, 65535]
      let s := seatState (oneSeq q) [(0, x)]
      let v := (runAt s 1 0 (oneSeq q) q 1).drained
      Able s 1 0 (oneSeq q) q ⟨0, false⟩ [1, 2] ∧ v.bytes (q.getG 1) 0x10000 8 = .ok (leBytes 8 x) ∧
      v.target (q.getG 1) 8 .atomic = .ok (.loc 0x10000 false) ∧ v.target (q.getG 1) 8 .read = .ok (.loc 0x10000 false)) ∧
    (leNat (leBytes 8 1) = 1 ∧ leNat (leBytes 8 1) / 2 ^ 32 % 2 ^ 16 = 0) ∧
    (leNat (leBytes 8 (2 ^ 32)) / 2 ^ 32 % 2 ^ 16 = 1 ∧ (leNat (leBytes 8 (2 ^ 32)) / 2 ^ 48 + 1) % 2 ^ 16 = 1) ∧
    (leNat (leBytes 8 (2 ^ 33 + 1)) / 2 ^ 32 % 2 ^ 16 = 2 ∧ (leNat (leBytes 8 (2 ^ 33 + 1)) / 2 ^ 48 + 1) % 2 ^ 16 ≠ 2) ∧
    0 < (regsOf [0, 65535]).getG 2 ∧ ((regsOf [0, 65535]).getG 2).toNat ≤ 65535 ∧
    ((1 + 2 ^ 32 - 0) % 2 ^ 32 = 1 ∧ (0 + 2 ^ 32 - 0) % 2 ^ 32 = 0) := by
  refine ⟨?_, by decide⟩
  intro x hx
  refine ⟨able_seat _ 0 rfl rfl rfl, ?_⟩
  simp only [List.mem_cons, List.not_mem_nil, or_false] at hx
  rcases hx with rfl | rfl | rfl | rfl <;>
    exact ⟨eq_ok (by decide +kernel), eq_ok (by decide +kernel), eq_ok (by decide +kernel)⟩

/-- An enabled device-mode queue of the context, a disabled and a host-mode one, a consuming queue with a record; record
addresses 64 and 65. -/
theorem wit_HardwareQueues :
    (let q := regsOf [1, 64]
     let dq : Queue := { ctx := 0, desc := [0x10100], st := .enabled }
     let s : State := { seatState (oneSeq q) with queues := [(1, dq)] }
     let v := (runAt s 1 0 (oneSeq q) q 1).drained
     Able s 1 0 (oneSeq q) q ⟨0, false⟩ [1, 2] ∧ (q.getG 1).toNat % 8192 = (1 : BitVec 13).toNat ∧
     (q.getG 2).toNat % 64 = 0 ∧ v.readDws (q.getG 2) 8 = .ok [0, 0, 0, 0, 0, 0, 0, 0] ∧ v.ownQueue 1 = some dq ∧
     dq.dev = true ∧ dq.st = .enabled ∧ (∃ x, v.s.push 1 [0, 0, 0, 0, 0, 0, 0, 0] = some x) ∧
     v.target (q.getG 2) 64 .write = .ok (.loc 0x10040 false) ∧ v.s.takeRec 1 = none ∧ v.ownQueue 2 = none) ∧
    (let q := regsOf [1, 64]
     let dq : Queue := { ctx := 0, desc := [0x10140], st := .enabled, issued := 1, store := [⟨[9]⟩] }
     let s : State := { seatState (oneSeq q) with queues := [(1, dq)] }
     let v := (runAt s 1 0 (oneSeq q) q 1).drained
     Able s 1 0 (oneSeq q) q ⟨0, false⟩ [1, 2] ∧ (v.ownQueue 1).isSome = true ∧ (∃ x, v.s.takeRec 1 = some ([9], x)) ∧
     v.s.push 1 [] = none) ∧
    (let q := regsOf [1, 65]
     Able (seatState (oneSeq q)) 1 0 (oneSeq q) q ⟨0, false⟩ [1, 2] ∧ (q.getG 2).toNat % 64 ≠ 0 ∧ q.inh = false) ∧
    ({ ctx := 0, desc := [0x10100] } : Queue).st ≠ .enabled ∧ ({ ctx := 0, desc := [0] } : Queue).dev = false ∧
    (let q := regsOf [1, 65536]
     let dq : Queue := { ctx := 0, desc := [0x10140], st := .enabled, issued := 1, store := [⟨[9]⟩] }
     let s : State := { seatState (oneSeq q) with
       queues := [(1, dq)]
       ctxs := [(0, { probeCtx with chans := [(2, { rnode := 3, rctx := 0, rgen := 0 })] })]
       mem := Memory.setAll (probeTables []) 0x5008 (leBytes 8 (3 * 2 ^ 48 + 2 ^ 16 + 2 * 2 ^ 10 + 0x47)) }
     let v := (runAt s 1 0 (oneSeq q) q 1).drained
     Able s 1 0 (oneSeq q) q ⟨0, false⟩ [1, 2] ∧ (q.getG 2).toNat % 64 = 0 ∧
     v.target (q.getG 2) 64 .write = .ok (.rem 3 2 false 65536 false) ∧ (v.ownQueue 1).isSome = true ∧
     (∃ x, v.s.takeRec 1 = some ([9], x))) :=
  ⟨⟨⟨⟨rfl, rfl, rfl⟩, rfl, fun _ _ => by simp [regsOf]⟩, by decide, by decide, eq_ok (by decide +kernel), by decide +kernel,
      by decide, by decide, ⟨_, rfl⟩, eq_ok (by decide +kernel), rfl, by decide +kernel⟩,
    ⟨⟨⟨rfl, rfl, rfl⟩, rfl, fun _ _ => by simp [regsOf]⟩, by decide +kernel, ⟨_, rfl⟩, rfl⟩,
    ⟨able_one rfl rfl, by decide, by decide⟩, by decide, by decide,
    ⟨⟨rfl, rfl, rfl⟩, rfl, fun _ _ => by simp [regsOf]⟩, by decide, eq_ok (by decide +kernel), by decide +kernel, _, rfl⟩

/-! ### Witnesses: the Erg queue and tasks -/

/-- An ELOAD descriptor of one cell in bank space; the owner of a free array, one that does not own it, a full queue; EEVAL
ranges that end at 4,096 and beyond. -/
theorem wit_ErgIssue :
    (let q := regsOf [0x100, 0xFFF]
     let s : State := { seatState (oneSeq q) [(0x100, 4), (0x108, 0), (0x110, 0), (0x118, 0)] with
       cores := [(0, { erg := { st := .owned, owner := some 1 } })] }
     let v := runAt s 1 0 (oneSeq q) q 1
     Able s 1 0 (oneSeq q) q ⟨0, false⟩ [1, 2] ∧ v.s.ownsErg 1 (oneSeq q) = true ∧
     (runAt s 1 0 (oneSeq q) q 2).s.ownsErg 1 (oneSeq q) = true ∧ (oneSeq q).ergq.entries.length < 32 ∧
     v.readDws (q.getG 1) 1 = .ok [4] ∧ v.readDws (q.getG 1) 4 = .ok [4, 0, 0, 0] ∧ ergCode .eload 0 [4, 0, 0, 0] = 0 ∧
     ergCode .eload 0 [4, 0, 0, 4] ≠ 0) ∧
    (let q := regsOf [1]
     let rg : Region := { oneSeq q with ergq := { entries := List.replicate 32 { op := .esel, seq := 1, desc := [] } } }
     Able (seatState rg) 1 0 rg q ⟨0, false⟩ [1, 2] ∧ (runAt (seatState rg) 1 0 rg q 1).s.ownsErg 1 rg = false ∧
     (runAt (seatState rg) 1 0 rg q 2).s.ownsErg 1 rg = false ∧ 32 ≤ rg.ergq.entries.length) ∧
    (0xFFF + 0 + 1 ≤ 4096 ∧ 4096 < 0xFFF + 1 + 1) :=
  ⟨⟨⟨⟨rfl, rfl, rfl⟩, rfl, fun _ _ => by simp [regsOf]⟩, by decide +kernel, by decide +kernel, by decide, eq_ok (by decide +kernel),
      eq_ok (by decide +kernel), by decide, by decide⟩,
    ⟨able_seat [] 0 rfl rfl rfl, by decide +kernel, by decide +kernel, by decide⟩, by decide⟩

/-- A view of format I32 that accumulates, in flat space. -/
def sumView : View := { d0 := 0x3190000000000, ident := 0, cblk := 0, loc := .flat 0x1000 }

/-- SPAWN of a child without views, and each cause of failure; VDECL of a free and of a used number. -/
theorem wit_SpawnAndDeclare :
    (let q := regsOf [0x100, 0x1000]
     let rg : Region := { oneSeq q with task := { views := [(0, sumView)] } }
     let s : State := { seatState rg [(0x100, 0x400), (0x108, 5), (0x110, 0), (0x118, 0), (0x140, 0x3190000000000)] with
       ctxs := [(0, { probeCtx with spq := 1 })] }
     let v := runAt s 1 0 rg q 1
     Able s 1 0 rg q ⟨0, false⟩ [1, 2] ∧
     v.readDws (q.getG 1) 4 = .ok [0x400, 5, 0, 0] ∧ v.vbankBad [0x400, 5, 0, 0] = .ok false ∧
     namedViews rg.task 0 = some [] ∧ rg.task.epoch.fm = .none ∧ rg.task.epoch.children.length < 4096 ∧
     rg.task.depth < 63 ∧ v.drained.s.pendingOn 0 none < 256 ∧
     v.drained.s.pendingOn 0 (some 0) < ((v.drained.s.ctx? 0).map (·.spq)).getD 0 ∧
     (makeViews v.drained.s rg false 0 []).isSome = true ∧
     v.readDws (0x140 : W64) 4 = .ok [0x3190000000000, 0, 0, 0] ∧ viewDescBad [0x3190000000000, 0, 0, 0] = false ∧
     v.vdeclDesc [0x3190000000000, 0, 0, 0] (q.getG 2) = false ∧ rg.task.epoch.children = [] ∧
     (rg.task.views.find 0).isSome = true ∧ (rg.task.views.find 1).isSome = false ∧ v.s.entriesOf 0 < 1024) ∧
    (let q := regsOf [0x100]
     let rg := oneSeq q
     let s := seatState rg [(0x100, 0x400), (0x108, 5), (0x110, 2 ^ 24), (0x118, 0), (0x120, 0), (0x128, 0), (0x130, 0)]
     Able s 1 0 rg q ⟨0, false⟩ [1] ∧
     (runAt s 1 0 rg q 1).readDws (q.getG 1) 4 = .ok [0x400, 5, 2 ^ 24, 0] ∧ (2 ^ 24 : W64).toNat / 2 ^ 24 % 2 ^ 24 ≠ 0 ∧
     namedViews rg.task 1 = none ∧ viewDescBad [1, 0, 0, 0] = true ∧
     ((s.ctx? 0).map (·.spq)).getD 0 ≤ s.pendingOn 0 (some 0)) ∧
    (let c : Child := { tid := 1, kdesc := 0, arg := 0, core := 0 }
     let q := regsOf [0x100]
     let rg : Region := { oneSeq q with task := { depth := 63, epoch := { children := List.replicate 256 c, fm := .running } } }
     Able (seatState rg) 1 0 rg q ⟨0, false⟩ [1] ∧ rg.task.epoch.fm ≠ .none ∧ 63 ≤ rg.task.depth ∧
     256 ≤ (seatState rg).pendingOn 0 none ∧ rg.task.epoch.children ≠ []) :=
  ⟨⟨⟨⟨rfl, rfl, rfl⟩, rfl, fun _ _ => by simp [regsOf]⟩, eq_ok (by decide +kernel), eq_ok (by decide +kernel), by decide +kernel, by decide,
      by decide, by decide, by decide +kernel, by decide +kernel, by decide +kernel, eq_ok (by decide +kernel), by decide,
      by decide +kernel, by decide, by decide, by decide, by decide +kernel⟩,
    ⟨able_seat _ 0 rfl rfl rfl, eq_ok (by decide +kernel), by decide, by decide +kernel, by decide, by decide +kernel⟩,
    able_seat [] 0 rfl rfl rfl, by decide, by decide, by decide +kernel, by decide⟩

/-- A child of each state that a clause asks for, an empty epoch, and a merge that has faulted. -/
theorem wit_TaskControl :
    (let q := regsOf []
     Able (seatState (oneSeq q)) 1 0 (oneSeq q) q ⟨0, false⟩ [1] ∧ (oneSeq q).task.epoch.children = [] ∧
     (oneSeq q).task.epoch.fm = .none ∧ (runAt (seatState (oneSeq q)) 1 0 (oneSeq q) q 1).drained.s.faultedMerge 0 0 = none) ∧
    (let q := regsOf [1]
     let c : Child := { tid := 1, kdesc := 0, arg := 0, core := 0 }
     let rg : Region := { oneSeq q with task := { epoch := { children := [c, { c with st := .taken }] } } }
     Able (seatState rg) 1 0 rg q ⟨0, false⟩ [1] ∧ rg.task.epoch.children[(q.getG 1).toNat]? = some { c with st := .taken } ∧
     q.remotes = [] ∧ rg.task.epoch.children[0]? = some c ∧ c.st = .pending ∧
     (∀ j x, 0 < j → rg.task.epoch.children[j]? = some x → x.st ≠ .pending)) ∧
    (let q : Seq := { regsOf [0] with remotes := [7] }
     let c : Child := { tid := 1, kdesc := 0, arg := 0, core := 0, st := .taken }
     let rg : Region := { oneSeq q with task := { epoch := { children := [c] } } }
     Able (seatState rg) 1 0 rg q ⟨0, false⟩ [1] ∧ rg.task.epoch.children[(q.getG 1).toNat]? = some c ∧ q.remotes ≠ [] ∧
     (∃ x ∈ rg.task.epoch.children, x.st ≠ .merged ∧ x.st ≠ .discarded)) ∧
    (let q := regsOf [0]
     let c : Child := { tid := 1, kdesc := 0, arg := 0, core := 0, st := .merged }
     let rg : Region := { oneSeq q with task := { epoch := { children := [c], merge := some { src := none, v := 0, faulted := true } } } }
     let s := (runAt (seatState rg) 1 0 rg q 1).drained.s
     Able (seatState rg) 1 0 rg q ⟨0, false⟩ [1] ∧ (∀ x ∈ rg.task.epoch.children, x.st = .merged ∨ x.st = .discarded) ∧
     (s.faultedMerge 0 (w64 (rg.mergeTid { src := none, v := 0, faulted := true }))).isSome = true) :=
  ⟨⟨able_one rfl rfl, rfl, rfl, by decide +kernel⟩,
    ⟨able_seat [] 0 rfl rfl rfl, by decide, by decide, by decide, by decide, by
      intro j x hj hx
      rcases j with _ | _ | j
      · omega
      · simp only [List.getElem?_cons_succ, List.getElem?_cons_zero, Option.some.injEq] at hx
        subst hx; decide
      · simp at hx⟩,
    ⟨able_seat [] 0 rfl rfl rfl, by decide, by decide, by decide⟩, able_seat [] 0 rfl rfl rfl, by decide, by decide +kernel⟩

/-- Fields 9, 11, 12 and 31; children 0 and 1 of an epoch of one. -/
theorem wit_TaskInformation :
    let q := regsOf [0, 11]
    let c : Child := { tid := 1, kdesc := 0, arg := 0, core := 0 }
    let r : Child := { c with st := .running, rid := some 1 }
    let rg : Region := { oneSeq q with task := { epoch := { children := [c, r] } } }
    Able (seatState rg) 1 0 rg q ⟨0, false⟩ [1, 2] ∧ (q.getG 2).toNat % 32 = 11 ∧
    rg.task.epoch.children[(q.getG 1).toNat]? = some c ∧ c.st ≠ .running ∧ r.st = .running ∧ r.rid = some 1 ∧
    (∃ y, (runAt (seatState rg) 1 0 rg q 1).s.rg? 1 = some y) ∧ rg.task.epoch.children.length ≤ 2 :=
  ⟨able_seat [] 0 rfl rfl rfl, by decide, by decide, by decide, rfl, rfl, ⟨_, rfl⟩, by decide⟩

/-! ### Witnesses: nodes -/

/-- A node of the given words and slot formats that feeds slot a of an EGR, at work as node 0 of block 0 of region 1. -/
def rigOf (ws : List W32) (fm : W32) (st : NodeSt) (pool : List W32 := []) (f : Region → Region := id) : Nd :=
  let b := blockOf [(ws, fm), ([0xA04], 0xFFFFFF19)] pool
  let rg := f (withBlock (regsOf []) b true st)
  let c : NodeCfg := { words := ws, dune := 0, fmts := fm }
  { r := 1, b := 0, n := 0, blk := b, cfg := c, v := c.view, rg := rg
    s := { seatState rg with agent := .node 1 0 0 } }

/-- Region changes that keep the installed blocks leave the rig a seat. -/
theorem rig_seat (ws : List W32) (fm : W32) (st : NodeSt) (pool : List W32) (f : Region → Region)
    (h : ∀ x, (f x).cfg = x.cfg) :
    NodeSeat (rigOf ws fm st pool f).s 1 0 0 (rigOf ws fm st pool f).v (rigOf ws fm st pool f) :=
  ⟨rfl, (rigOf ws fm st pool f).rg, _, _, rfl, by simp only [rigOf, Region.nodeCfg, h]; rfl, rfl⟩

/-- The node in form N32 with one consumer, and in form N96 with a literal. -/
def w32Of (op t : Nat) : List W32 := [.ofNat 32 (0x40004000 + 1024 * t + 4 * op)]
def w96Of (op fmt lit : Nat) : List W32 := [.ofNat 32 (0x40004002 + 4 * op), .ofNat 32 fmt, .ofNat 32 lit]
/-- Tokens of the values listed, in one slot. -/
def slotOf (l : List W64) : Slot := { q := l.map (fun x => { val := x }) }

/-- ADD of two I32 tokens; tokens with a bubble, poison and the invalid flag; a float, a comparison, a conversion, a selection and
a join, each with its tokens. -/
theorem wit_ElementNodes :
    (let d := rigOf (w32Of 0x83 2) 0xFFFF1919 { a := slotOf [5], b := slotOf [7] }
     NodeSeat d.s 1 0 0 d.v d ∧ Fires d d.req [{ val := 5 }, { val := 7 }] ∧
     Forms.here ⟨0x83, .addNode, .addNodeN64, .addNodeN96⟩ (.addNode ⟨1, 4, 0, 2⟩) d.v) ∧
    (∀ t ∈ ([{ bub := true }, { psn := true }, { inv := true }] : List Token),
      let d := rigOf (w32Of 0x83 2) 0xFFFF1919 { a := { q := [t] }, b := slotOf [7] }
      Fires d d.req [t, { val := 7 }]) ∧
    (let d := rigOf (w32Of 0x90 0) 0xFFFF1919 { a := slotOf [5], b := slotOf [7] }
     Fires d d.req [{ val := 5 }, { val := 7 }] ∧
     Forms.here ⟨0x90, .cmpNode, .cmpNodeN64, .cmpNodeN96⟩ (.cmpNode ⟨1, 4, 0, 0⟩) d.v) ∧
    (let d := rigOf (w32Of 0x91 2) 0xFF191901 { a := slotOf [1], b := slotOf [7], c := slotOf [9] }
     Fires d d.req [{ val := 1 }, { val := 7 }, { val := 9 }] ∧
     Forms.here ⟨0x91, .selNode, .selNodeN64, .selNodeN96⟩ (.selNode ⟨1, 4, 0, 2⟩) d.v) ∧
    (let d := rigOf (w32Of 0x92 2) 0xFFFFFF18 { a := slotOf [0x3F800000] }
     Fires d d.req [{ val := 0x3F800000 }] ∧ Forms.here ⟨0x92, .cvt, .cvtN64, .cvtN96⟩ (.cvt ⟨1, 4, 0, 2⟩) d.v) ∧
    (let d := rigOf (w32Of 0x93 3) 0xFFFF1818 { a := slotOf [0x3F800000], b := slotOf [0] }
     Fires d d.req [{ val := 0x3F800000 }, { val := 0 }] ∧
     Forms.here ⟨0x93, .fadd, .faddN64, .faddN96⟩ (.fadd ⟨1, 4, 0, 3⟩) d.v) ∧
    (let d := rigOf (w32Of 0x98 0) 0xFFFF1818 { a := slotOf [0x3F800000], b := slotOf [0] }
     Fires d d.req [{ val := 0x3F800000 }, { val := 0 }] ∧
     Forms.here ⟨0x98, .fcmp, .fcmpN64, .fcmpN96⟩ (.fcmp ⟨1, 4, 0, 0⟩) d.v) ∧
    (let d := rigOf (w32Of 0x99 3) 0xFFFFFF18 { a := slotOf [0x40000000] }
     Fires d d.req [{ val := 0x40000000 }] ∧ Forms.here ⟨0x99, .frcp, .frcpN64, .frcpN96⟩ (.frcp ⟨1, 4, 0, 3⟩) d.v) ∧
    (let d := rigOf (w32Of 0xA9 2) 0xFFFF1919 { a := slotOf [5], b := slotOf [7] }
     Fires d d.req [{ val := 5 }, { val := 7 }] ∧ Forms.here ⟨0xA9, .join, .joinN64, .joinN96⟩ (.join ⟨1, 4, 0, 2⟩) d.v) := by
  refine ⟨⟨rig_seat _ _ _ _ _ (fun _ => rfl), ⟨⟨rfl, rfl⟩, by decide +kernel, by decide +kernel⟩, .inl ⟨_, rfl, rfl⟩⟩, ?_,
    ⟨⟨⟨rfl, rfl⟩, by decide +kernel, by decide +kernel⟩, .inl ⟨_, rfl, rfl⟩⟩,
    ⟨⟨⟨rfl, rfl⟩, by decide +kernel, by decide +kernel⟩, .inl ⟨_, rfl, rfl⟩⟩,
    ⟨⟨⟨rfl, rfl⟩, by decide +kernel, by decide +kernel⟩, .inl ⟨_, rfl, rfl⟩⟩,
    ⟨⟨⟨rfl, rfl⟩, by decide +kernel, by decide +kernel⟩, .inl ⟨_, rfl, rfl⟩⟩,
    ⟨⟨⟨rfl, rfl⟩, by decide +kernel, by decide +kernel⟩, .inl ⟨_, rfl, rfl⟩⟩,
    ⟨⟨⟨rfl, rfl⟩, by decide +kernel, by decide +kernel⟩, .inl ⟨_, rfl, rfl⟩⟩,
    ⟨⟨⟨rfl, rfl⟩, by decide +kernel, by decide +kernel⟩, .inl ⟨_, rfl, rfl⟩⟩⟩
  intro t ht
  simp only [List.mem_cons, List.not_mem_nil, or_false] at ht
  rcases ht with rfl | rfl | rfl <;> exact ⟨⟨rfl, rfl⟩, by decide +kernel, by decide +kernel⟩

/-- ADD of two tokens in a block that does not trap on surplus tokens; MAD, a float of one operand and a join in their forms. -/
theorem wit_ElementNodesComplete :
    (let d := rigOf (w32Of 0x83 2) 0xFFFF1919 { a := slotOf [5], b := slotOf [7] }
     NodeSeat d.s 1 0 0 d.v d ∧ Fires d d.req [{ val := 5 }, { val := 7 }] ∧ d.blk.lmtrap = false ∧
     Statements.ElementForm (.addNode ⟨1, 4, 0, 2⟩) d.v) ∧
    (let d := rigOf (w32Of 0x86 2) 0xFF191919 { a := slotOf [5], b := slotOf [7], c := slotOf [9] }
     NodeSeat d.s 1 0 0 d.v d ∧ Fires d d.req [{ val := 5 }, { val := 7 }, { val := 9 }] ∧ d.blk.lmtrap = false ∧
     Statements.ElementForm (.mad ⟨1, 4, 0, 2⟩) d.v) ∧
    (let d := rigOf (w32Of 0xA9 2) 0xFFFF1919 { a := slotOf [5], b := slotOf [7] }
     NodeSeat d.s 1 0 0 d.v d ∧ Fires d d.req [{ val := 5 }, { val := 7 }] ∧ d.blk.lmtrap = false ∧
     Statements.ElementForm (.join ⟨1, 4, 0, 2⟩) d.v) := by
  refine ⟨⟨rig_seat _ _ _ _ _ (fun _ => rfl), ⟨⟨rfl, rfl⟩, by decide +kernel, by decide +kernel⟩, rfl,
      ⟨0x83, .addNode, .addNodeN64, .addNodeN96⟩, by simp, .inl ⟨_, rfl, rfl⟩⟩,
    ⟨rig_seat _ _ _ _ _ (fun _ => rfl), ⟨⟨rfl, rfl⟩, by decide +kernel, by decide +kernel⟩, rfl,
      ⟨0x86, .mad, .madN64, .madN96⟩, by simp, .inl ⟨_, rfl, rfl⟩⟩,
    ⟨rig_seat _ _ _ _ _ (fun _ => rfl), ⟨⟨rfl, rfl⟩, by decide +kernel, by decide +kernel⟩, rfl,
      ⟨0xA9, .join, .joinN64, .joinN96⟩, by simp, .inl ⟨_, rfl, rfl⟩⟩⟩

/-- Ports with a token, an end and none; a constant; a counter of each mode at its last step and its last iteration; an address
record whose limit is met and not met; groups of one and of two; a steer that holds and one that does not; a barrier. -/
theorem wit_ControlNodes :
    (let d := rigOf (w32Of 0x80 2) 0xFFFFFFFF {} [] (fun rg => { rg with vin := [(0, { q := [{ val := 5 }] })] })
     NodeSeat d.s 1 0 0 d.v d ∧ Forms.here ⟨0x80, .ingr, .ingrN64, .ingrN96⟩ (.ingr ⟨1, 4, 0, 2⟩) d.v ∧ d.st.ended = false ∧
     d.st.stopped = none ∧ d.room = true ∧ (d.rg.inPort (d.v.bits 0 6)).q = [{ val := 5 }]) ∧
    (let d := rigOf (w32Of 0x80 2) 0xFFFFFFFF {} [] (fun rg => { rg with vin := [(0, { q := [eosToken] })] })
     d.room = true ∧ (d.rg.inPort (d.v.bits 0 6)).q = [eosToken]) ∧
    (∀ t ∈ ([{ val := 5 }, { bub := true }] : List Token),
      let d := rigOf [0xA04] 0xFFFFFF19 { a := { q := [t] } }
      NodeSeat d.s 1 0 0 d.v d ∧ Forms.here ⟨0x81, .egr, .egrN64, .egrN96⟩ (.egr ⟨0, 0, 0, 2⟩) d.v ∧
      (d.rg.outPort (d.v.bits 0 6)).room = true ∧ (d.head 0).tok? = some t) ∧
    (let d := rigOf [0xA04] 0xFFFFFF19 { a := { q := [eosToken] } }
     (d.head 0).isEnded = true) ∧
    (let d := rigOf (w96Of 0x82 0x19 7) 0xFFFFFFFF {}
     NodeSeat d.s 1 0 0 d.v d ∧ Forms.here ⟨0x82, .cst, .cstN64, .cstN96⟩ (.cstN96 ⟨1, 4, 0, 0x19, 0, 0, 0, 0, 7⟩) d.v) ∧
    (let d := rigOf (w96Of 0xA7 0x19 (2 ^ 18 + 1)) 0xFFFFFF19 { a := slotOf [5], x := .cnt 1 2 none 0 }
     NodeSeat d.s 1 0 0 d.v d ∧ d.room = true ∧ d.v.flag 18 = true ∧ (d.head 0).tok? = some { val := 5 }) ∧
    (∀ it ∈ ([0, 1] : List Nat),
      let d := rigOf (w96Of 0xA7 0x19 1) 0xFFFFFFFF { x := .cnt 0 2 (some 1) it }
      d.room = true ∧ d.v.flag 18 = false ∧ d.v.flag 19 = false ∧ d.st.x = .cnt 0 2 (some 1) it ∧
      (it = 0 → it < iterCount d.rg.trips) ∧ (it = 1 → iterCount d.rg.trips ≤ it)) ∧
    (let d := rigOf (w96Of 0xA7 0x19 (2 ^ 19)) 0xFFFFFFFF {}
     d.room = true ∧ d.v.flag 18 = false ∧ d.v.flag 19 = true ∧ 0 < iterCount d.rg.trips ∧ d.st.x = .none) ∧
    (let d := rigOf (w32Of 0xA8 2) 0xFFFFFFFF { x := .agen 1 none 0 } [1, 0, 0, 0, 0, 0, 1, 0]
     NodeSeat d.s 1 0 0 d.v d ∧ d.room = true ∧ 0 < iterCount d.rg.trips ∧
     agenVal (agenRec d.blk d.v) d.rg.trips 0 (fmtWidth d.v.fmt) = 1) ∧
    (let d := rigOf (w32Of 0xA8 2) 0xFFFFFFFF { x := .agen 2 none 0 } [1, 0, 0, 0, 0, 0, 2, 0]
     agenVal (agenRec d.blk d.v) d.rg.trips 0 (fmtWidth d.v.fmt) < 2) ∧
    (∀ c ∈ ([0, 1] : List Nat),
      let d := rigOf (w96Of 0xAA 0x19 1) 0xFFFFFF19 { a := slotOf [5], x := .group 0 c }
      NodeSeat d.s 1 0 0 d.v d ∧ Fires d d.req [{ val := 5 }] ∧ d.group = (0, c)) ∧
    (let d := rigOf (w96Of 0xAB 0x19 0) 0xFFFF1919 { a := slotOf [5], b := slotOf [6], x := .group 1 0 }
     NodeSeat d.s 1 0 0 d.v d ∧ d.room = true ∧ d.v.flag 6 = false ∧ (d.head 1).tok? = some { val := 6 }) ∧
    (let d := rigOf (w96Of 0xAB 0x19 65) 0xFFFF1919 { a := slotOf [5, 6], b := slotOf [7], x := .group 0 0 }
     d.room = true ∧ d.v.flag 6 = true ∧ 0 ∈ d.req ∧ d.holdsGroup 2 0 = true ∧ (d.head 0).tok? = some { val := 5 }) ∧
    (∀ c ∈ ([0, 1] : List W64), ∀ f ∈ ([0, 16] : List Nat),
      let d := rigOf (w96Of 0xAC 0x19 f) 0xFFFF0119 { a := slotOf [5], b := slotOf [c] }
      Fires d d.req [{ val := 5 }, { val := c }] ∧ d.v.bits 0 4 = 0 ∧ d.v.flag 4 = decide (f = 16)) ∧
    (let d := rigOf (w96Of 0xAD 0x19 3) 0xFFFFFF19 { a := slotOf [5], x := .bartok true 0 } [] (fun rg =>
       { rg with bars := [{ bid := 3, go := [(0, 0)] }] })
     NodeSeat d.s 1 0 0 d.v d ∧ (d.head 0).tok? = some { val := 5 } ∧ d.st.x = .bartok true 0 ∧ d.room = true ∧
     (∃ u ∈ d.rg.bars, u.bid = d.v.bits 0 8 ∧ (0, 0) ∈ u.go)) ∧
    (let d := rigOf (w96Of 0xAD 0x19 3) 0xFFFFFF19 { a := slotOf [5] } [] (fun rg => { rg with bars := [{ bid := 3 }] })
     (d.head 0).tok? = some { val := 5 } ∧ d.st.x = .none) := by
  refine ⟨⟨rig_seat _ _ _ _ _ (fun _ => rfl), .inl ⟨_, rfl, rfl⟩, by decide +kernel⟩, by decide +kernel, ?_, by decide +kernel,
    ⟨rig_seat _ _ _ _ _ (fun _ => rfl), .inr (.inr ⟨_, rfl, rfl⟩)⟩, ⟨rig_seat _ _ _ _ _ (fun _ => rfl), by decide +kernel⟩, ?_,
    by decide +kernel, ⟨rig_seat _ _ _ _ _ (fun _ => rfl), by decide +kernel⟩, by decide +kernel, ?_,
    ⟨rig_seat _ _ _ _ _ (fun _ => rfl), by decide +kernel⟩, by decide +kernel, ?_,
    ⟨rig_seat _ _ _ _ _ (fun _ => rfl), by decide +kernel⟩, by decide +kernel⟩
  · intro t ht
    simp only [List.mem_cons, List.not_mem_nil, or_false] at ht
    rcases ht with rfl | rfl <;>
      exact ⟨rig_seat _ _ _ _ _ (fun _ => rfl), .inl ⟨_, rfl, rfl⟩, by decide +kernel⟩
  · decide +kernel
  · intro c hc
    simp only [List.mem_cons, List.not_mem_nil, or_false] at hc
    rcases hc with rfl | rfl <;>
      exact ⟨rig_seat _ _ _ _ _ (fun _ => rfl), ⟨⟨rfl, rfl⟩, by decide +kernel, by decide +kernel⟩, by decide +kernel⟩
  · intro c hc f hf
    simp only [List.mem_cons, List.not_mem_nil, or_false] at hc hf
    rcases hc with rfl | rfl <;> rcases hf with rfl | rfl <;>
      exact ⟨⟨⟨rfl, rfl⟩, by decide +kernel, by decide +kernel⟩, by decide +kernel⟩

/-- A T3 byte at 242 and at 243; bitmaps; keys that differ either way and that are equal; a ranked token inside a segment and at its
end; a group that fills. -/
theorem wit_StreamNodes :
    (∀ x ∈ ([242, 243] : List W64),
      let d := rigOf (w32Of 0x9D 0) 0xFFFFFF07 { a := slotOf [x] }
      NodeSeat d.s 1 0 0 d.v d ∧ Fires d d.req [{ val := x }] ∧ d.room = true ∧
      Forms.here ⟨0x9D, .unpk3, .unpk3N64, .unpk3N96⟩ (.unpk3 ⟨1, 4, 0, 0⟩) d.v) ∧
    (let d := rigOf [0x40004279, 0x1A] 0xFFFF1A1A { a := slotOf [5], b := slotOf [3] }
     NodeSeat d.s 1 0 0 d.v d ∧ Fires d d.req [{ val := 5 }, { val := 3 }] ∧ d.room = true) ∧
    (let d := rigOf (w32Of 0x9F 2) 0xFFFF1A1A { a := slotOf [5], b := slotOf [3], x := .pfx 0 false }
     Fires d d.req [{ val := 5 }, { val := 3 }] ∧ d.room = true ∧ prefixOffsets 0 5 3 ≠ [] ∧ prefixOffsets 0 5 0 = []) ∧
    ([5, 6, 7] : List W64).all (fun y =>
      let d := rigOf (w32Of 0xA0 2) 0xFFFF1919 { a := slotOf [6], b := slotOf [y] }
      decide ((d.head 0).tok? = some { val := 6 }) && decide ((d.head 1).tok? = some { val := y }) && d.sx.ea.isNone &&
      d.sx.eb.isNone && match d.sxHead d.sx 0 { val := 6 }, d.sxHead d.sx 1 { val := y } with
        | .key k, .key l => decide (k < l) == decide (y = 7) && decide (l < k) == decide (y = 5)
        | _, _ => false) = true ∧
    ([0, 1] : List (BitVec 4)).all (fun mk =>
      let d := rigOf (w96Of 0xA2 0x19 0x100) 0xFFFFFF19 { a := { q := [{ val := 5, mks := mk }] } }
      decide ((d.head 0).tok? = some { val := 5, mks := mk }) && decide (d.topSet = ([], 0)) && d.room &&
      decide (mk &&& BitVec.ofNat 4 (d.v.bits 8 4) = 0) == decide (mk = 0) && !topNaN d.v.fmt { val := 5 }) = true ∧
    ([[], [{ val := 4 }]] : List (List Token)).all (fun l =>
      let d := rigOf (w96Of 0xB7 0x19 8) 0xFFFFFF19 { a := slotOf [5], x := .shuf l }
      decide ((d.head 0).tok? = some { val := 5 }) && decide (d.st.x = .shuf l) && 2 ^ d.v.bits 3 3 == 2) = true := by
  refine ⟨?_, ⟨rig_seat _ _ _ _ _ (fun _ => rfl), ⟨⟨rfl, rfl⟩, by decide +kernel, by decide +kernel⟩, by decide +kernel⟩,
    ⟨⟨⟨rfl, rfl⟩, by decide +kernel, by decide +kernel⟩, by decide +kernel⟩, by decide +kernel, by decide +kernel, by decide +kernel⟩
  intro x hx
  simp only [List.mem_cons, List.not_mem_nil, or_false] at hx
  rcases hx with rfl | rfl <;> exact ⟨rig_seat _ _ _ _ _ (fun _ => rfl),
    ⟨⟨rfl, rfl⟩, by decide +kernel, by decide +kernel⟩, by decide +kernel, .inl ⟨_, rfl, rfl⟩⟩

/-- An MM whose tile opens; one whose step is not the last, is the 128th, or ends the tile; ACC of a token and of a bubble;
DRAIN in its four ways; a pivot that is held, taken, small, or refused by the expired budget; a segment's inner token and its
last. -/
theorem wit_MatrixNodes :
    (let d := rigOf (w96Of 0xA3 0x01 0x10) 0xFF1A1A1A { a := { q := [{ mks := 1 }] }, b := { q := [{ mks := 1 }] }, c := slotOf [0] } []
       (fun rg => { rg with tslots := [(0, { entry := 0x10000000000, full := true }), (1, { entry := 0x20010000000040, full := true })] })
     NodeSeat d.s 1 0 0 d.v d ∧ Forms.here ⟨0xA3, .mm, .mmN64, .mmN96⟩ (.mmN96 ⟨1, 4, 0, 1, 0, 0, 0, 0, 0x10⟩) d.v ∧
     (d.rg.tslot 0 (d.v.bits 0 4)).any (·.full) = true ∧ (d.rg.tslot 0 (d.v.bits 4 4)).any (·.full) = true ∧
     (d.head 2).tok? = some { val := 0 } ∧ d.mmx.opened = false ∧ d.ag.tag = .empty ∧ d.room = true ∧
     idxSet (d.v.bits 12 2) (d.slot 0).q = some ([{ mks := 1 }], false) ∧
     idxSet (d.v.bits 14 2) (d.slot 1).q = some ([{ mks := 1 }], false)) ∧
    ([(0, 0), (127, 0), (0, 1)] : List (Nat × BitVec 4)).all (fun e =>
      let d := rigOf (w96Of 0xA3 0x01 0x10) 0xFF1A1A1A
        { c := { q := [{ mks := e.2 }] }, x := .mm [(0, false)] [(0, false)] true (List.replicate e.1 (0, false)) 0 } []
        (fun rg => { rg with
          tslots := [(0, { entry := 0x10000000000, full := true }), (1, { entry := 0x20010000000040, full := true })]
          ags := [(0, { tag := .active, m := 1, n := 1 })] })
      d.room && d.mmx.opened && decide (d.ag.tag = .active) && decide ((d.head 2).tok? = some { mks := e.2 }) &&
      decide (d.mmx.steps.length = e.1)) = true ∧
    (∀ t ∈ ([{ val := 5 }, { bub := true }] : List Token),
      let d := rigOf (w32Of 0xA5 2) 0xFFFFFF19 { a := { q := [t] } }
      NodeSeat d.s 1 0 0 d.v d ∧ Fires d d.req [t] ∧ d.room = true) ∧
    (let d := rigOf (w96Of 0xA6 0x19 1) 0xFFFFFF01 { x := .drain (some { val := 1 }) 0 } []
       (fun rg => { rg with ags := [(0, { tag := .full, m := 1, n := 1 })] })
     NodeSeat d.s 1 0 0 d.v d ∧ d.room = true ∧ d.v.flag 8 = false ∧ d.st.x = .drain (some { val := 1 }) 0 ∧
     0 < d.dGroup.m * d.dGroup.n) ∧
    (let d := rigOf (w96Of 0xA6 0x19 1) 0xFFFFFF01 { a := slotOf [1] } []
       (fun rg => { rg with ags := [(0, { tag := .full, m := 1, n := 1 })] })
     Fires d d.req [{ val := 1 }] ∧ d.room = true ∧ d.v.flag 0 = true ∧ d.dGroup.tag = .full ∧ (∀ y k, d.st.x ≠ .drain (some y) k)) ∧
    (let d := rigOf (w96Of 0xA6 0x19 0) 0xFFFFFF01 { a := slotOf [1] }
     Fires d d.req [{ val := 1 }] ∧ d.v.flag 0 = false ∧ d.v.flag 8 = false) ∧
    (let d := rigOf (w96Of 0xA6 0x19 0x100) 0xFFFFFF20 { a := slotOf [64] }
     Fires d d.memReq [{ val := 64 }] ∧ d.v.flag 8 = true ∧ d.v.flag 0 = false ∧ d.st.skip = false ∧
     (d.memPos [{ val := 64 }]).done = none) ∧
    (let d := rigOf (w96Of 0xB5 0x18 0) 0xFF181818 { a := slotOf [0x3F800000], x := .piv (some 0x40000000) 0 }
     NodeSeat d.s 1 0 0 d.v d ∧ (d.head 0).tok? = some { val := 0x3F800000 } ∧ d.piv = (some 0x40000000, 0) ∧ d.room = true) ∧
    ([0x3F800000, 0] : List W64).all (fun p => ([0, 1] : List Nat).all (fun f =>
      let d := rigOf (w96Of 0xB5 0x18 f) 0xFF181818 { a := slotOf [0x3F800000], b := slotOf [p] }
      decide (d.piv = (none, 0)) && !d.rg.leadExp && decide ((d.head 1).tok? = some { val := p }) && decide (d.v.bits 0 2 = f) &&
      ((fmtVal 0x18 0 p.toNat).abs.lt (fmtVal 0x18 0 d.pivTh) || (fmtVal 0x18 0 p.toNat).abs.eq (fmtVal 0x18 0 d.pivTh))
        == decide (p = 0))) = true ∧
    (let d := rigOf (w96Of 0xB5 0x18 0) 0xFF181818 { a := slotOf [0x3F800000] } []
       (fun rg => { rg with seqs := [{ budget := 0x8000000000000000 }] })
     (d.head 0).tok? = some { val := 0x3F800000 } ∧ d.piv = (none, 0) ∧ d.rg.leadExp = true) ∧
    ([0, 1] : List (BitVec 4)).all (fun mk =>
      let d := rigOf (w96Of 0xB6 0x18 1) 0xFFFF2018 { a := { q := [{ val := 5, mks := mk }] }, b := slotOf [9] }
      d.room && decide ((d.head 0).tok? = some { val := 5, mks := mk }) && decide ((d.head 1).tok? = some { val := 9 }) &&
      decide (d.st.x = .none) && decide (mk &&& BitVec.ofNat 4 (d.v.bits 0 4) = 0) == decide (mk = 0)) = true := by
  refine ⟨⟨rig_seat _ _ _ _ _ (fun _ => rfl), .inr (.inr ⟨_, rfl, rfl⟩), by decide +kernel⟩, by decide +kernel, ?_,
    ⟨rig_seat _ _ _ _ _ (fun _ => rfl), by decide +kernel⟩,
    ⟨⟨⟨rfl, rfl⟩, by decide +kernel, by decide +kernel⟩, by decide +kernel, by decide +kernel, by decide +kernel,
      fun y k h => by cases h⟩,
    ⟨⟨⟨rfl, rfl⟩, by decide +kernel, by decide +kernel⟩, by decide +kernel⟩,
    ⟨⟨⟨rfl, rfl⟩, by decide +kernel, by decide +kernel⟩, by decide +kernel⟩,
    ⟨rig_seat _ _ _ _ _ (fun _ => rfl), by decide +kernel⟩, by decide +kernel, by decide +kernel, by decide +kernel⟩
  intro t ht
  simp only [List.mem_cons, List.not_mem_nil, or_false] at ht
  rcases ht with rfl | rfl <;>
    exact ⟨rig_seat _ _ _ _ _ (fun _ => rfl), ⟨⟨rfl, rfl⟩, by decide +kernel, by decide +kernel⟩, by decide +kernel⟩

/-- A load, a store, a multicast store with a value and with a bubble, a RELN, and a store into a tile slot. -/
theorem wit_MemoryNodes :
    (let d := rigOf (w32Of 0xAE 2) 0xFFFFFF20 { a := slotOf [64] }
     NodeSeat d.s 1 0 0 d.v d ∧ Forms.here ⟨0xAE, .ldn, .ldnN64, .ldnN96⟩ (.ldn ⟨1, 4, 0, 2⟩) d.v ∧ d.st.skip = false ∧
     Fires d d.memReq [{ val := 64 }] ∧ d.st.pend.length < 64) ∧
    (let d := rigOf (w32Of 0xAF 2) 0xFFFF1920 { a := slotOf [64], b := slotOf [5] }
     NodeSeat d.s 1 0 0 d.v d ∧ Forms.here ⟨0xAF, .stn, .stnN64, .stnN96⟩ (.stn ⟨1, 4, 0, 2⟩) d.v ∧ d.v.flag 4 = false ∧
     Fires d d.memReq [{ val := 64 }, { val := 5 }] ∧ d.st.pend.length < 64) ∧
    (∀ t ∈ ([{ val := 5 }, { bub := true }] : List Token),
      let d := rigOf (w32Of 0xB4 2) 0xFFFF1920 { a := slotOf [64], b := { q := [t] } }
      NodeSeat d.s 1 0 0 d.v d ∧ Fires d d.memReq [{ val := 64 }, t] ∧ d.st.pend.length < 64 ∧
      (d.rg.outPort (d.v.bits 21 6)).room = true) ∧
    (let d := rigOf [0x400042C9, 0xFE] 0xFFFFFFFE { a := slotOf [0] }
     NodeSeat d.s 1 0 0 d.v d ∧ (∃ x, Instr.relnN64 x = .relnN64 ⟨1, 4, 0, 0xFE, 0, 0, 0, 0⟩ ∧ d.v = view64 0xB2 x)) ∧
    (let d := rigOf (w96Of 0xAF 0x19 0x10) 0xFFFF19FF { b := slotOf [5] } [] (fun rg =>
       { rg with tslots := [(0, { entry := 0x190000000000 })] })
     NodeSeat d.s 1 0 0 d.v d ∧ d.v.flag 4 = true ∧ d.v.flag 5 = false ∧ d.v.flag 6 = false ∧ Fires d d.memReq [{ val := 5 }] ∧
     d.rg.tslot 0 (d.v.bits 7 4) = some { entry := 0x190000000000 } ∧ 0 < dcFull 0x190000000000) := by
  refine ⟨⟨rig_seat _ _ _ _ _ (fun _ => rfl), .inl ⟨_, rfl, rfl⟩, rfl, ⟨⟨rfl, rfl⟩, by decide +kernel, by decide +kernel⟩,
      by decide +kernel⟩,
    ⟨rig_seat _ _ _ _ _ (fun _ => rfl), .inl ⟨_, rfl, rfl⟩, rfl, ⟨⟨rfl, rfl⟩, by decide +kernel, by decide +kernel⟩,
      by decide +kernel⟩, ?_,
    ⟨rig_seat _ _ _ _ _ (fun _ => rfl), _, rfl, rfl⟩,
    ⟨rig_seat _ _ _ _ _ (fun _ => rfl), by decide +kernel, by decide +kernel, by decide +kernel,
      ⟨⟨rfl, rfl⟩, by decide +kernel, by decide +kernel⟩, by decide +kernel⟩⟩
  intro t ht
  simp only [List.mem_cons, List.not_mem_nil, or_false] at ht
  rcases ht with rfl | rfl <;>
    exact ⟨rig_seat _ _ _ _ _ (fun _ => rfl), ⟨⟨rfl, rfl⟩, by decide +kernel, by decide +kernel⟩, by decide +kernel⟩

/-- A position of a load and of a store at the last word of the mapped page, whose sector holds I32. -/
theorem wit_NodeAccesses :
    ([(0xAE, 0), (0xAF, 5)] : List (Nat × W64)).all (fun e =>
      let p : MemPos := { num := 0, addr := 65532, value := e.2 }
      let s : State := { (rigOf (w96Of e.1 0x19 1) (if e.1 = 0xAE then 0xFFFFFF20 else 0xFFFF1920) { pend := [p] }).s with
        side := [(2047, { fmt := 0x19 })] }
      match s.nodeAt 1 0 0 with
      | none => false
      | some d =>
        d.rg.place.isSome && d.rg.live && !d.st.saved && d.st.stopped.isNone && !d.st.skip &&
        decide (d.st.pend[0]? = some p) && decide (p.addr.toNat % d.v.memAlign = 0) && d.v.flat && decide (d.v.op = e.1) &&
        decide (0 < fmtWidth d.v.fmt / 8) && match xlate s d.rg.core d.rg.ctx p.addr d.v.memKind.acc with
          | .ok (.loc pa u) => decide (pa = 0x1FFFC) && !u && tagOk (s.sideAt (sectorOf pa)) d.v.fmt &&
              (s.race d.rg (sectorOf pa)).isNone && !s.poisonedAt pa d.v.unit && Memory.wf s.mem &&
              s.readable (s.keyOf d.rg.ctx) (sectorOf pa)
          | _ => false) = true := by decide +kernel

/-- A fibre node with its operands and an address inside and outside fibre space; the two halves of FINTER; a stream's inner pair
and its last. -/
theorem wit_FibreNodes :
    (∀ a ∈ ([2 ^ 56, 0] : List W64),
      let d := rigOf (w32Of 0xBA 2) 0xFFFFFF20 { a := slotOf [a] } [0, 0]
      NodeSeat d.s 1 0 0 d.v d ∧ Forms.here ⟨0xBA, .fscan, .fscanN64, .fscanN96⟩ (.fscan ⟨1, 4, 0, 2⟩) d.v ∧ d.st.skip = false ∧
      d.fops.length < 64 ∧ d.rbase.toNat % 16 = 0 ∧ Fires d d.memReq [{ val := a }] ∧ fibreSpace a = decide (a ≠ 0)) ∧
    (let d := rigOf (w96Of 0xBC 0x19 0) 0xFFFF2020 { a := slotOf [2 ^ 56], b := slotOf [2 ^ 56 + 1] } [0, 0]
     NodeSeat d.s 1 0 0 d.v d ∧ d.v.flag 17 = false ∧ Fires d d.memReq [{ val := 2 ^ 56 }, { val := 2 ^ 56 + 1 }] ∧
     fibreSpace (2 ^ 56 + 1) = true) ∧
    ([0, 1] : List (BitVec 4)).all (fun mk =>
      let d := rigOf (w96Of 0xB8 0x19 0x1000) 0xFFFF1920
        { a := slotOf [2 ^ 56], b := { q := [{ val := 5, ix := some 3, mks := mk }] }, x := .fib 0 [] true true } [0, 0]
      !d.v.flag 16 && !d.fed 3 && !(d.head 0).isMissing && decide ((d.head 0).tok? = some { val := 2 ^ 56 }) &&
      decide (d.st.x = .fib 0 [] true true) && decide ((d.head 1).tok? = some { val := 5, ix := some 3, mks := mk }) &&
      decide (mk &&& BitVec.ofNat 4 (d.v.bits 12 4) = 0) == decide (mk = 0)) = true := by
  refine ⟨?_, ⟨rig_seat _ _ _ _ _ (fun _ => rfl), by decide +kernel, ⟨⟨rfl, rfl⟩, by decide +kernel, by decide +kernel⟩,
    by decide +kernel⟩, by decide +kernel⟩
  intro a ha
  simp only [List.mem_cons, List.not_mem_nil, or_false] at ha
  rcases ha with rfl | rfl <;>
    exact ⟨rig_seat _ _ _ _ _ (fun _ => rfl), .inl ⟨_, rfl, rfl⟩, rfl, by decide +kernel, by decide +kernel,
      ⟨⟨rfl, rfl⟩, by decide +kernel, by decide +kernel⟩, by decide +kernel⟩

/-! ### Witnesses: events -/

theorem ok_fst {ε α β : Type} {x : Except ε (α × β)} {a : α} (h : (x.toOption.map (·.1)) = some a) : ∃ b, x = .ok (a, b) := by
  cases x with
  | ok k => exact ⟨k.2, by simpa [Except.toOption, Prod.ext_iff] using h⟩
  | error e => simp [Except.toOption] at h

/-- Region 1, resident, whose queue 1 holds command `c`; the mapped page has UCHK. -/
def engRegion (c : Cmd) : Region :=
  { (withBlock (regsOf []) portBlock true).setEq 1 { entries := [.cmd c] } with gid := some 5 }
def engState (c : Cmd) : State :=
  { seatState (engRegion c) with
    agent := .none
    mem := Memory.setAll (probeTables []) 0x5000 (leBytes 8 0x1001F)
    groups := [(5, { members := [1], from_ := none })] }
def engOf (c : Cmd) : Eng := { r := 1, q := 1, rg := engRegion c, c := c, s := engState c }

/-- A command that starts, and one whose port no INGR reads; a load with a token, and at its end with and without KEEP; a finished
command without and with CMPL; a stalled member; a held chain that rereads 0, an address and a held address. -/
theorem wit_EngineEvents :
    ([(.cpy, [0x106, 0, 0, 0, 64, 0]), (.sload, [0x109, 0, 0, 0, 0, 0, 0, 0, 5])] : List (EngOp × List W64)).all (fun e =>
      let c : Cmd := { op := e.1, seq := 1, desc := e.2 }
      let rg := engRegion c
      rg.resident && decide (headCmd (rg.eq 1).entries = ([], some c)) && !c.started && !rg.portBusy 1 c && !c.decodes &&
      rg.portFits c == decide (e.1 = .cpy)) = true ∧
    ([([{ val := 5 }], 0), ([], 0), ([], 0x100)] : List (List Token × W64)).all (fun e =>
      let c : Cmd := { op := .sload, seq := 1, desc := [0x190109, 0, 0, 0, 0, 0, 0, 0, e.2], started := true, toks := e.1, pos := 1 }
      let rg := engRegion c
      c.started && !c.finished && c.paused.isNone && c.remote.isNone && (rg.inPort 0).room && decide (c.toks = e.1) &&
      decide (dTotal c.desc ≤ c.pos) && bit (dw c.desc 8) 8 == decide (e.2 ≠ 0)) = true ∧
    (let c : Cmd := { op := .cpy, seq := 1, desc := [0x106], started := true, finished := true }
     c.finished = true ∧ c.paused = none ∧ c.remote = none ∧ c.link = none ∧ dCmpl c.desc = false) ∧
    (let c : Cmd := { op := .cpy, seq := 1, desc := [0x906, 8], started := true, finished := true }
     dCmpl c.desc = true ∧ (∃ e1, (engOf c).target (dw c.desc 1) .write = .ok (.loc 0x10008 true, e1))) ∧
    (let c : Cmd := { op := .mcast, seq := 1, desc := [0x105, 0, 3 * 2 ^ 32, 0, 0], started := true, mbuf := [(0, [])], stall := [(0, 3)] }
     fld (dw c.desc 2) 32 32 = 3 ∧ (c.mbuf.find 0).isSome = true ∧ 3 ≤ c.stall.get 0 0 ∧
     (engState c).memberOf (engRegion c) 0 = some 1) ∧
    ([0, 64, 65] : List Nat).all (fun x =>
      let c : Cmd := { op := .chainw, seq := 1, desc := [0x103, 0, 16], started := true, hold := true, link := some 16 }
      let e : Eng := { engOf c with s := { engState c with
        mem := Memory.setAll (Memory.setAll (probeTables []) 0x5000 (leBytes 8 0x1001F)) 0x10010 (leBytes 8 x) } }
      match e.readFlat 16 8 with
      | .ok (g, _) => !g.failed && !g.bad && decide (leNat g.bytes = x)
      | .error _ => false) = true := by
  refine ⟨by decide +kernel, by decide +kernel, by decide, ⟨by decide, ok_fst (by decide +kernel)⟩, by decide +kernel, by decide +kernel⟩

/-- A command that no other holds up; ESEL and EEVAL at the head; a record to be written, and its two dwords; an array that clears,
is restored or is saved. -/
theorem wit_ErgEvents :
    (let c : ErgCmd := { op := .esel, seq := 1, desc := [1, 2] }
     let rg : Region := { oneSeq (regsOf []) with ergq := { entries := [c] } }
     let s : State := { seatState rg with cores := [(0, { erg := { st := .owned, owner := some 1 } })] }
     s.ergOf 1 = some (rg, { st := .owned, owner := some 1 }) ∧ c.op.loads = false ∧ c.started = false ∧
     ergBlocked { st := .owned, owner := some 1 } [] c = false) ∧
    ([{ op := .esel, seq := 1, desc := [1, 2], started := true }, { op := .eeval, seq := 1, desc := [0, 1, 1, 0], started := true },
      { op := .eload, seq := 1, desc := [0x804, 0, 0, 0], started := true },
      { op := .eload, seq := 1, desc := [0x804, 0, 0, 0], started := true, word := some 7 },
      { op := .eload, seq := 1, desc := [0x804, 0, 0, 0], started := true, word := some 7, half := true }] : List ErgCmd).all (fun c =>
      let rg : Region := { oneSeq (regsOf []) with ergq := { entries := [c] } }
      let s : State := { seatState rg with
        cores := [(0, { erg := { st := .owned, owner := some 1 } })]
        mem := Memory.setAll (probeTables []) 0x5000 (leBytes 8 0x1001F) }
      (s.ergOf 1).isSome && c.started && c.paused.isNone && c.remote.isNone && (c.op.descs == dCmpl c.desc) && (!c.op.descs ||
      (match xlate s 0 0 (dw c.desc 1 + 8) .write with | .ok (.loc pa u) => decide (pa = 0x10008) && u | _ => false) &&
      (match xlate s 0 0 (dw c.desc 1) .write with | .ok (.loc pa u) => decide (pa = 0x10000) && u | _ => false))) = true ∧
    (∀ st ∈ ([.clearing, .restoring, .saving] : List ErgState),
      let s : State := { seatState (oneSeq (regsOf [])) with cores := [(0, { erg := { st := st, owner := some 1 } })] }
      (s.core 0).erg = { st := st, owner := some 1 } ∧ s.rg? 1 = some (oneSeq (regsOf []))) := by
  refine ⟨⟨rfl, rfl, rfl, by decide +kernel⟩, by decide +kernel, fun st _ => ⟨rfl, rfl⟩⟩

/-- A region whose node FSCAN has started an operation. -/
def fibState (o : FOp) : State :=
  { (rigOf (w32Of 0xBA 2) 0xFFFFFF20 { x := .fib 1 [] false true } [0, 0]).s with
    agent := .none
    mem := Memory.setAll (probeTables []) 0x5000 (leBytes 8 0x1001F)
    fops := [(7, o)]
    pools := [(0, { d0 := 0x19 * 2 ^ 32, fibres := 16, perStack := 16 })]
    fibres := [(2 ^ 56 % 2 ^ 56, { segs := [{ num := 4, pairs := [(1, 2)] }] })] }
def scanOp : FOp := { rid := 1, blk := 0, nidx := 0, kind := .scan, ctx := 0, addr := 2 ^ 56 }

/-- An operation that arrives, one that reads its last segment, and a completed one with a record at each stage and without. -/
theorem wit_FibreEvents :
    (let s := fibState scanOp
     s.fops.find 7 = some scanOp ∧ (∃ rg, s.rg? 1 = some rg ∧ rg.resident = true) ∧ scanOp.st = .staged ∧ scanOp.noop = false ∧
     scanOp.half = none ∧ scanOp.other = none) ∧
    (let o : FOp := { scanOp with st := .scanning, todo := [4] }
     ((fibState o).fibreAt 0 o.addr).segs.find? (fun g => g.num = 4) = some { num := 4, pairs := [(1, 2)] }) ∧
    ([(0, some 16), (1, some 16), (0, none)] : List (Nat × Option W64)).all (fun e =>
      let o : FOp := { scanOp with st := .done, stage := e.1, rec_ := e.2 }
      let s := fibState o
      decide (s.fops.find 7 = some o) && (match s.nodeAt 1 0 0 with
        | some d => d.room && d.rg.place.isSome && !d.st.saved && d.st.stopped.isNone
        | none => false) &&
      (match xlate s 0 0 24 .write with | .ok (.loc pa u) => decide (pa = 0x10018) && u | _ => false) &&
      (match xlate s 0 0 16 .write with | .ok (.loc pa u) => decide (pa = 0x10010) && u | _ => false)) = true := by
  refine ⟨⟨rfl, ⟨_, rfl, by decide⟩, rfl, rfl, rfl, rfl⟩, by decide +kernel, by decide +kernel⟩

/-- A child that has ended; a final merge; an element of a bank view; a merge with no view left, of a child and final; a child
that fits and one whose descriptor is refused. -/
theorem wit_ViewsAndChildren :
    (let c : Child := { tid := 1, kdesc := 0x400, arg := 0, core := 0, st := .ended }
     let e : Epoch := { children := [c] }
     e.merge = none ∧ e.turn = some (0, c) ∧ c.st = .ended ∧ (oneSeq (regsOf [])).resident = true) ∧
    (let e : Epoch := { children := [{ tid := 1, kdesc := 0, arg := 0, core := 0, st := .merged }], fm := .running }
     e.merge = none ∧ e.turn = none ∧ e.fm = .running) ∧
    (let w : View := { sumView with loc := .bank 64 }
     let c : Child := { tid := 1, kdesc := 0, arg := 0, core := 0, st := .merging, views := [(0, w)], rid := some 2 }
     let m : Merge := { src := some 0, v := 0 }
     let rg : Region := { oneSeq (regsOf []) with task := { epoch := { children := [c], accs := [(0, { w with loc := .bank 128 })], merge := some m } } }
     let s : State := { seatState rg with regions := [(1, rg), (2, oneSeq (regsOf []))] }
     (s.mergeAt 1).any (fun w => decide (w.v.loc = .bank 64) && decide (w.x.loc = .bank 128) && decide (w.x.op < 12) &&
       decide (w.m.x < w.v.count) && decide (w.bankOf false = 2) && !(oneSeq (regsOf [])).bankBad 64 w.v.z && !rg.bankBad 128 w.x.z) = true) ∧
    (∀ src ∈ ([some 0, none] : List (Option Nat)),
      let m : Merge := { src := src, v := viewsDone }
      m.faulted = false ∧ m.remote = none ∧ m.v = viewsDone) ∧
    (let c : Child := { tid := 1, kdesc := 0x400, arg := 0, core := 0 }
     let rg : Region := { oneSeq (regsOf []) with task := { epoch := { children := [c, { c with kdesc := 1 }] } } }
     let s := seatState rg [(0x408, 0x440), (0x440, 0x100F)]
     s.rg? 1 = some rg ∧ (∃ x, s.ctx? 0 = some x ∧ x.st = .active ∧ x.becoming = none) ∧
     readResidency (devRead s 0) 1 = .error (16, 0) ∧ c.st = .pending ∧
     (∃ d, readResidency (devRead s 0) 0x400 = .ok d ∧ d = [0, 0x440, 0, 0, 0, 0, 0, 0]) ∧
     (let nr := { childRegion rg 1 0 c [0, 0x440, 0, 0, 0, 0, 0, 0] 3 with st := .loading }
      let w := s.boundsOf (s.launchOf 64 rg)
      s.bestRun (s.coresFor w.aff nr.erg w.set) (nr.pm1 + 1) = some (0, 0) ∧ (s.core 0).power = .active ∧
      s.pagesOf 0 + nr.pm1 + 1 ≤ probeCtx.pageq ∧ s.slotsOf 0 < probeCtx.slots ∧ (∃ im, loadImage (devRead s 0) nr = .ok im))) := by
  refine ⟨⟨rfl, by decide, rfl, by decide⟩, ⟨rfl, by decide, rfl⟩, by decide +kernel, fun src _ => ⟨rfl, rfl, rfl⟩,
    rfl, ⟨_, rfl, rfl, rfl⟩, rfl, rfl, ⟨_, eq_ok (by decide +kernel), rfl⟩, by decide +kernel, by decide +kernel, by decide +kernel,
    by decide +kernel, ok_of (by decide +kernel)⟩

/-! ### Witnesses: scheduling, snapshots and the outside -/

/-- A device-mode launch queue of context 0, ENABLED, with records at its head. -/
def devq (recs : List QRec) : Queue :=
  { ctx := 0, desc := [0x200100 + 15 * 2 ^ 52], st := .enabled, issued := w64 recs.length, store := recs }
/-- A record of command `c`. -/
def recOf (c : Nat) (kd : W64 := 0) : QRec := ⟨[0, w64 c, 0, 0, 0, kd, 7, 0]⟩
/-- A region whose residency descriptor at 0x400 is readable, and the state its load reads. -/
def loadable : Region :=
  { childRegion (oneSeq (regsOf [])) 1 0 { tid := 1, kdesc := 0x400, arg := 0, core := 0 } [0, 0x440, 0, 0, 0, 0, 0, 0] 3 with
    gid := some 5, nmem := 1 }
def schedState (rg : Region) (q : Queue) (gs : List (Nat × Group)) : State :=
  { seatState rg [(0x400, 0), (0x408, 0x440), (0x440, 0x100F), (0x600, 0), (0x608, 0x400)] with
    agent := .none, queues := [(1, q)], groups := gs }

/-- A NOP that starts, a LAUNCH that is refused and one whose group stands at the head; a pending group that is placed. -/
theorem wit_Dispatch_start :
    ([(devq [recOf 2], true), (devq [recOf 1], true), (devq [recOf 1 0x600], false)] : List (Queue × Bool)).all (fun e =>
      let s := schedState (oneSeq (regsOf [])) e.1 []
      let u0 := s.readHeads
      let t := u0.makeRoom u0.pressRuns
      match t.firstStart with
      | some (x, none) => match x.what, t.queue? x.q with
        | .record r, some q => match (t.startRecord x.q q r).queue? x.q, (t.age x).queue? x.q with
          | some q', some _ => (q'.taken != q.taken) == e.2
          | _, _ => false
        | _, _ => false
      | _ => false) = true ∧
    (let s := schedState { loadable with st := .pending, place := none } (devq [recOf 1 0x600])
       [(5, { members := [1], from_ := some (1, 1) })]
     let u := s.readHeads
     (match u.firstStart with
      | some (x, some _) => match x.what with
        | .group gid g => decide (gid = 5) && decide (g.st = .pending) && ((u.age x).placeGroup gid
          { g with skip := (u.queue? x.q).elim 0 (u.headSkip x.q) } (u.openDies x)).isSome
        | _ => false
      | _ => false) = true) := by
  refine ⟨by decide +kernel, by decide +kernel⟩

/-- A load that completes and one that is refused; a region that has drained, one that may retire; a finished command. -/
theorem wit_Dispatch_end :
    (let s := schedState { loadable with st := .loading } (devq []) [(5, { st := .loading, members := [1], from_ := none })]
     ∃ g, s.group? 5 = some g ∧ g.st = .loading ∧ g.members.any s.asleep = false ∧ (∃ l, loadAll s g.since (s.liveOf g) = .ok l)) ∧
    (let s := schedState { loadable with st := .loading, lseg := 0x7F000 } (devq [])
       [(5, { st := .loading, members := [1], from_ := none })]
     ∃ g, s.group? 5 = some g ∧ g.st = .loading ∧ (match loadAll s g.since (s.liveOf g) with | .error _ => true | .ok _ => false) = true ∧
       s.groupCtx g = some 0) ∧
    (let rg : Region := { oneSeq (regsOf []) with st := .running, live := true }
     rg.live = true ∧ rg.resident = true ∧ (schedState rg (devq []) []).drained 1 rg = true) ∧
    (let rg : Region := { oneSeq (regsOf []) with st := .draining }
     (schedState rg (devq []) []).mayRetire 1 rg = true ∧ (schedState rg (devq []) []).devBusy (8192 + 1) = false ∧
       rg.rra = 0 ∧ rg.recHalf = false ∧ (schedState { rg with rra := 64 } (devq []) []).mayRetire 1 { rg with rra := 64 } = true) ∧
    (∀ stage ∈ [0, 1, 2, 3],
      let x : Started := { seq := 1, rec_ := ⟨[0, 3, 0, 0, 0, 8, 7, 64]⟩, finished := true, stage := stage }
      let q := { devq [] with issued := 1, taken := 1, started := [x] }
      let s := schedState (oneSeq (regsOf [])) q []
      s.queue? 1 = some q ∧ q.st ≠ .lost ∧ 1 = (q.done + 1).toNat ∧ s.devBusy 1 = false ∧ s.groupBusy x = false ∧
      x.status = 0 ∧ x.rec_.cmd = 3 ∧ x.rec_.dw.getD 7 0 ≠ 0) := by
  refine ⟨⟨_, rfl, rfl, by decide +kernel, ok_of (by decide +kernel)⟩, ⟨_, rfl, rfl, by decide +kernel, by decide +kernel⟩,
    ⟨rfl, by decide, by decide +kernel⟩, ⟨by decide +kernel, by decide +kernel, rfl, rfl, by decide +kernel⟩, fun k _ => ⟨rfl, by simp [devq], by simp [devq], rfl, rfl, rfl, ?_, by simp⟩⟩
  exact (by decide : (QRec.mk [0, 3, 0, 0, 0, 8, 7, 64]).cmd = 3)

/-- A contract of core 0, with an activation that has not ended. -/
def oneContract : Contract :=
  { ctx := 0, desc := [1, 1, 0, 0, 500, 1000, 1000, 0], acts := [{ queue := 1, first := 1, last := 1, order := 7, at_ := 0 }] }
/-- Core 0 with its pages, and a bank whose dune 1 has had more corrected errors than it may. -/
def coreState (rg : Region) (pages : List Page) (gs : List (Nat × Group) := []) : State :=
  { schedState rg (devq [recOf 1 0x600]) gs with cores := [(0, { pages := pages, wear := [(8 * 0 + 1, 2000000)] })] }
/-- Page 0 runs region 1; the others are free. -/
def somePages : List Page := { st := .running, ctx := 0, rid := some 1 } :: List.replicate 11 {}
def liveRegion : Region :=
  { oneSeq (regsOf []) with
    st := .running, live := true, gid := some 5, quiet := 65536
    nodes := [(0, { win := 65536, press := 49152 }), (1, { win := 65536, press := 49151 })] }
def liveState : State := coreState liveRegion somePages [(5, { st := .running, members := [1], from_ := some (1, 1) })]

/-- A contract's activation on core 0; a window that ends at 49,152 back-pressured cycles and one below. -/
theorem wit_CoreServices_contract :
    (let s : State := { liveState with contracts := [(0, oneContract)] }
     (oneContract.acts.find? (fun a => !a.exh && s.actOn 0 a)).isSome && contractHas oneContract 0 &&
       (oneContract.acts.find? (fun a => !a.miss)).isSome && liveRegion.live && liveRegion.resident &&
       decide (0 < min ((List.range 12).filter (fun p => (s.page 0 p).st = .free)).length
         ((s.ctx? 0).elim 0 (fun x => x.pageq - s.pagesOf 0)))) = true ∧
    ([(0, 49152), (1, 49151)] : List (Nat × Nat)).all (fun e =>
      let n := liveRegion.nodes.get e.1 {}
      decide (65536 ≤ n.win) && decide (n.press = e.2)) = true ∧ liveRegion.cloneSets = [] := by
  refine ⟨by decide +kernel, by decide, rfl⟩

/-- A held page, a Free one and a quarantined one to be remapped; a quiet configuration whose report fits. -/
theorem wit_CoreServices_pages :
    (liveState.worn 0 0 1 && decide ((liveState.page 0 0).want = []) && decide ((liveState.page 0 0).st = .running) &&
       decide ((liveState.page 0 0).rid = some 1) &&
       decide ((liveState.page 0 0).ctr = false) && decide (liveState.holder 0 0 = some 1) &&
       (liveState.rg? 1).isSome && liveRegion.gid.isSome) = true ∧
    (let s := coreState (oneSeq (regsOf [])) []
     let p : Page := { st := .quarantined, want := [1, 2], wear := [1] }
     let t := coreState (oneSeq (regsOf [])) [p]
     let u : State := { t with contracts := [(0, oneContract)] }
     s.worn 0 0 1 = true ∧ (s.page 0 0).st = .free ∧ (s.page 0 0).want = [] ∧ t.page 0 0 = p ∧ 0 < (t.core 0).spLeft ∧
       t.windowOpen = false ∧ p.want.head? = some 1 ∧ u.windowOpen = true ∧ p.want.find? (fun x => !p.wear.contains x) = some 2 ∧
       u.worn 0 0 1 = false) ∧
    (let rg : Region := { withBlock (regsOf []) (blockOf [(w32Of 0x83 2, 0xFFFF1919), ([0xA04], 0xFFFFFF19)] []) true {} with
       st := .running, live := true, quiet := 65536 }
     let s : State := { liveState with
       regions := [(1, rg)], ctxs := [(0, { probeCtx with desc := [0, 0, 0, 0, 0, 0, 1, 0] })] }
     let s1 := s.setRg 1 { rg with swept := true, sweeps := rg.sweeps + 1 }
     ∃ x q, s.ctx? 0 = some x ∧ s.queue? x.faultq = some q ∧ rg.seqs ≠ [] ∧ 65536 ≤ rg.quiet ∧ s.drained 1 rg = false ∧
       q.slotsUsed + (s1.stallReport 1 rg).length ≤ q.nslot ∧ rg.leadHalted = false) := by
  refine ⟨by decide +kernel, ⟨by decide +kernel, rfl, rfl, rfl, by decide, by decide, rfl, by decide, rfl, by decide +kernel⟩,
    ⟨_, _, rfl, rfl, by decide, by decide, by decide +kernel, by decide +kernel, by decide⟩⟩

/-- A sequencer that watches sector 5, the notice of a write there, and a region whose clone sets are wanted no longer. -/
theorem wit_CoreServices_watch :
    let q : Seq := { regsOf [] with monmask := 1, filter := 0x21 }
    let rg : Region := { liveRegion with seqs := [q], live := false }
    let n : Notice := { core := 0, sector := 5, who := [(1, 0, q.clrs)] }
    let s : State := { coreState rg somePages with notices := [n], clears := [(0, 5)] }
    s.notices.find? (fun n => n.core = 0 && n.sector = 5) = some n ∧ (1, rg) ∈ s.regions ∧ rg.onCore 0 = true ∧
    rg.seqs[0]? = some q ∧ q.watches 5 = true ∧ (0, 5) ∈ s.clears ∧ s.rg? 1 = some rg ∧ rg.live = false := by
  refine ⟨by decide +kernel, by simp [coreState, schedState, seatState], by decide, rfl, by decide, by simp, rfl, rfl⟩

/-- A claim of two pages on die 0, where core 0 has its pages 0 and 2 Free and every other page is held. -/
theorem wit_CoreServices_claim :
    let held : Page := { st := .running, ctx := 0 }
    let mine : Page := { st := .running, ctx := 0, first := 1, rid := some 1 }
    let full : Nat × Core := (0, { pages := List.replicate 12 held })
    let q : Queue := { devq [recOf 1 0x600] with desc := [0x10100 + 2 ^ 52] }
    let a : Region := { liveRegion with place := some (0, 1) }
    let b : Region := { loadable with st := .pending, place := none, pm1 := 1, gid := some 6 }
    let s : State := { seatState a with
      agent := .none
      queues := [(1, q)]
      groups := [(5, { st := .running, members := [1], from_ := some (1, 0) }), (6, { members := [2], from_ := some (1, 1) })]
      regions := [(1, a), (2, b)]
      cores := (0, { pages := [{}, mine, {}] ++ List.replicate 9 held }) :: (List.range 47).map (fun c => (c + 1, full.2)) }
    (match s.claim with
     | some x => match x.what, s.queue? x.q with
       | .group _ g, some q => !q.claimed && s.move.isNone && (match s.unplaced q.aff (s.groupBounds g).set g.members with
         | some (m, t) => (match s.bestMove t q.aff g (s.coresFor q.aff m.erg (s.groupBounds g).set) (m.pm1 + 1) with
           | some (r, rg, d) => decide (r = 1) && decide (rg.gid = some 5) && decide (d = 2 ∨ d = 0)
           | none => false)
         | none => false)
       | _, _ => false
     | none => false) = true := by decide +kernel

/-- Group 5 with region 1 as its member, in the states of a snapshot and a restore. -/
def groupState (rg : Region) (g : Group) : State :=
  schedState rg (devq [recOf 1 0x600]) [(5, { g with members := [1] })]

/-- A request for a running group and a contract's for a loading one; a node whose markers have come, and a quiescent region; a
complete image; a saved group that can be placed, launched from a queue and not; a complete restore. -/
theorem wit_GroupSnapshots :
    (∃ g, (groupState liveRegion { st := .running, req := some .remap, from_ := some (1, 1) }).group? 5 = some g ∧
      g.req = some .remap ∧ g.st = .running ∧
      (groupState liveRegion { st := .running, req := some .remap, from_ := some (1, 1) }).windowOpen = false) ∧
    (let s := groupState { loadable with st := .loading } { st := .loading, req := some .contract, from_ := some (1, 1) }
     ∃ g, s.group? 5 = some g ∧ g.req = some .contract ∧ g.st = .loading ∧ (s.abandonPlace 5 g).groupCtx g = some 0) ∧
    (let d := rigOf (w32Of 0x83 2) 0xFFFF1919 {} [] (fun x => { x with snap := true })
     ∃ e, d.rg.nodeCfg 0 0 = some e ∧ d.rg.snap = true ∧ d.rg.live = true ∧ d.rg.cloneSets = [] ∧ (d.rg.nodes.get 0 {}).saved = false ∧
       (∀ i ∈ e.1.markerSlots 0, ((d.rg.nodes.get 0 {}).slot i).mark = true)) ∧
    (let rg : Region := { oneSeq (regsOf []) with snap := true, live := true }
     rg.snap = true ∧ rg.live = true ∧ rg.cloneSets = [] ∧ rg.allNodes = []) ∧
    (let s := groupState { liveRegion with snap := true, live := false } { st := .snapshotting, from_ := some (1, 1) }
     ∃ g, s.group? 5 = some g ∧ g.st = .snapshotting ∧ s.groupCtx g = some 0 ∧
       (∀ e ∈ s.liveOf g, e.2.unsaved = false ∧ s.imaged e.1 e.2 = true)) ∧
    (let s := groupState { liveRegion with snap := true, imageBad := true } { st := .snapshotting, from_ := some (1, 1) }
     ∃ g, s.group? 5 = some g ∧ g.st = .snapshotting ∧ s.groupCtx g = some 0 ∧ (s.liveOf g).any (fun e => e.2.unsaved) = true) ∧
    (let s := groupState { loadable with st := .saved, place := none } { st := .saved, from_ := none }
     let u := s.readHeads
     ∃ g x, u.group? 5 = some g ∧ g.st = .saved ∧ g.from_ = none ∧ u.groupCtx g = some 0 ∧ u.ctx? 0 = some x ∧ x.st = .active ∧
       x.becoming = none ∧ (u.placeGroup 5 g 15).isSome = true) ∧
    (let s := groupState { loadable with st := .saved, place := none } { st := .saved, from_ := some (1, 1) }
     let u := s.readHeads
     (match u.group? 5, u.firstStart with
      | some g, some (x, some _) => match x.what with
        | .group gid _ => decide (gid = 5) && decide (g.st = .saved) && ((u.age x).placeGroup gid g (u.openDies x)).isSome
        | _ => false
      | _, _ => false) = true) ∧
    (let s := groupState { loadable with st := .restoring } { st := .restoring, from_ := some (1, 1) }
     ∃ g, s.group? 5 = some g ∧ g.st = .restoring ∧ g.members.any s.asleep = false ∧ s.groupCtx g = some 0 ∧
       (s.liveOf g).all (fun e => !e.2.unsaved) = true) := by
  refine ⟨⟨_, rfl, rfl, rfl, rfl⟩, ⟨_, rfl, rfl, rfl, rfl⟩, ⟨_, rfl, rfl, rfl, rfl, rfl, by decide +kernel⟩, ⟨rfl, rfl, rfl, rfl⟩,
    ⟨_, rfl, rfl, rfl, by decide +kernel⟩, ⟨_, rfl, rfl, rfl, by decide +kernel⟩,
    ⟨_, _, rfl, rfl, rfl, rfl, rfl, rfl, rfl, by decide +kernel⟩, by decide +kernel, ⟨_, rfl, rfl, by decide +kernel, rfl, by decide +kernel⟩⟩

/-- A load and a store that await a reply. -/
def farState (q : Seq) (x : Remote) : State := { seatState (oneSeq q) with agent := .none, remotes := [(9, x)], ports := List.replicate 16 { st := .up } }
def farOf (k : RemKind) : Remote :=
  { kind := k, ctx := 0, rid := 1, pg := 0, rnode := 3, chan := 1, rod := false, addr := 0, va := 0, bytes := [] }
def outside (a : W64) (gen : BitVec 16) : Rma := { ctx := 0, gen := gen, addr := a, host := true }
def runningState : State := { seatState (oneSeq (regsOf [])) [(0, 5)] with sec := { boot := .running, life := .deployed } }

/-- A sequencer that waits for a load and one whose store awaits its acknowledgement; accesses under the context's generation and
another, of bytes up to the page's end, an atomic that writes and one that does not; a fault whose entry came; a port that is Up. -/
theorem wit_RemoteAndOutside :
    (let q : Seq := { regsOf [] with wait := some (.ld 9 3 .i64 1) }
     let s := farState q (farOf .ld)
     s.remotes.find 9 = some (farOf .ld) ∧ s.ports.any Port.carries = true ∧ s.rg? 1 = some (oneSeq q) ∧ (oneSeq q).resident = true ∧
       (oneSeq q).seqs[0]? = some q ∧ q.wait = some (.ld 9 3 .i64 1) ∧ (farOf .ld).result = none ∧ (farOf .ld).failed = false) ∧
    (let q : Seq := { regsOf [] with remotes := [9] }
     (farState q (farOf .st)).remotes.find 9 = some (farOf .st) ∧ (farOf .st).kind = .st) ∧
    (let s := runningState
     s.sec.boot = .running ∧ s.rmaCtx (outside 0 probeCtx.gen) = true ∧ s.rmaCtx (outside 0 (probeCtx.gen + 1)) = false ∧
     s.ctx? 0 = some probeCtx ∧ probeCtx.st ≠ .lost ∧ probeCtx.st ≠ .destroying ∧
     (∃ l, s.outMap 0 0xFFF8 8 .write = some l) ∧ (∃ l, s.outMap 0 0xFFF8 8 .read = some l) ∧
     (∃ p, s.outMap 0 0 8 .atomic = some [p] ∧ s.poisonedAt p.pa 8 = false ∧ leNat (s.outRead 0 [p]) = 5) ∧
     amoWrites .add 5 0 = true ∧ amoWrites .cas 5 5 = true ∧ amoWrites .cas 5 6 = false) ∧
    (let f : FaultRec := { ctx := 0, blk64 := 0, reason := 0, epa := 0, woken := true }
     let s : State := { runningState with faults := [(4, f)] }
     s.faults.find 4 = some f ∧ f.woken = true) ∧
    (({ st := .up } : Port).st = .up ∧ ({ State.reset with ports := List.replicate 16 { st := .up } } : State).ports[15]? = some { st := .up }) := by
  refine ⟨⟨rfl, by decide, rfl, by decide, rfl, rfl, rfl, rfl⟩, ⟨rfl, rfl⟩,
    ⟨rfl, by decide +kernel, by decide +kernel, rfl, by decide, by decide, ?_, ?_, ⟨_, rfl, rfl, by decide +kernel⟩, by decide, by decide, by decide⟩,
    ⟨rfl, rfl⟩, ⟨rfl, rfl⟩⟩ <;> exact Option.isSome_iff_exists.mp (by decide +kernel)

/-! ### Witnesses: commands, the device and the step -/

/-- A message of command `op` about context 0, whose dword 0 names its generation. -/
def cmdOf (op : Nat) (win : Bool) (payload : List W64) : Msg :=
  { hdr := w64 (op * 2 ^ 48 + 8 * payload.length), tag := 1, payload := payload
    at_ := if win then .window 0 else .management
    session := if win then .tenant 0 0 else .management }
def hostState (x : Ctx) (q : Queue) : State :=
  { seatState (oneSeq (regsOf [])) with agent := .none, ctxs := [(0, x)], queues := [(3, q)], sec := { boot := .running, life := .deployed } }

/-- Each command on the context is accepted, up to the ends of the ranges of CTX_QUOTA. What CTX_CREATE asks for is reservable
where Config.reservedBytes, which no proof can see, is at least the sum shown, and else not. -/
theorem wit_ContextCommands :
    (∀ st ∈ ([.created, .keyed, .active, .suspended, .faulted, .lost] : List CtxState), ∀ sync ∈ [true, false],
      let x : Ctx := { probeCtx with st := st, syncs := if sync then [cmdOf 0x17 false [0]] else [] }
      let s := hostState x (devq [])
      CtxMsg s (cmdOf 0x11 false [0, 1, 2, 3, 4, 5, 6, 7, 8]) 0x11 false true 9 0 x ∧
      CtxMsg s (cmdOf 0x12 false [0]) 0x12 false true 1 0 x ∧ CtxMsg s (cmdOf 0x13 false [0]) 0x13 false true 1 0 x ∧
      CtxMsg s (cmdOf 0x14 false [0]) 0x14 false true 1 0 x ∧ CtxMsg s (cmdOf 0x15 false [0]) 0x15 false true 1 0 x ∧
      CtxMsg s (cmdOf 0x16 false [0, 1, 1, 0, 0]) 0x16 false true 5 0 x ∧
      CtxMsg s (cmdOf 0x16 false [0, 8192, 2304, 256, 294912]) 0x16 false true 5 0 x ∧
      (st ≠ .lost → CtxMsg s (cmdOf 0x17 false [0]) 0x17 false false 1 0 x)) ∧
    (let s := hostState probeCtx (devq [])
     DevMsg s (cmdOf 0x01 false []) 0x01 0 ∧ DevMsg s (cmdOf 0x02 false [191, 11]) 0x02 2 ∧
     DevMsg s (cmdOf 0x10 false (List.replicate 8 0)) 0x10 8 ∧ ctxDescBad (List.replicate 8 0) = true ∧
     (let d : List W64 := [w64 (64 * 2 ^ 48 + 2304 * 2 ^ 36 + 255 * 2 ^ 19), 0x1000, 0, 0, 0x10000, 0, 64 * 2 ^ 16 + 7, 0]
      DevMsg s (cmdOf 0x10 false d) 0x10 8 ∧ ctxDescBad d = false ∧ s.freeCtx = some 1 ∧
      s.queue? (fld (dw d 6) 0 13) = none ∧ s.reserved + ctxReserve d = 4278196224) ∧
     devGate s { cmdOf 0x10 false [] with session := .none } 0x10 (dwords 8 (cmdOf 0x10 false [])) ≠ 0) := by
  refine ⟨fun st h1 sync h2 => ?_, ⟨rfl, rfl, rfl⟩, ⟨rfl, rfl, rfl⟩, ⟨rfl, rfl, rfl⟩, by decide, ⟨⟨rfl, rfl, rfl⟩, by decide, by decide +kernel, by decide, by decide +kernel⟩, by decide⟩
  · simp only [List.mem_cons, List.not_mem_nil, or_false] at h1 h2
    rcases h1 with rfl | rfl | rfl | rfl | rfl | rfl <;> rcases h2 with rfl | rfl <;>
    exact ⟨⟨rfl, rfl, rfl, rfl, rfl⟩, ⟨rfl, rfl, rfl, rfl, rfl⟩, ⟨rfl, rfl, rfl, rfl, rfl⟩, ⟨rfl, rfl, rfl, rfl, rfl⟩,
      ⟨rfl, rfl, rfl, rfl, rfl⟩, ⟨rfl, rfl, rfl, rfl, rfl⟩, ⟨rfl, rfl, rfl, rfl, rfl⟩,
      fun h => by first | exact absurd rfl h | exact ⟨rfl, rfl, rfl, rfl, rfl⟩⟩

/-- Commands on queue 3 in each of its states, on a new queue, a contract that is admitted and one that is not, a pool. -/
theorem wit_QueueAndMemoryCommands_queues :
    (∀ st ∈ ([.disabled, .enabled, .stopped, .lost] : List QState),
      let q : Queue := { devq [] with st := st }
      let s := hostState probeCtx q
      s.queue? 3 = some q ∧ q.ctx = 0 ∧ q.consuming = false ∧ q.started = [] ∧ probeCtx.faultq ≠ 3 ∧
      CtxMsg s (cmdOf 0x21 false [0, 3]) 0x21 false true 2 0 probeCtx ∧ CtxMsg s (cmdOf 0x22 false [0, 3]) 0x22 false true 2 0 probeCtx ∧
      CtxMsg s (cmdOf 0x24 false [0, 3]) 0x24 false true 2 0 probeCtx ∧ CtxMsg s (cmdOf 0x25 false [0, 3]) 0x25 false true 2 0 probeCtx ∧
      CtxMsg s (cmdOf 0x26 false [0, 3]) 0x26 false true 2 0 probeCtx) ∧
    (∀ e ∈ ([([], 0), ([⟨[9]⟩], 1)] : List (List QRec × W64)),
      let q : Queue := { ctx := 0, desc := [0x10140], st := .enabled, issued := e.2, store := e.1 }
      let s := hostState probeCtx q
      CtxMsg s (cmdOf 0x27 true [0, 3]) 0x27 true false 2 0 probeCtx ∧ s.queue? 3 = some q ∧ q.consuming = true ∧
      (s.takeRec 3).isSome = (e.2 = 1)) ∧
    (let q : Queue := { ctx := 0, desc := [15 * 2 ^ 52], st := .enabled, issued := 1 }
     let s := hostState probeCtx q
     CtxMsg s (cmdOf 0x23 true [0, 3, 1]) 0x23 true false 3 0 probeCtx ∧ CtxMsg s (cmdOf 0x23 true [0, 3, 2]) 0x23 true false 3 0 probeCtx ∧
     q.dev = false ∧ tailReached 2 q.issued = true ∧ q.cid = none) ∧
    (let s := hostState probeCtx (devq [])
     let d : List W64 := [w64 (15 * 2 ^ 52 + 4 * 2 ^ 32), 0, 0, 0, 0, 0, 0, 0]
     CtxMsg s (cmdOf 0x20 false (0 :: d)) 0x20 false false 9 0 probeCtx ∧ queueDescBad d = false ∧
     ({ ctx := 0, desc := d } : Queue).cid = none ∧ s.queue? (fld (dw d 0) 32 13) = none ∧ s.queuesOf 0 < probeCtx.nq ∧
     bit (dw d 0) 8 = false ∧ queueDescBad (d.set 0 (w64 (15 * 2 ^ 52 + 4 * 2 ^ 32 + 2 ^ 16 + 2 ^ 8))) = false) ∧
    ([(90, true), (91, false)] : List (Nat × Bool)).all (fun e =>
      let s := hostState probeCtx (devq [])
      let d : List W64 := [1, 1, 0, 0, w64 e.1, 100, 100, 0]
      !contractDescBad d && decide ((List.range 256).find? (fun n => (s.contracts.find n).isNone) = some 0) &&
      (admits [] { ctx := 0, desc := d } == e.2)) = true ∧
    (let s : State := { hostState probeCtx (devq []) with contracts := [(2, oneContract)] }
     CtxMsg s (cmdOf 0x30 false [0, 1, 1, 0, 0, 90, 100, 100, 0]) 0x30 false false 9 0 probeCtx ∧
     CtxMsg s (cmdOf 0x31 false [0, 2]) 0x31 false true 2 0 probeCtx ∧ s.contracts.find 2 = some oneContract ∧
     (∀ e ∈ s.queues, e.2.cid ≠ some 2)) ∧
    (let x : Ctx := { probeCtx with desc := [0, 0, 0, 0, 0, 0, 0, 1] }
     let d : List W64 := [w64 (0x19 + 2 ^ 36 + 7 * 2 ^ 40), 0]
     let s := hostState x (devq [])
     CtxMsg s (cmdOf 0x38 false ([0] ++ d ++ [1, 1])) 0x38 false false 5 0 x ∧ poolDescBad d = false ∧ s.pools.find 7 = none ∧
     s.fibUsed 0 + ({ d0 := dw d 0, fibres := 1, perStack := 1 } : Pool).charge ≤ 2 ^ 20 * fld (dw x.desc 7) 0 16 ∧
     CtxMsg { s with pools := [(7, { d0 := dw d 0, fibres := 1, perStack := 1 })] } (cmdOf 0x39 false ([0] ++ d ++ [1, 1])) 0x39 false false 5 0 x) := by
  refine ⟨?_, ?_, ⟨⟨rfl, rfl, rfl, rfl, rfl⟩, ⟨rfl, rfl, rfl, rfl, rfl⟩, by decide, by decide, by decide⟩,
    ⟨⟨rfl, rfl, rfl, rfl, rfl⟩, by decide, by decide, by decide, by decide, by decide⟩, by decide +kernel,
    ⟨⟨rfl, rfl, rfl, rfl, rfl⟩, ⟨rfl, rfl, rfl, rfl, rfl⟩, rfl, by decide⟩,
    ⟨⟨rfl, rfl, rfl, rfl, rfl⟩, by decide, rfl, by decide, ⟨rfl, rfl, rfl, rfl, rfl⟩⟩⟩
  · intro st h1
    simp only [List.mem_cons, List.not_mem_nil, or_false] at h1
    rcases h1 with rfl | rfl | rfl | rfl <;>
      exact ⟨rfl, rfl, by decide, rfl, by decide, ⟨rfl, rfl, rfl, rfl, rfl⟩, ⟨rfl, rfl, rfl, rfl, rfl⟩, ⟨rfl, rfl, rfl, rfl, rfl⟩,
        ⟨rfl, rfl, rfl, rfl, rfl⟩, ⟨rfl, rfl, rfl, rfl, rfl⟩⟩
  · intro e h1
    simp only [List.mem_cons, List.not_mem_nil, or_false] at h1
    rcases h1 with rfl | rfl <;> exact ⟨⟨rfl, rfl, rfl, rfl, rfl⟩, rfl, by decide, by decide +kernel⟩

/-- A window write and read that translate and that do not, the longest read, channels 0 and 63. -/
theorem wit_QueueAndMemoryCommands_memory :
    let s := hostState probeCtx (devq [])
    CtxMsg s (cmdOf 0x40 true [0, 0, 0, 7]) 0x40 true false 4 0 probeCtx ∧ (s.outMap 0 0 8 .write).isSome = true ∧
    CtxMsg s (cmdOf 0x40 true [0, 65536, 0, 7]) 0x40 true false 4 0 probeCtx ∧ s.outMap 0 65536 8 .write = none ∧
    CtxMsg s (cmdOf 0x41 true [0, 0, 4080]) 0x41 true false 3 0 probeCtx ∧ (s.outMap 0 0 4080 .read).isSome = true ∧
    s.outMap 0 65536 4080 .read = none ∧
    CtxMsg s (cmdOf 0x48 false [0, 0, 0, 0]) 0x48 false false 4 0 probeCtx ∧
    CtxMsg s (cmdOf 0x48 false [0, 63, 65535, 0xFFFF03FF]) 0x48 false false 4 0 probeCtx :=
  ⟨⟨rfl, rfl, rfl, rfl, rfl⟩, by decide +kernel, ⟨rfl, rfl, rfl, rfl, rfl⟩, by decide +kernel, ⟨rfl, rfl, rfl, rfl, rfl⟩,
    by decide +kernel, by decide +kernel, ⟨rfl, rfl, rfl, rfl, rfl⟩, ⟨rfl, rfl, rfl, rfl, rfl⟩⟩

/-- A port in each state; identity in each lifecycle state: whether a signature verifies is Config's, the other conditions are met. -/
theorem wit_DeviceEvents :
    (∀ p ∈ ([{ st := .down }, { st := .down, timer := true }, { st := .training, tries := 1 }, { st := .training, tries := 3 },
        { st := .up, lanes := 8, ferr := 17 }, { st := .degraded, lanes := 4 }, { st := .isolated }] : List Port),
      let s : State := { hostState probeCtx (devq []) with ports := p :: List.replicate 15 p }
      s.ports[(msgDw (cmdOf 0x50 false [15]) 0).toNat]? = some p ∧ s.ports[0]? = some p ∧
      DevMsg s (cmdOf 0x50 false [15]) 0x50 1 ∧ DevMsg s (cmdOf 0x51 false [15]) 0x51 1 ∧ DevMsg s (cmdOf 0x52 false [15]) 0x52 1) ∧
    (let r : Signed := { key := [1], data := [], nonce := [2], sig := [3] }
     let y : Security := { boot := .running, life := .provisioned, nodeId := some 1, nonce := some [2], ownerDigest := some (sha384 [1]) }
     ∀ req, ecdsaVerify [1] (devIdBytes ++ req ++ [2]) [3] = true → y.owned r req = true) ∧
    (let y : Security := { boot := .running, life := .manufacture }
     y.boot = .running ∧ y.life ≠ .decommissioned ∧ (y.owned { key := [], data := [], nonce := [], sig := [] } [3] = false) ∧
     y.tokenOk [] = false) ∧
    (let s : State := State.reset
     s.sec.boot = .rom ∧ (s.core 191).waking = false ∧ s.idle 191 = true ∧ s.windowOpen = false ∧ s.throttle = false ∧
     0 ∉ s.retraining ∧ (0, 0) ∉ s.repairing ∧ (110 : Int) ≤ 110 ∧ ¬ (100 : Int) < 100 ∧ ¬ (95 : Int) < 95 ∧
     homeStack 0 < 12 ∧ installed 0 = true) ∧
    (let s : State := { State.reset with cores := [(191, { power := .pageGated, waking := true })] }
     (s.core 191).power ≠ .active ∧ (s.core 191).waking = true) ∧
    (let s : State := { State.reset with rowErrs := [(rowKey 11 3, 4)], repairing := [(0, 0)], ports := [{ st := .up }]
                                         tele := { pending := [.supply] }, sec := { boot := .running } }
     s.windowOpen = false ∧ (11, 3) ∉ s.repairing ∧ 4 ≤ s.rowErrs.get (rowKey 11 3) 0 ∧ (0, 0) ∈ s.repairing ∧
     State.reset.quiesced 0 = false ∧ s.tele.pending = [.supply] ∧ s.sec.boot = .running ∧ ∃ p ∈ s.ports, p.st = .up ∨ p.st = .degraded) ∧
    (({ State.reset with contracts := [(0, oneContract)] } : State).windowOpen = true) := by
  refine ⟨?_, ?_, by decide, by decide +kernel, by decide, ⟨rfl, by decide, by decide, by decide, by decide, rfl, rfl, _, .head _, .inl rfl⟩, by decide⟩
  · intro p h1
    simp only [List.mem_cons, List.not_mem_nil, or_false] at h1
    rcases h1 with rfl | rfl | rfl | rfl | rfl | rfl | rfl <;> exact ⟨rfl, rfl, ⟨rfl, rfl, rfl⟩, ⟨rfl, rfl, rfl⟩, ⟨rfl, rfl, rfl⟩⟩
  · intro r y req h
    simpa [Security.owned, r, y] using h

/-- Every word of the encoding of ADD is admitted; the machine after reset is in the form that steps keep. -/
theorem wit_EncodeDecode : (encodeFields (.add ⟨0, false⟩ 31 31 31)).isSome = true ∧ (Instr.add ⟨0, false⟩ 31 31 31).wf = true := by decide

/-- A sequencer at a two-word instruction and at a reserved word, a node, an event, a packet that is taken and one that no port
carries; after reset nothing is listed in memory. -/
theorem wit_StepRunsDecoded :
    (let s := State.reset.withFetchWord 64 0x00000004_40010451
     let t0 := s.began (.seq 1 0)
     decide (s.agenda = [.seq 1 0]) && decide (t0.sec.boot ≠ .shutDown) && (match t0.seqTurn 1 0 with
      | .fetch rg q =>
        let t := t0.fetchAfter 1 0 rg q
        match enterSegment t rg ((t.seq? 1 0).getD q) with
        | .ok q1 =>
          let u := t.setSeq 1 0 { q1 with prevTurn := q1.lastTurn, lastTurn := t.freeIx }
          (match q1.seg, fetchWord u rg.core rg.ctx q1.entered q1.pc with
           | some seg, .ok w0 => seg.holds q1.pc && !seg.inPool q1.pc && decide (q1.pc.toNat % 4 = 0) && decide (w0 % 4 ≠ 3) &&
             decide (opClass (w0 / 4 % 256) ≠ .reserved) && decide (opClass (w0 / 4 % 256) ≠ .node) &&
             decide (opClass (w0 / 4 % 256) ≠ .fibre) && (match laterWords u rg seg q1.entered q1.pc (w0 % 4) with
              | .ok (w1, w2) => match decodeWords w0 w1 w2 with
                | .ok i => decide (i = .cmpSi ⟨0, false⟩ .lt 1 2 4) && (modeCheck q1.mode i).isNone
                | .error _ => false
              | .error _ => false)
           | _, _ => false)
        | .error _ => false
      | _ => false) = true) ∧
    (let s := State.reset.withFetchWord 32 0xFFFFFFFF
     let t0 := s.began (.seq 1 0)
     (match t0.seqTurn 1 0 with
      | .fetch rg q =>
        let t := t0.fetchAfter 1 0 rg q
        match enterSegment t rg ((t.seq? 1 0).getD q) with
        | .ok q1 =>
          let q2 := { q1 with prevTurn := q1.lastTurn, lastTurn := t.freeIx }
          match fetchAt (t.setSeq 1 0 q2) rg q2 with
          | .error _ => true
          | .ok _ => false
        | .error _ => false
      | _ => false) = true) ∧
    (let s := State.reset.withFetchWord 32 0x40004A00
     let t := s.began (.node 1 0 0)
     decide (s.agenda = [.node 1 0 0]) && decide (t.sec.boot ≠ .shutDown) && (match t.rg? 1 with
      | some rg => decide (rg.st = .running) && rg.live && (rg.nodes.get 0 {}).stopped.isNone && !(rg.nodes.get 0 {}).saved &&
        (match rg.nodeCfg 0 0 with
         | some (_, cfg) => !t.outranked 1 rg cfg.dune 0 && match cfg.instr? with
           | some (w0, w1, w2) => match decodeWords w0 w1 w2 with
             | .ok i => decide (i = .ingr { k := 1, c1 := 4, c2 := 0, t := 2 })
             | .error _ => false
           | none => false
         | none => false)
      | none => false) = true) ∧
    isEvent .supplyFault = true ∧ ({ State.reset with agenda := [.event .supplyFault] } : State).sec.boot ≠ .shutDown ∧
    (let s : State := { hostState probeCtx (devq []) with ports := List.replicate 16 { st := .up } }
     let i : Instr := .devInfo (cmdOf 0x01 false [])
     let v : Via := { port := 0, chan := 0, rod := false, num := 0, session := .management }
     (packetOf i).isSome = true ∧ ((s.began (.packet v i)).delivered v i).2 = true ∧
       (State.reset.began (.packet v i)).receive v = none) ∧
    (let s : State := { State.reset with agenda := [.mgmt (.run .nop)], sec := { boot := .running, mgmt := { stat := 128, halted := false, mgmt := true } } }
     let t := s.began (.mgmt (.run .nop))
     t.sec.boot ≠ .shutDown ∧ t.mgmtReady = true ∧ mgmtInstr t.sec.mgmt.mode .nop = some .nop ∧ ∃ u, exec .nop t.mgmtIn = .next u) ∧
    (let st : PendStore := { pa := 0x10000, va := 0, bytes := [1, 2, 3, 4], release := false, sys := false, chk := false }
     let q : Seq := { regsOf [] with stores := [st] }
     let s := { seatState (oneSeq q) with agenda := [.seq 1 0] }
     let t := s.began (.seq 1 0)
     q.xfer = false ∧ (match t.seqTurn 1 0 with
       | .fetch rg x => decide (st ∈ x.stores) && decide (x.xfer = false) &&
         (segPas t rg.core rg.ctx { base := x.pc, len := 3, pools := [] }).any (fun p => p.1 < st.pa + st.bytes.length && st.pa < p.1 + p.2)
       | _ => false) = true) := by
  refine ⟨by decide +kernel, by decide +kernel, by decide +kernel, rfl, by decide, ⟨by decide, by decide +kernel, by decide +kernel⟩,
    ⟨by decide +kernel, by decide +kernel, ?_, ?_⟩, rfl, by decide +kernel⟩
  · rfl
  · exact ⟨_, rfl⟩
theorem wit_StepKeepsMemoryForm : Safe State.reset := rfl

/-- What the host asks: a row's instruction is decoded, and step runs it first after reset. -/
theorem test_decodeTableWord :
    decodeTableWord 64 0x00000004_40010451 = some (.cmpSi ⟨0, false⟩ .lt 1 2 4) ∧
    decodeTableWord 32 0x40004A00 = some (.ingr { k := 1, c1 := 4, c2 := 0, t := 2 }) := by decide +kernel

/-! ### Small tests: results worked out in the spec, or by hand from its rules -/

/-- The worked accumulation of chapter 02: two orders under the default anchor, and both under an anchor of −200. RU is mode 2. -/
theorem test_worked_accumulation :
    let t0 : Dy := ⟨3, 10⟩
    let t1 : Dy := ⟨1, -200⟩
    let t2 : Dy := ⟨-3, 10⟩
    let sum := fun (a : Acc) (l : List Dy) => l.foldl Acc.add a
    let a := sum {} [t0, t1, t2]
    let b := sum {} [t1, t0, t2]
    let c := { anchor := -200, av := true : Acc }
    let d := sum c [t0, t1, t2]
    (sum {} [t0]).anchor = -149 ∧ (sum {} [t0]).v = 3 * 2 ^ 159 ∧ a.v = 0 ∧ a.inexact = true ∧ (a.drain 0x18 2 {} 0).1 = 0 ∧
    (sum {} [t1]).anchor = -360 ∧ (sum {} [t1]).v = 2 ^ 160 ∧ b.overflow = true ∧ (b.drain 0x18 2 {} 0).1 = 0x7F800000 ∧
    d = sum c [t1, t0, t2] ∧ d.v = 1 ∧ d.inexact = false ∧ (d.drain 0x18 2 {} 0).1 = 1 := by decide +kernel

/-- The next state of a lead whose registers are `q`, after one instruction. -/
def afterOne (q : Seq) (i : Instr) (f : Seq → Bool) (m : List (Nat × Nat) := []) : Bool :=
  match exec i (seatState (oneSeq q) m) with
  | .next t => match (t.rg? 1).bind (fun rg => rg.seqs[0]?) with
    | some q' => f q'
    | none => false
  | _ => false

/-- ADD wraps; the immediate is sign-extended; a source that is also the destination; pc moves by the words. -/
theorem test_add :
    (afterOne (regsOf [2 ^ 64 - 1, 2]) (.add ⟨0, false⟩ 1 1 2) (fun q => q.getG 1 = 1 && q.pc = 4) &&
     afterOne (regsOf [5]) (.addSi ⟨0, false⟩ 3 1 0xFFFFFFFF) (fun q => q.getG 3 = 4 && q.pc = 8)) = true := by decide +kernel
/-- Signed and unsigned comparison of −1 and 1. -/
theorem test_cmp :
    (afterOne (regsOf [2 ^ 64 - 1, 1]) (.cmp ⟨0, false⟩ .lt 3 1 2) (fun q => q.p.getLsbD 3) &&
     afterOne (regsOf [2 ^ 64 - 1, 1]) (.cmp ⟨0, false⟩ .ltu 3 1 2) (fun q => !q.p.getLsbD 3)) = true := by decide +kernel
/-- LD of I16 0xFFFE extends the sign; g0 is not written. -/
theorem test_ld :
    (afterOne (regsOf [8]) (.ld ⟨0, false⟩ .i16 2 (.base 1 4)) (fun q => decide (q.getG 2 = 2 ^ 64 - 2))
       [(12, 0xFFFE)]) = true := by decide +kernel
/-- A division by zero traps: EPC holds its address, pc is TVEC, INH is set. -/
theorem test_div_trap :
    afterOne { regsOf [7, 0] with pc := 64, tvec := 0x800, stat := 0x800 } (.div ⟨0, false⟩ false 3 1 2)
      (fun q => q.epc = 64 && q.pc = 0x800 && q.inh && q.getG 3 = 0) = true := by decide +kernel

end Sys2Proof
end

section
/-! Proofs of the family '00_scope.md': fields and masks of a word, special registers, and the machine after a cold
reset. -/
namespace Sys2Proof.Machine

/-! ### Fields and masks of a word -/

/-- A bit of a field is a bit of its word (R9). -/
theorem testBit_fld (x : W64) (lo w i : Nat) : (fld x lo w).testBit i = (decide (i < w) && x.getLsbD (lo + i)) := by
  simp only [fld, Nat.testBit_mod_two_pow, Nat.testBit_div_two_pow, BitVec.getLsbD, Nat.add_comm]

/-- A bit of a word into which a field was put: the field's inside it, the word's outside. -/
theorem getLsbD_putFld (x : W64) (lo w v : Nat) {i : Nat} (hi : i < 64) :
    (putFld x lo w v).getLsbD i = if lo ≤ i ∧ i < lo + w then v.testBit (i - lo) else x.getLsbD i := by
  have nested : x.toNat % 2 ^ lo + 2 ^ lo * (v % 2 ^ w) + 2 ^ (lo + w) * (x.toNat / 2 ^ (lo + w)) =
      2 ^ lo * (2 ^ w * (x.toNat / 2 ^ (lo + w)) + v % 2 ^ w) + x.toNat % 2 ^ lo := by
    rw [Nat.mul_add, ← Nat.mul_assoc, ← Nat.pow_add]; ac_rfl
  rw [putFld, BitVec.getLsbD_ofNat, nested, Nat.testBit_two_pow_mul_add _ (Nat.mod_lt _ (Nat.two_pow_pos lo)),
    Nat.testBit_two_pow_mul_add _ (Nat.mod_lt _ (Nat.two_pow_pos w))]
  by_cases below : i < lo
  · simp [hi, below, Nat.not_le.mpr below, BitVec.getLsbD]
  · by_cases inside : i < lo + w
    · have inField : i - lo < w := by omega
      simp [hi, below, inside, inField, Nat.le_of_not_lt below]
    · have above : ¬ i - lo < w := by omega
      have place : i - lo - w + (lo + w) = i := by omega
      simp [hi, below, inside, above, Nat.testBit_div_two_pow, place, BitVec.getLsbD]

/-- A bit of a blend: the written word's under the mask, the old word's elsewhere. -/
theorem getLsbD_blend (old m x : W64) (i : Nat) :
    (blend old m x).getLsbD i = if m.getLsbD i then x.getLsbD i else old.getLsbD i := by
  by_cases hi : i < 64
  · cases h : m.getLsbD i <;> simp [blend, BitVec.getLsbD_or, BitVec.getLsbD_and, h, hi, -BitVec.getLsbD_eq_getElem]
  · simp [BitVec.getLsbD_of_ge _ _ (Nat.le_of_not_lt hi)]

/-- PMODE's mask in STAT (R116). -/
theorem getLsbD_pmodeMask : ∀ i < 64, (0x300 : W64).getLsbD i = decide (8 ≤ i ∧ i < 8 + 2) := by decide

/-- Putting another word's PMODE into a word is the blend of the two under PMODE's mask. -/
theorem putFld_pmode_eq_blend (x y : W64) : putFld x 8 2 (fld y 8 2) = blend x 0x300 y := by
  apply BitVec.eq_of_getLsbD_eq
  intro i hi
  rw [getLsbD_putFld x 8 2 _ hi, getLsbD_blend, getLsbD_pmodeMask i hi, testBit_fld]
  by_cases inside : 8 ≤ i ∧ i < 8 + 2
  · have inField : i - 8 < 2 := by omega
    have place : 8 + (i - 8) = i := by omega
    simp only [inside, inField, place, and_self, if_true, decide_true, Bool.true_and]
  · simp only [inside, if_false, decide_false, Bool.false_eq_true]

/-- STAT after a write, the PMODE of 3 that is ignored (R116) told as a blend. -/
theorem statWrite_eq (old m x : W64) :
    statWrite old m x =
      if fld (blend old (m &&& 0xF00) x) 8 2 = 3 then blend (blend old (m &&& 0xF00) x) 0x300 old
      else blend old (m &&& 0xF00) x := by
  simp only [statWrite, putFld_pmode_eq_blend]

/-! ### The machine after a cold reset -/

/-- At reset every core, listed or not, is as reset leaves it. -/
@[simp] theorem reset_core (c : Nat) : State.reset.core c = {} := rfl

/-- At reset every page of every core is as reset leaves it. -/
@[simp] theorem reset_page (c p : Nat) : State.reset.page c p = {} := by
  simp only [State.page, reset_core, List.getD_eq_getElem?_getD, List.getElem?_replicate]
  split <;> rfl

/-- At reset every port is as reset leaves it. -/
theorem eq_of_mem_reset_ports {p : Port} (h : p ∈ State.reset.ports) : p = {} := List.eq_of_mem_replicate h

/-- At reset M0 to M7 hold zero (R449). -/
theorem eq_zero_of_mem_reset_m {x : BitVec 384} (h : x ∈ State.reset.sec.m.toList) : x = 0 :=
  List.eq_of_mem_replicate (n := 8) h

end Sys2Proof.Machine

namespace Sys2Proof
open Machine

/-- An instruction that runs sees the state with pc already past it. -/
@[simp] theorem runAt_s (s : State) (r pg : Nat) (rg : Region) (q : Seq) (len : Nat) :
    (runAt s r pg rg q len).s = s.setSeq r pg (past q len) := rfl

/-- Settles O12: CSRR sets one register; CSRX and CSRW, which is as CSRX to g0, write the special register as each access
code says, of which only STAT's PMODE and ACS, the region's, are not plain blends. -/
theorem specialRegisters : Obligations.SpecialRegisters := by
  intro s r pg rg q g d ra n lsb wm1 x keep stat wrote val
  have stat_eq (m y : W64) : statWrite q.stat m y = stat m y := statWrite_eq q.stat m y
  have csrWrite_eq (d' : Reg) (v m y : W64) :
      Run.csrWrite { runAt s r pg rg q 2 with q := (past q 2).setG d' v } n m y = wrote ((past q 2).setG d' v) m y := by
    cases n with
    | stat => simp [Run.csrWrite, Run.set, wrote, stat_eq]
    | acs => rfl
    | _ => simp [Run.csrWrite, Run.set, wrote, keep, blend, past]
  refine ⟨fun able => ?_, fun able => ⟨?_, fun _ => ?_⟩⟩
  · simp [execCsrr, runSeq_able able, val]
  · rw [exec_csrw, execCsrw, runSeq_able able]
    have toG0 := csrWrite_eq 0#5 0 (BitVec.allOnes 64) x
    rw [Seq.setG_zero] at toG0
    exact congrArg Host.Outcome.next toG0
  · rw [exec_csrx, execCsrx, runSeq_able able]
    exact congrArg Host.Outcome.next (csrWrite_eq d _ _ (x <<< lsb.toNat))

/-- Settles O59, part by part of `State.reset`, which stands before the boot ROM starts (the model's choice,
notes/assumptions/105.md). -/
theorem resetState : Obligations.ResetState :=
  ⟨reset_mem_wf, rfl, fun c => by simp, fun c p _ => by simp,
    fun p h => by simp [eq_of_mem_reset_ports h], List.length_replicate, fun _ => eq_zero_of_mem_reset_m,
    rfl, rfl, rfl, rfl, rfl, rfl, rfl, rfl⟩

end Sys2Proof
end

section
/-! Proofs of the family '01_machine.md': whose turn a step is, and what that agent executes in it. -/
namespace Sys2Proof.Machine

/-! ### The turn at the head of the agenda moves -/

variable {s : State} {rest : List Turn}

theorem step_seq {r pg : Nat} (h : s.agenda = .seq r pg :: rest) (on : (s.began (.seq r pg)).sec.boot ≠ .shutDown) :
    step s = stepSeq (s.began (.seq r pg)) r pg := by
  simp [step, State.turn, h, on]

theorem step_node {r b n : Nat} (h : s.agenda = .node r b n :: rest)
    (on : (s.began (.node r b n)).sec.boot ≠ .shutDown) : step s = stepNode (s.began (.node r b n)) r b n := by
  simp [step, State.turn, h, on]

theorem step_event {i : Instr} (h : s.agenda = .event i :: rest) (isEv : isEvent i = true)
    (on : (s.began (.event i)).sec.boot ≠ .shutDown) : step s = execAs .none i (s.began (.event i)) := by
  simp [step, State.turn, h, on, isEv]

theorem step_packet {v : Via} {i : Instr} (h : s.agenda = .packet v i :: rest)
    (on : (s.began (.packet v i)).sec.boot ≠ .shutDown) :
    step s = if ((s.began (.packet v i)).delivered v i).2 then execAs .none i ((s.began (.packet v i)).delivered v i).1
      else .next ((s.began (.packet v i)).delivered v i).1 := by
  simp [step, State.turn, h, on]

theorem step_mgmt {m : MgmtTurn} (h : s.agenda = .mgmt m :: rest) (on : (s.began (.mgmt m)).sec.boot ≠ .shutDown) :
    step s = stepMgmt (s.began (.mgmt m)) m := by
  simp [step, State.turn, h, on]

/-- A packet that the transport does not take changes nothing (R421). -/
theorem delivered_of_receive_none {v : Via} (i : Instr) (h : s.receive v = none) : s.delivered v i = (s, false) := by
  rw [State.delivered, h]
  cases packetOf i <;> rfl

/-! ### What a sequencer fetches -/

theorem stepSeq_fetch {r pg : Nat} {rg : Region} {q : Seq} (h : s.seqTurn r pg = .fetch rg q) :
    stepSeq s r pg = execAs (.seq r pg) (s.fetch r pg rg q).2 (s.fetch r pg rg q).1 := by
  simp only [stepSeq, h]

/-- Words that pass checks 4 to 9 are the instruction they decode to (R109). -/
theorem decodeFetched_ok {mode w0 w1 w2 : Nat} {i : Instr} (noPool : w0 % 4 ≠ 3)
    (known : opClass (w0 / 4 % 256) ≠ .reserved) (noNode : opClass (w0 / 4 % 256) ≠ .node)
    (noFibre : opClass (w0 / 4 % 256) ≠ .fibre) (dec : decodeWords w0 w1 w2 = .ok i) (may : modeCheck mode i = none) :
    decodeFetched mode w0 w1 w2 = .ok i := by
  rw [decodeFetched, if_neg noPool]
  cases class_ : opClass (w0 / 4 % 256) <;> simp_all

/-- Words that pass checks 1 to 3 of R109 stand before checks 4 to 9. -/
theorem fetchAt_of_words {rg : Region} {q : Seq} {seg : Segment} {w0 w1 w2 : Nat} (aligned : q.pc.toNat % 4 = 0)
    (in_ : q.seg = some seg) (holds : seg.holds q.pc = true) (code : seg.inPool q.pc = false)
    (first : fetchWord s rg.core rg.ctx q.entered q.pc = .ok w0) (noPool : w0 % 4 ≠ 3)
    (later : laterWords s rg seg q.entered q.pc (w0 % 4) = .ok (w1, w2)) :
    fetchAt s rg q = decodeFetched q.mode w0 w1 w2 := by
  simp [fetchAt, aligned, in_, holds, code, first, noPool, later]

/-- The registers of a sequencer whose turn has come to fetch. -/
def Seq.turned (q : Seq) (now : Nat) : Seq := { q with prevTurn := q.lastTurn, lastTurn := now }

section Fetch
variable {r pg : Nat} {rg : Region} {q q1 : Seq} {t : State}

/-- A fetch whose checks pass gives the instruction, and its translation may be cached. -/
theorem fetch_ok {i : Instr} (after : s.fetchAfter r pg rg q = t)
    (entered : enterSegment t rg ((t.seq? r pg).getD q) = .ok q1)
    (at_ : fetchAt (t.setSeq r pg (q1.turned t.freeIx)) rg (q1.turned t.freeIx) = .ok i) :
    s.fetch r pg rg q = ((t.setSeq r pg (q1.turned t.freeIx)).cache rg.core rg.ctx q1.pc, i) := by
  subst after
  simp only [Seq.turned] at at_
  simp only [State.fetch, entered, at_, Seq.turned]

/-- A fetch that a check refuses is executed as its fault. -/
theorem fetch_error {e : FetchErr} (after : s.fetchAfter r pg rg q = t)
    (entered : enterSegment t rg ((t.seq? r pg).getD q) = .ok q1)
    (at_ : fetchAt (t.setSeq r pg (q1.turned t.freeIx)) rg (q1.turned t.freeIx) = .error e) :
    s.fetch r pg rg q = (t.setSeq r pg (q1.turned t.freeIx), .fetchFault e) := by
  subst after
  simp only [Seq.turned] at at_
  simp only [State.fetch, entered, at_, Seq.turned]

end Fetch

/-- A buffered store to the words at pc performs before they are fetched (R319). -/
theorem fetchAfter_eq_drain {r pg : Nat} {rg : Region} {q : Seq} {st : PendStore} (mem : st ∈ q.stores)
    (straight : q.xfer = false)
    (meets : ∃ p ∈ segPas s rg.core rg.ctx { base := q.pc, len := 3, pools := [] },
      p.1 < st.pa + st.bytes.length ∧ st.pa < p.1 + p.2) :
    s.fetchAfter r pg rg q = s.drain r pg := by
  have some_ : q.stores.isEmpty = false := List.isEmpty_eq_false_iff.mpr (List.ne_nil_of_mem mem)
  have hit : q.stores.any (fun st => (fetchPas s rg q).any
      (fun p => p.1 < st.pa + st.bytes.length && st.pa < p.1 + p.2)) = true :=
    List.any_eq_true.mpr ⟨st, mem, List.any_eq_true.mpr (by simpa [fetchPas, straight] using meets)⟩
  simp [State.fetchAfter, some_, hit]

/-! ### What a node and the management core execute -/

/-- A node that runs and to which its dune grants the lanes executes the instruction of its words (R187). -/
theorem nodeTurn_eq {r b n : Nat} {rg : Region} {blk : Block} {cfg : NodeCfg} {w0 w1 w2 : Nat} {i : Instr}
    (region : s.rg? r = some rg) (node : rg.nodeCfg b n = some (blk, cfg)) (runs : rg.st = .running ∨ rg.st = .draining)
    (live : rg.live = true) (goes : (rg.nodes.get (128 * b + n) {}).stopped = none)
    (here : (rg.nodes.get (128 * b + n) {}).saved = false) (granted : s.outranked r rg cfg.dune (128 * b + n) = false)
    (words : cfg.instr? = some (w0, w1, w2)) (dec : decodeWords w0 w1 w2 = .ok i) : s.nodeTurn r b n = some i := by
  simp only [State.nodeTurn, region, node, words, dec]
  simpa [live, goes, here, granted, Except.toOption] using runs.resolve_left

theorem stepMgmt_run {i j : Instr} {t : State} (ready : s.mgmtReady = true)
    (is : mgmtInstr s.sec.mgmt.mode i = some j) (runs : exec j s.mgmtIn = .next t) :
    stepMgmt s (.run i) = .next t.mgmtOut := by
  simp [stepMgmt, ready, is, runs]

end Sys2Proof.Machine

namespace Sys2Proof
open Machine

/-- Settles O56, agent by agent: the head of the agenda moves, and each agent executes what it has fetched, decoded or been
given. -/
theorem stepRunsDecoded : Obligations.StepRunsDecoded := by
  intro s
  refine ⟨?sequencer, ?node, ?event, ?packet, ?management, ?ownStores⟩
  case sequencer =>
    intro r pg rest rg q q1 head t0 t u on turn entered
    have runs : step s = execAs (.seq r pg) (t0.fetch r pg rg q).2 (t0.fetch r pg rg q).1 :=
      (step_seq head on).trans (stepSeq_fetch turn)
    refine ⟨fun seg w0 w1 w2 i aligned in_ holds code first noPool later known noNode noFibre dec may => ?_, fun e bad => ?_⟩
    · have ok : fetchAt u rg (q1.turned t.freeIx) = .ok i :=
        (fetchAt_of_words aligned in_ holds code first noPool later).trans
          (decodeFetched_ok noPool known noNode noFibre dec may)
      rw [runs, fetch_ok rfl entered ok]
      rfl
    · rw [runs, fetch_error rfl entered bad]
      rfl
  case node =>
    intro r b n rest rg blk cfg w0 w1 w2 i head t on region node runs live goes here granted words dec
    rw [step_node head on, stepNode, nodeTurn_eq region node runs live goes here granted words dec]
    rfl
  case event => exact fun i rest head isEv on => step_event head isEv on
  case packet =>
    intro v i rest head _ t on
    refine ⟨fun taken => ?_, fun refused => ?_⟩
    · rw [step_packet head on, if_pos taken]; rfl
    · rw [step_packet head on, delivered_of_receive_none i refused]; rfl
  case management =>
    intro i j t2 rest head t on ready is runs
    rw [step_mgmt head on, stepMgmt_run ready is runs]
  case ownStores =>
    intro r pg rg q st rest _ mem t0 t _ _ straight meets
    exact fetchAfter_eq_drain mem straight meets

end Sys2Proof
end

section
/-! Ports: commands of the management core on them, their events and the link status word (19 R423 to R427). -/
namespace Sys2Proof.Machine

variable {s : State} {m : Msg} {n : Nat} {p : Port}

/-! ### Commands and events -/

/-- A command on the device that passes the checks of R423 and R425 is carried out. -/
theorem devCmd_accepted {op k : Nat} (h : DevMsg s m op k) (f : State → State) :
    devCmd op (dwords k) m s f = .next (f s) := by
  simp [devCmd, h.running, h.opcode, h.accepted]

/-- A LINK command that is accepted and names a port acts on it. -/
theorem portCmd_accepted {op : Nat} (h : DevMsg s m op 1) (port : s.ports[(msgDw m 0).toNat]? = some p)
    (f : State → Nat → Port → State) : portCmd op m s f = .next (f s (msgDw m 0).toNat p) := by
  simp only [portCmd, devCmd_accepted h, port]

/-- The event of a port whose row applies changes that port. -/
theorem portEvent_some {f : Port → Option Port} {q : Port} (port : s.ports[n]? = some p) (row : f p = some q) :
    portEvent n s f = .next (s.setPort n q) := by
  simp only [portEvent, port, row]

/-- A port carries traffic in Up and in Degraded (R427). -/
theorem Port.carries_iff : p.carries = true ↔ p.st = .up ∨ p.st = .degraded := by
  simp [Port.carries]

/-- The counts of a millisecond that may have passed stand or begin anew (R426). -/
theorem aged_eq (p : Port) (past : Bool) :
    ∃ f l, ((f, l) = (p.ferr, p.llrr) ∨ (f, l) = (0, 0)) ∧ p.aged past = { p with ferr := f, llrr := l } := by
  cases past with
  | false => exact ⟨_, _, .inl rfl, rfl⟩
  | true => exact ⟨_, _, .inr rfl, rfl⟩

/-! ### The link status word (R426) -/

/-- A field of a word that is made of a number is the number's. -/
theorem fld_w64 (x : Nat) {lo w : Nat} (h : lo + w ≤ 64) : fld (w64 x) lo w = x / 2 ^ lo % 2 ^ w := by
  apply Nat.eq_of_testBit_eq
  intro i
  by_cases inside : i < w
  · have below : lo + i < 64 := by omega
    simp only [testBit_fld, w64, BitVec.getLsbD_ofNat, inside, below, Nat.testBit_mod_two_pow, Nat.testBit_div_two_pow,
      Nat.add_comm i lo, decide_true, Bool.true_and]
  · simp [testBit_fld, inside]

theorem code_lt (x : LinkSt) : x.code < 256 := by cases x <;> decide

/-- The word as the sum of its fields is cut into them again. -/
theorem fields_word (p : Port) (ll fe : Nat) :
    fld (p.word ll fe) 0 8 = p.st.code ∧ fld (p.word ll fe) 8 8 = p.tries % 256 ∧
    fld (p.word ll fe) 16 8 = p.lanes % 256 ∧ fld (p.word ll fe) 32 16 = min fe 65535 ∧
    fld (p.word ll fe) 48 16 = min ll 65535 := by
  have code := code_lt p.st
  simp only [Port.word, fld_w64, Nat.reduceAdd, Nat.reduceLeDiff, Nat.reducePow]
  omega

/-- LINK_STAT reads counts that are at most those kept, part of which may lie more than a millisecond back. -/
theorem linkWord_eq (s : State) (p : Port) : ∃ ll fe, ll ≤ p.llrr ∧ fe ≤ p.ferr ∧ s.linkWord p = p.word ll fe := by
  have atMost (b : Bool) (k kept : Nat) : (if b then kept else k % (kept + 1)) ≤ kept := by
    cases b with
    | false => exact Nat.le_of_lt_succ (Nat.mod_lt k kept.succ_pos)
    | true => exact Nat.le_refl kept
  exact ⟨_, _, atMost _ _ _, atMost _ _ _, rfl⟩

end Sys2Proof.Machine

namespace Sys2Proof
open Machine

/-- LINK_STAT answers with the link status word (R426). -/
theorem linkStat_answers {s : State} {m : Msg} {p : Port} (h : DevMsg s m 0x50 1)
    (port : s.ports[(msgDw m 0).toNat]? = some p) : ∃ ll fe, ll ≤ p.llrr ∧ fe ≤ p.ferr ∧
      exec (.linkStat m) s = .next (s.send (.response 0x50 m.tag 0 [p.word ll fe])) := by
  obtain ⟨ll, fe, hl, hf, word⟩ := linkWord_eq s p
  refine ⟨ll, fe, hl, hf, ?_⟩
  rw [exec_linkStat, execLinkStat, portCmd_accepted h port, State.reply, response, h.opcode, word]
  rfl

/-- LINK_ISOLATE isolates a port that is not (R427). -/
theorem linkIsolate_isolates {s : State} {m : Msg} {p : Port} (h : DevMsg s m 0x51 1)
    (port : s.ports[(msgDw m 0).toNat]? = some p) (there : p.st ≠ .isolated) :
    exec (.linkIsolate m) s = .next ((s.setPort (msgDw m 0).toNat p.isolate).ok m) := by
  rw [exec_linkIsolate, execLinkIsolate, portCmd_accepted h port, if_neg there]

/-- LINK_RESTORE begins the training of an isolated port, whose counts may begin anew (R427). -/
theorem linkRestore_trains {s : State} {m : Msg} {p : Port} (h : DevMsg s m 0x52 1)
    (port : s.ports[(msgDw m 0).toNat]? = some p) (isolated : p.st = .isolated) :
    ∃ f l, ((f, l) = (p.ferr, p.llrr) ∨ (f, l) = (0, 0)) ∧ exec (.linkRestore m) s =
      .next ((s.setPort (msgDw m 0).toNat { p.train 1 with ferr := f, llrr := l }).ok m) := by
  obtain ⟨f, l, counts, aged⟩ := aged_eq p (Config.choice (s.freeIx * 65536))
  refine ⟨f, l, counts, ?_⟩
  have restores : (p.st != .isolated) ≠ true := by simp [isolated]
  rw [exec_linkRestore, execLinkRestore, portCmd_accepted h port, if_neg restores, aged]
  rfl

section Events
variable {s : State} {n : Nat} {p : Port} (port : s.ports[n]? = some p)
include port

/-- R427: training begins at boot and when a Down port's timer has run. -/
theorem linkTrainingBegins :
    (s.sec.boot = .running → p.st = .down → p.timer = false →
      exec (.linkEnable n) s = .next (s.setPort n (p.train (p.tries + 1)))) ∧
    (p.st = .down → p.timer = true → exec (.linkRetryTimer n) s = .next (s.setPort n (p.train (p.tries + 1)))) := by
  refine ⟨fun run down still => ?_, fun down timer => ?_⟩
  · have runs : (s.sec.boot != .running) ≠ true := by simp [run]
    rw [exec_linkEnable, execLinkEnable, if_neg runs]
    exact portEvent_some port (by simp [down, still])
  · exact portEvent_some port (by simp [down, timer])

/-- R427: training ends with a number of lanes. -/
theorem linkTrainingEnds (training : p.st = .training) :
    exec (.linkTrainingEnd n 8) s = .next (s.setPort n { p with st := .up, lanes := 8, tries := 0 }) ∧
    (∀ l, 4 ≤ l → l < 8 → exec (.linkTrainingEnd n l) s = .next (s.setPort n { p with st := .degraded, lanes := l })) ∧
    (∀ l, l < 4 → p.tries < 3 → exec (.linkTrainingEnd n l) s = .next (s.setPort n (p.train (p.tries + 1)))) ∧
    (∀ l, l < 4 → 3 ≤ p.tries →
      exec (.linkTrainingEnd n l) s = .next (s.setPort n { p with st := .down, timer := true })) := by
  refine ⟨portEvent_some port (by simp [training]), fun l some_ few => portEvent_some port ?_,
    fun l none_ again => portEvent_some port ?_, fun l none_ last => portEvent_some port ?_⟩
  · have notAll : l ≠ 8 := by omega
    have within : ¬ 8 < l := by omega
    simp [training, notAll, within, some_]
  · have notAll : l ≠ 8 := by omega
    have within : ¬ 8 < l := by omega
    simp [training, notAll, within, Nat.not_le.mpr none_, again]
  · have notAll : l ≠ 8 := by omega
    have within : ¬ 8 < l := by omega
    simp [training, notAll, within, Nat.not_le.mpr none_, Nat.not_lt.mpr last]

/-- R427: lanes fail in a port that carries traffic. -/
theorem linkLanesFail (l : Nat) (fewer : l < p.lanes) :
    (p.st = .up → 4 ≤ l → exec (.linkLaneFail n l) s = .next (s.setPort n { p with st := .degraded, lanes := l })) ∧
    (p.st = .up → l < 4 → exec (.linkLaneFail n l) s = .next (s.setPort n (p.train p.tries))) ∧
    (p.st = .degraded → exec (.linkLaneFail n l) s = .next (s.setPort n (p.train p.tries))) := by
  have lost : ¬ p.lanes ≤ l := Nat.not_le.mpr fewer
  refine ⟨fun up some_ => portEvent_some port ?_, fun up few => portEvent_some port ?_,
    fun degraded => portEvent_some port ?_⟩
  · simp [Port.carries, up, lost, some_]
  · simp [Port.carries, up, lost, Nat.not_le.mpr few]
  · simp [Port.carries, degraded, lost]

/-- R427: a port that loses more than 16 frames in a millisecond is isolated. -/
theorem linkFerrIsolates (there : p.st ≠ .isolated) (many : 16 < p.ferr) :
    exec (.linkFerrIsolate n) s = .next (s.setPort n p.isolate) :=
  portEvent_some port (by simp [there, Nat.not_le.mpr many])

/-- R426: replays and lost frames are counted by the millisecond. -/
theorem linkLossesCount (carries : p.st = .up ∨ p.st = .degraded) :
    ∃ f l, ((f, l) = (p.ferr, p.llrr) ∨ (f, l) = (0, 0)) ∧
      exec (.linkLevelRetry n true) s = .next (s.setPort n { p with ferr := min 65535 (f + 1), llrr := l }) ∧
      exec (.linkLevelRetry n false) s = .next (s.setPort n { p with ferr := f, llrr := min 65535 (l + 1) }) := by
  obtain ⟨f, l, counts, aged⟩ := aged_eq p (Config.choice (s.freeIx * 65536))
  have still : ({ p with ferr := f, llrr := l } : Port).carries = true := Port.carries_iff.mpr carries
  exact ⟨f, l, counts, portEvent_some port (by simp [aged, still]),
    portEvent_some port (by simp [aged, still])⟩

end Events

/-- The part of O55 on ports. -/
theorem links : Statements.Links := by
  refine ⟨?commands, ?events⟩
  case commands =>
    intro s m p n port ok
    refine ⟨fun h => ?_, fun h there => linkIsolate_isolates h port there,
      fun h isolated => linkRestore_trains h port isolated⟩
    obtain ⟨ll, fe, hl, hf, answers⟩ := linkStat_answers h port
    exact ⟨ll, fe, hl, hf, answers, fields_word p ll fe⟩
  case events =>
    intro s n p port now train
    obtain ⟨enable, retry⟩ := linkTrainingBegins port
    exact ⟨enable, retry, linkTrainingEnds port, linkLanesFail port, linkFerrIsolates port, linkLossesCount port, rfl⟩

end Sys2Proof
end

section
/-! Identity: what the end of a context leaves alone, attestation, lifecycle, debug unlock, boot and resets (21 R447 to
R454; 01 R24). -/
namespace Sys2Proof.Machine

/-! ### The loss of a context leaves identity alone -/

variable {α : Type}

/-- What no step of a fold changes, the fold does not change. -/
theorem foldl_sec {f : State → α → State} (h : ∀ s x, (f s x).sec = s.sec) (l : List α) (s : State) :
    (l.foldl f s).sec = s.sec := by
  induction l generalizing s with
  | nil => rfl
  | cons x l ih => rw [List.foldl_cons, ih, h]

@[simp] theorem State.freePages_sec (s : State) (core first n : Nat) : (s.freePages core first n).sec = s.sec :=
  foldl_sec (f := fun s i => s.setPage core (first + i) _) (fun _ _ => rfl) _ s

@[simp] theorem State.freeClones_sec (s : State) (r : Nat) : (s.freeClones r).sec = s.sec := by
  unfold State.freeClones
  split
  · rfl
  · exact foldl_sec (fun s _ => foldl_sec (fun s _ => s.freePages_sec _ _ _) _ s) _ s

@[simp] theorem State.freeOpers_sec (s : State) (rg : Region) : (s.freeOpers rg).sec = s.sec := by
  refine foldl_sec (fun s e => ?_) _ s
  split
  · rfl
  · split
    · rfl
    · exact s.freePages_sec _ _ _

@[simp] theorem State.stopRegion_sec (s : State) (r : Nat) : (s.stopRegion r).sec = s.sec := by
  unfold State.stopRegion
  split
  · rfl
  · split <;> simp

@[simp] theorem State.dropMove_sec (s : State) (p : Nat → Bool) : (s.dropMove p).sec = s.sec := by
  unfold State.dropMove
  split
  · rfl
  · split
    · rfl
    · split <;> simp

@[simp] theorem State.write_sec (s : State) (key : MemKey) (a : Nat) (l : List Byte) : (s.write key a l).sec = s.sec := rfl

@[simp] theorem State.wakePort_sec (s : State) : s.wakePort.sec = s.sec := by
  unfold State.wakePort
  split <;> rfl

@[simp] theorem State.devStore_sec (s : State) (x : DevStore) : (s.devStore x).sec = s.sec := by
  refine foldl_sec (fun s p => ?_) _ s
  dsimp only
  split
  · rfl
  · split <;> split <;> simp [State.setTag, State.setFmt]
  · simp

@[simp] theorem State.stop_sec (s : State) (c : Nat) (st : CtxState) (why : StopWhy) : (s.stop c st why).sec = s.sec := by
  unfold State.stop
  split
  · rfl
  · simp only [foldl_sec State.devStore_sec, State.setCtx_sec, foldl_sec State.stopRegion_sec, State.dropMove_sec]

@[simp] theorem State.lose_sec (s : State) (c : Nat) (why : StopWhy) : (s.lose c why).sec = s.sec := by
  unfold State.lose
  split
  · rfl
  · split <;> simp

/-- Once all keys are zeroed, no context holds one (R344). -/
theorem keys_of_mem_zeroKeys {s : State} {e : Nat × Ctx} (h : e ∈ (s.zeroKeys (fun _ => true)).ctxs) : e.2.keys = [] := by
  obtain ⟨x, -, rfl⟩ := List.mem_map.mp h
  rfl

/-! ### Requests to the responder (R450 to R453) -/

section Responder
variable {s : State} (run : s.sec.boot = .running)
include run

theorem spdm_running (life : s.sec.life ≠ .decommissioned) (k : State → State) : spdm s k = .next (k s) := by
  simp [spdm, run, life]

/-- A Decommissioned device refuses (R452). -/
theorem spdm_decommissioned (life : s.sec.life = .decommissioned) (k : State → State) :
    spdm s k = .next (s.send (.refusal 3)) := by
  simp [spdm, run, life, stSTATE]

theorem lifecycleReq_some (life : s.sec.life ≠ .decommissioned) {f : Security → Option Security} {x : Security}
    (grants : f s.sec = some x) : lifecycleReq s f = .next (({ s with sec := x } : State).send (.lifecycle true)) := by
  simp only [lifecycleReq, spdm_running run life, grants]

theorem lifecycleReq_none (life : s.sec.life ≠ .decommissioned) {f : Security → Option Security}
    (refuses : f s.sec = none) : lifecycleReq s f = .next (s.send (.lifecycle false)) := by
  simp only [lifecycleReq, spdm_running run life, refuses]

end Responder

end Sys2Proof.Machine

namespace Sys2Proof
open Machine

section Requests
variable {s : State} (run : s.sec.boot = .running) (life : s.sec.life ≠ .decommissioned)
include run life

/-- The responder's answers to the requests of SPDM (R450). -/
theorem spdm_answers (tag : Nat) (nonce : List Byte) :
    let y := s.sec
    let say := fun (l : List Byte) => l ++ signWith y.aliasKey l
    exec (.getDigests tag) s = .next (s.send (.spdm tag (digestBytes (sha384 y.chain)))) ∧
    exec (.getCertificate tag) s = .next (s.send (.spdm tag y.chain)) ∧
    exec (.challenge tag nonce) s =
      .next (s.send (.spdm tag (say (digestBytes (sha384 y.chain) ++ y.measured 8 ++ nonce)))) ∧
    exec (.getMeasurements tag nonce) s = .next (s.send (.spdm tag (say (y.measured 8 ++ nonce)))) ∧
    exec (.getVersion tag) s = .next (s.send (.spdm tag (leBytes 2 0x1300))) ∧
    exec (.getCapabilities tag) s = .next (s.send (.spdm tag (leBytes 4 0x16))) ∧
    exec (.negotiateAlgorithms tag) s = .next (s.send (.spdm tag (leBytes 4 2 ++ Config.extAlgorithm))) := by
  simp only [exec_getDigests, execGetDigests, exec_getCertificate, execGetCertificate, exec_challenge, execChallenge,
    exec_getMeasurements, execGetMeasurements, exec_getVersion, execGetVersion, spdmVersion, exec_getCapabilities,
    execGetCapabilities, spdmCapabilities, exec_negotiateAlgorithms, execNegotiateAlgorithms, spdmAlgorithms,
    spdm_running run life, and_self]

/-- A fresh nonce has 32 bytes (R453). -/
theorem dbgNonce_draws : ∃ l, exec .dbgNonce s =
    .next (({ s with sec := { s.sec with nonce := some l } } : State).send (.spdm 0 l)) ∧ l.length = 32 := by
  refine ⟨(Config.freeBytes s.freeIx ++ List.replicate 32 0).take 32, ?_, by simp⟩
  rw [exec_dbgNonce, execDbgNonce, spdm_running run life]

/-! #### Lifecycle -/

theorem provision_granted {x : Signed} (new : s.sec.life = .manufacture)
    (key : sha384 x.key = Config.manufacturingDigest) (signed : ecdsaVerify x.key x.data x.sig = true)
    (long : 48 ≤ x.data.length) :
    exec (.provision x) s = .next (({ s with sec := ({ s.sec with
      life := .provisioned, teleAddr := x.data.drop 48
      ownerDigest := some (.ofNat 384 (beNat (x.data.take 48))) } : Security).extendM3.extendM4 } : State).send
        (.lifecycle true)) := by
  rw [exec_provision, execProvision, lifecycleReq_some run life]
  simp [new, signedUnder, key, signed, long]

theorem provision_refused (x : Signed) (old : s.sec.life ≠ .manufacture) :
    exec (.provision x) s = .next (s.send (.lifecycle false)) := by
  rw [exec_provision, execProvision, lifecycleReq_none run life]
  simp [old]

theorem setNode_granted {x : Signed} {node : BitVec 16} (at_ : s.sec.life = .provisioned)
    (owner : s.sec.owned x (1 :: leBytes 2 node.toNat) = true) :
    exec (.setNode x node) s = .next (({ s with
      sec := ({ s.sec with nodeId := some node, nonce := none } : Security).extendM4 } : State).send (.lifecycle true)) := by
  have grants : (decide (s.sec.life = .provisioned) && s.sec.owned x (1 :: leBytes 2 node.toNat)) = true := by
    rw [owner, decide_eq_true at_, Bool.and_self]
  rw [exec_setNode, execSetNode, lifecycleReq_some run life (if_pos grants)]

theorem deploy_granted {x : Signed} (at_ : s.sec.life = .provisioned) (named : s.sec.nodeId.isSome = true)
    (owner : s.sec.owned x [2] = true) :
    exec (.deploy x) s = .next (({ s with
      sec := ({ s.sec with life := .deployed, nonce := none } : Security).extendM3 } : State).send (.lifecycle true)) := by
  have grants : (decide (s.sec.life = .provisioned) && s.sec.nodeId.isSome && s.sec.owned x [2]) = true := by
    rw [owner, named, decide_eq_true at_, Bool.and_self, Bool.and_self]
  rw [exec_deploy, execDeploy, lifecycleReq_some run life (if_pos grants)]

theorem deploy_refused (x : Signed) (elsewhere : s.sec.life ≠ .provisioned) :
    exec (.deploy x) s = .next (s.send (.lifecycle false)) := by
  rw [exec_deploy, execDeploy, lifecycleReq_none run life]
  simp [elsewhere]

/-- DECOMMISSION wipes the keys and the seed; memory's bytes stand, unreadable under any key (R344, R451). -/
theorem decommission_granted {x : Signed} (owner : s.sec.owned x [3] = true) :
    ∃ t, exec (.decommission x) s = .next t ∧ t.sec.life = .decommissioned ∧
      t.sec.seed = false ∧ t.sec.nonce = none ∧ (∀ e ∈ t.ctxs, e.2.keys = []) ∧ t.mem = s.mem := by
  refine ⟨?next, ?runs, ?_, ?_, ?_, ?keys, ?_⟩
  case runs => rw [exec_decommission, execDecommission, spdm_running run life, if_pos owner]
  case keys => exact fun e => keys_of_mem_zeroKeys (s := s)
  all_goals rfl

theorem decommission_refused {x : Signed} (other : s.sec.owned x [3] = false) :
    exec (.decommission x) s = .next (s.send (.lifecycle false)) := by
  have refused : ¬ s.sec.owned x [3] = true := by rw [other]; exact Bool.false_ne_true
  rw [exec_decommission, execDecommission, spdm_running run life, if_neg refused]

/-! #### Debug unlock -/

theorem dbgUnlock_badToken {t : List Byte} (bad : s.sec.tokenOk t = false) :
    exec (.dbgUnlock t) s = .next (s.send (.lifecycle false)) := by
  rw [exec_dbgUnlock, execDbgUnlock, spdm_running run life]
  simp [bad]

/-- A valid token in a state without the transition is refused and consumes the nonce (R451, R453). -/
theorem dbgUnlock_badState {t : List Byte} (good : s.sec.tokenOk t = true) (notProv : s.sec.life ≠ .provisioned)
    (notDepl : s.sec.life ≠ .deployed) : exec (.dbgUnlock t) s =
      .next (({ s with sec := { s.sec with nonce := none } } : State).send (.lifecycle false)) := by
  rw [exec_dbgUnlock, execDbgUnlock, spdm_running run life]
  simp [good, notProv, notDepl]

/-- The unlock is fused and no context holds a key (R454). -/
theorem dbgUnlock_granted {t : List Byte} (good : s.sec.tokenOk t = true)
    (from_ : s.sec.life = .provisioned ∨ s.sec.life = .deployed) :
    ∃ u, exec (.dbgUnlock t) s = .next u ∧ u.sec.life = .debugUnlocked ∧ u.sec.unlockFrom = s.sec.life ∧
      u.sec.unlocks = s.sec.unlocks + 1 ∧ u.sec.nonce = none ∧ (∀ e ∈ u.ctxs, e.2.keys = []) := by
  have valid : ¬ (!s.sec.tokenOk t) = true := by simp [good]
  have may : ¬ (!(decide (s.sec.life = .provisioned) || decide (s.sec.life = .deployed))) = true := by
    simpa using from_.resolve_left
  let fused : Security := { s.sec with unlocks := s.sec.unlocks + 1, unlockFrom := s.sec.life, nonce := none }
  let lost : State := (s.ctxs.map (·.1)).foldl (fun (s : State) c => s.lose c .unlock) { s with sec := fused }
  have kept : lost.sec = fused := foldl_sec (fun s c => s.lose_sec c .unlock) _ _
  refine ⟨?next, ?runs, ?life, ?from_, ?count, ?nonce, ?keys⟩
  case runs => rw [exec_dbgUnlock, execDbgUnlock, spdm_running run life, if_neg valid, if_neg may]
  case life => rfl
  case from_ => exact congrArg Security.unlockFrom kept
  case count => exact congrArg Security.unlocks kept
  case nonce => exact congrArg Security.nonce kept
  case keys => exact fun e => keys_of_mem_zeroKeys (s := lost)

end Requests

/-- In Decommissioned the responder refuses (R452). -/
theorem decommissioned_refuses {s : State} {tag : Nat} {i : Instr} (run : s.sec.boot = .running)
    (life : s.sec.life = .decommissioned)
    (request : i = .getVersion tag ∨ i = .getDigests tag ∨ i = .getCertificate tag ∨ i = .dbgNonce) :
    exec i s = .next (s.send (.refusal 3)) := by
  rcases request with rfl | rfl | rfl | rfl <;>
    simp only [exec_getVersion, execGetVersion, exec_getDigests, execGetDigests, exec_getCertificate, execGetCertificate,
      exec_dbgNonce, execDbgNonce, spdm_decommissioned run life]

/-! ### Boot and resets -/

/-- The slot takes a packet; the last one is followed by the check (R448). -/
theorem bootImagePacket_eq {s : State} {off : Nat} {data : List Byte} (waits : s.sec.boot = .streaming)
    (fits : data.length ≤ 4096) :
    let x : Security := { s.sec with image := slotWrite s.sec.image off data }
    exec (.bootImagePacket off data false) s = .next { s with sec := x } ∧
    (x.imageOk = true → exec (.bootImagePacket off data true) s = .next { s with sec := x.bootFalim }) ∧
    (x.imageOk = false →
      exec (.bootImagePacket off data true) s = .next { s with sec := { x with boot := .streaming, image := [] } }) := by
  intro x
  have taken : ¬ (s.sec.boot != .streaming || decide (4096 < data.length)) = true := by simp [waits, fits]
  have last : exec (.bootImagePacket off data true) s =
      .next { s with sec := if x.check.boot = .running then x.check else { x.check with image := [] } } := by
    rw [exec_bootImagePacket, execBootImagePacket, if_neg taken]
    rfl
  refine ⟨?_, fun ok => ?_, fun bad => ?_⟩
  · rw [exec_bootImagePacket, execBootImagePacket, if_neg taken]
    rfl
  · have check : x.check = x.bootFalim := if_pos ok
    rw [last, check]
    rfl
  · have check : x.check = { x with boot := .streaming } := if_neg (by rw [bad]; exact Bool.false_ne_true)
    rw [last, check]
    rfl

/-- A cold reset keeps fuses, recorded remaps and spares, and the ROM starts (R411, R448). -/
theorem coldReset_eq (s : State) : ∃ t, exec .coldReset s = .next t ∧ t.mem = [] ∧ t.ctxs = [] ∧ t.regions = [] ∧
    t.sec = s.sec.romStart ∧ (∀ e ∈ t.cores, e.2.cyc = 0 ∧ ∃ f ∈ s.cores, f.1 = e.1 ∧ e.2.spLeft = f.2.spLeft ∧
      e.2.pages.map (·.remap) = f.2.pages.map (·.remap)) := by
  refine ⟨_, rfl, rfl, rfl, rfl, rfl, fun e he => ?_⟩
  obtain ⟨f, hf, rfl⟩ := List.mem_map.mp he
  exact ⟨rfl, f, hf, rfl, rfl, by simp⟩

/-- A warm reset keeps memory and the cycle counters, whichever of its two outcomes the device chooses (R24). -/
theorem warmReset_eq (s : State) : ∃ t, exec .warmReset s = .next t ∧ t.mem = s.mem ∧
    (∀ e ∈ t.cores, ∃ f ∈ s.cores, f.1 = e.1 ∧ e.2.cyc = f.2.cyc) := by
  refine ⟨_, rfl, ?_⟩
  split
  · exact ⟨rfl, fun e he => ⟨e, he, rfl, rfl⟩⟩
  · refine ⟨rfl, fun e he => ?_⟩
    obtain ⟨f, hf, rfl⟩ := List.mem_map.mp he
    exact ⟨f, hf, rfl, rfl⟩

/-- The part of O55 on identity. -/
theorem identity : Statements.Identity := by
  refine ⟨?responder, fun s tag i run life => decommissioned_refuses run life,
    fun s off data => bootImagePacket_eq, coldReset_eq, warmReset_eq⟩
  case responder =>
    intro s run life y say
    refine ⟨spdm_answers run life, dbgNonce_draws run life, ?lifecycle, fun t => ⟨dbgUnlock_badToken run life,
      dbgUnlock_badState run life, dbgUnlock_granted run life⟩⟩
    case lifecycle =>
      intro x done no
      exact ⟨provision_granted run life, provision_refused run life x, fun node => setNode_granted run life,
        deploy_granted run life, deploy_refused run life x, decommission_granted run life, decommission_refused run life⟩

end Sys2Proof
end

section
/-! Power states, thermal and supply limits, and the package's services (14 R366; 21 R455 to R458). -/
namespace Sys2Proof
open Machine

variable {s : State}

/-! ### Power states (R366, R455) -/

/-- A stack in self-refresh was so before, or it is not retraining and every core is as deep as self-refresh (R455). -/
theorem mem_sleepUnits_selfRefresh {k : Nat} (h : k ∈ s.sleepUnits.selfRefresh) :
    k ∈ s.selfRefresh ∨ (s.allAt .selfRefresh = true ∧ k < 12 ∧ k ∉ s.retraining) := by
  simp only [State.sleepUnits] at h
  split at h
  · exact .inl h
  · next deep =>
    obtain ⟨stack, chosen⟩ := List.mem_filter.mp h
    rcases Bool.or_eq_true_iff.mp chosen with asleep | dozes
    · exact .inl (by simpa using asleep)
    · simp only [Bool.and_eq_true, Bool.not_eq_true', List.contains_eq_mem, decide_eq_false_iff_not] at dozes
      exact .inr ⟨by simpa using deep, List.mem_range.mp stack, dozes.1.1⟩

/-- A port is as it was, or it carries traffic, every core is in LinkLow, and it enters its low-power mode. -/
theorem sleepUnits_port {n : Nat} {p : Port} (h : s.sleepUnits.ports[n]? = some p) :
    s.ports[n]? = some p ∨
      ∃ q, s.ports[n]? = some q ∧ p = { q with low := true } ∧ s.allAt .linkLow = true ∧ q.carries = true := by
  simp only [State.sleepUnits] at h
  split at h
  · exact .inl h
  · next deep =>
    rw [List.getElem?_map] at h
    obtain ⟨⟨k, q⟩, there, rfl⟩ := Option.map_eq_some_iff.mp h
    have port : s.ports[n]? = some q := (List.getElem?_zip_eq_some.mp there).2
    dsimp only
    split
    · next chosen => exact .inr ⟨q, port, rfl, by simpa using deep, (Bool.and_eq_true_iff.mp chosen).1⟩
    · exact .inl port

/-- A core of the package (R12). -/
theorem not_coreCount_le {core : Nat} (there : core < 192) : ¬ coreCount ≤ core := Nat.not_le.mpr there

/-- A core that may sleep enters the deepest state its tolerances allow; stacks and ports may follow. -/
theorem powerStateEnter_eq {core : Nat} (there : core < 192) (awake : (s.core core).waking = false)
    (idle : s.idle core = true) :
    let d := s.deepest core
    let s1 := if (s.core core).power = d then s else s.report (.power core d)
    exec (.powerStateEnter core) s = .next (s1.setCore core { s.core core with power := d }).sleepUnits := by
  have may : ¬ (decide (coreCount ≤ core) || !s.idle core || (s.core core).waking) = true := by
    simp [awake, idle, not_coreCount_le there]
  rw [exec_powerStateEnter, execPowerStateEnter, if_neg may]

theorem powerStateWake_eq {core : Nat} (there : core < 192) (asleep : (s.core core).power ≠ .active)
    (due : (s.core core).waking = true ∨ (s.deepest core).depth < (s.core core).power.depth) :
    exec (.powerStateWake core) s =
      .next ((s.setCore core { s.core core with power := .active, waking := false }).report (.power core .active)) := by
  have may : ¬ (decide (coreCount ≤ core) || decide ((s.core core).power = .active) ||
      !((s.core core).waking || decide ((s.deepest core).depth < (s.core core).power.depth))) = true := by
    rcases due with due | due <;> simp [not_coreCount_le there, asleep, due]
  rw [exec_powerStateWake, execPowerStateWake, if_neg may]

/-! ### Limits (R456) -/

theorem any_carries_iff (s : State) : s.ports.any Port.carries = true ↔ ∃ p ∈ s.ports, p.st = .up ∨ p.st = .degraded := by
  simp only [List.any_eq_true, Port.carries_iff]

/-- The package shuts down as at a cold reset; where a port carries traffic the crossings are reported. -/
theorem shutDown_eq (s : State) (l : List TeleRec) :
    (s.shutDown l).sec.boot = .shutDown ∧ (s.shutDown l).mem = [] ∧ (s.shutDown l).regions = [] ∧
    (s.sec.boot = .running → (∃ p ∈ s.ports, p.st = .up ∨ p.st = .degraded) →
      (s.shutDown l).sent = s.sent ++ l.map Sent.telemetry) := by
  simp only [State.shutDown]
  refine ⟨?boot, ?mem, ?regions, fun run port => ?_⟩
  case boot => split <;> rfl
  case mem => split <;> rfl
  case regions => split <;> rfl
  · rw [if_pos (by simp [run, (any_carries_iff s).mpr port])]
    rfl

theorem thermalSensing_shutsDown {temps : List Int} (hot : ∃ t ∈ temps, (110 : Int) ≤ t) :
    exec (.thermalSensing temps) s =
      .next (s.shutDown (if s.throttle then [.thermal 110 true] else [.thermal 100 true, .thermal 110 true])) := by
  have exceeds : temps.any (fun t => decide (110 ≤ t)) = true := by simpa using hot
  rw [exec_thermalSensing, execThermalSensing, if_pos exceeds]
  cases s.throttle <;> rfl

theorem thermalSensing_throttles {temps : List Int} (below : ∀ t ∈ temps, t < (110 : Int))
    (warm : ∃ t ∈ temps, (100 : Int) < t) (free : s.throttle = false) :
    exec (.thermalSensing temps) s = .next { s.report (.thermal 100 true) with throttle := true } := by
  have notOver : ¬ temps.any (fun t => decide (110 ≤ t)) = true := by simpa using below
  have exceeds : temps.any (fun t => decide (100 < t)) = true := by simpa using warm
  rw [exec_thermalSensing, execThermalSensing, if_neg notOver, if_pos exceeds, if_neg (by simp [free])]

theorem thermalSensing_releases {temps : List Int} (cool : ∀ t ∈ temps, t < (95 : Int)) (gated : s.throttle = true) :
    exec (.thermalSensing temps) s = .next { s.report (.thermal 95 false) with throttle := false } := by
  have below {k : Int} (hk : 95 ≤ k) (t : Int) (ht : t ∈ temps) : t < k := Int.lt_of_lt_of_le (cool t ht) hk
  have notOver : ¬ temps.any (fun t => decide (110 ≤ t)) = true := by simpa using below (k := 110) (by decide)
  have notWarm : ¬ temps.any (fun t => decide (100 < t)) = true := by
    simpa using fun t ht => Int.le_of_lt (below (k := 100) (by decide) t ht)
  have released : (s.throttle && temps.all (fun t => decide (t < 95))) = true := by simpa [gated] using cool
  rw [exec_thermalSensing, execThermalSensing, if_neg notOver, if_neg notWarm, if_pos released]

/-! ### Services (R457, R458) -/

/-- A count over 24 hours is at least the errors met now and at most those with all that were counted before. -/
theorem counted_bounds (s : State) (old : Nat) : s.errors ≤ s.counted old ∧ s.counted old ≤ old + s.errors := by
  have recent : Config.pick (s.freeIx * 65536 + 2) % (old + 1) < old + 1 := Nat.mod_lt _ old.succ_pos
  simp only [State.counted]
  omega

section Scrub
variable {stack sector : Nat} (there : installed (64 * sector) = true) (home : homeStack (64 * sector) = stack)
include there home

/-- A patrol scrub is put off while a window is open; whether the delay is recorded is free (R458). -/
theorem hbmPatrolScrub_delays (window : s.windowOpen = true) :
    exec (.hbmPatrolScrub stack sector) s = .next s ∨
      exec (.hbmPatrolScrub stack sector) s = .next (s.report (.delay stack)) := by
  have runs : exec (.hbmPatrolScrub stack sector) s = .next (s.delayed stack) := by
    simp [exec_hbmPatrolScrub, execHbmPatrolScrub, there, home, window]
  rw [runs, State.delayed]
  split
  · exact .inr rfl
  · exact .inl rfl

theorem hbmPatrolScrub_counts (closed : s.windowOpen = false) (awake : s.quiesced (64 * sector) = false) :
    let k := rowKey stack (Config.rowOf sector)
    ∃ n c, n ≤ c ∧ c ≤ s.rowErrs.get k 0 + n ∧ exec (.hbmPatrolScrub stack sector) s =
      .next ((({ s with rowErrs := s.rowErrs.store k c 0 } : State).rouse sector).corrected n) := by
  intro k
  obtain ⟨low, high⟩ := counted_bounds s (s.rowErrs.get k 0)
  refine ⟨s.errors, s.counted (s.rowErrs.get k 0), low, high, ?_⟩
  simp [exec_hbmPatrolScrub, execHbmPatrolScrub, there, home, closed, awake, k]

end Scrub

theorem sramScrub_counts {core : Nat} (closed : s.windowOpen = false) (there : core < 192) :
    ∃ n, exec (.sramScrub core) s = .next (s.corrected n) ∨
      ∃ d c, d < 96 ∧ n ≤ c ∧ c ≤ (s.core core).wear.get d 0 + n ∧ exec (.sramScrub core) s =
        .next ((s.setCore core { s.core core with wear := (s.core core).wear.store d c 0 }).corrected n) := by
  have may : ¬ (s.windowOpen || decide (coreCount ≤ core)) = true := by simp [closed, not_coreCount_le there]
  refine ⟨s.errors, ?_⟩
  rw [exec_sramScrub, execSramScrub, if_neg may]
  by_cases dune : Config.pick (s.freeIx * 65536 + 1) % 98 < 96
  · obtain ⟨low, high⟩ := counted_bounds s ((s.core core).wear.get (Config.pick (s.freeIx * 65536 + 1) % 98) 0)
    exact .inr ⟨_, _, dune, low, high, by simp only [dune, if_true]⟩
  · exact .inl (by simp only [dune, if_false])

theorem hbmRetraining_starts {stack : Nat} (closed : s.windowOpen = false) (there : stack < 12)
    (new : stack ∉ s.retraining) : exec (.hbmRetraining stack) s =
      .next { s with retraining := s.retraining ++ [stack], selfRefresh := s.selfRefresh.filter (· != stack) } := by
  have may : ¬ (s.windowOpen || decide (12 ≤ stack) || s.retraining.contains stack) = true := by
    simp [closed, Nat.not_le.mpr there, new]
  rw [exec_hbmRetraining, execHbmRetraining, if_neg may]

theorem hbmRowRepair_starts {stack row : Nat} (closed : s.windowOpen = false) (there : stack < 12)
    (new : (stack, row) ∉ s.repairing) (worn : 4 ≤ s.rowErrs.get (rowKey stack row) 0) :
    exec (.hbmRowRepair stack row) s = .next { s with
      repairing := s.repairing ++ [(stack, row)], selfRefresh := s.selfRefresh.filter (· != stack) } := by
  have may : ¬ (s.windowOpen || decide (12 ≤ stack) || s.repairing.contains (stack, row) ||
      decide (s.rowErrs.get (rowKey stack row) 0 < 4)) = true := by
    simp [closed, Nat.not_le.mpr there, new, Nat.not_lt.mpr worn]
  rw [exec_hbmRowRepair, execHbmRowRepair, if_neg may]

theorem hbmRowRepairDone_ends {stack row : Nat} (under : (stack, row) ∈ s.repairing) :
    exec (.hbmRowRepairDone stack row) s = .next { s with
      repairing := s.repairing.filter (· != (stack, row)), rowErrs := s.rowErrs.del (rowKey stack row) } := by
  simp [exec_hbmRowRepairDone, execHbmRowRepairDone, under]

section Telemetry
variable {r : TeleRec} {rest : List TeleRec} (run : s.sec.boot = .running) (due : s.tele.pending = r :: rest)
include run due

theorem telemetryRecord_sent (port : ∃ p ∈ s.ports, p.st = .up ∨ p.st = .degraded) :
    exec .telemetryRecord s =
      .next (({ s with tele := { s.tele with pending := rest, sent := s.tele.sent + 1 } } : State).wakePort.send
        (.telemetry r)) := by
  simp [exec_telemetryRecord, execTelemetryRecord, due, run, (any_carries_iff s).mpr port]

theorem telemetryRecord_lost (noPort : ∀ p ∈ s.ports, p.st ≠ .up ∧ p.st ≠ .degraded) :
    exec .telemetryRecord s = .next { s with tele := { s.tele with pending := rest, lost := s.tele.lost + 1 } } := by
  have silent : ¬ s.ports.any Port.carries = true := by
    rw [any_carries_iff]
    rintro ⟨p, hp, up | degraded⟩
    · exact (noPort p hp).1 up
    · exact (noPort p hp).2 degraded
  simp [exec_telemetryRecord, execTelemetryRecord, due, run, silent]

end Telemetry

/-- The part of O55 on power and services. -/
theorem power : Statements.Power := by
  intro s
  refine ⟨?enter, fun core => powerStateWake_eq, shutDown_eq s, fun temps => ⟨thermalSensing_shutsDown,
    thermalSensing_throttles, thermalSensing_releases⟩, rfl, fun stack sector window there home =>
    hbmPatrolScrub_delays there home window, ?services, fun stack => rfl, fun stack row => hbmRowRepairDone_ends,
    fun r rest run due => ⟨telemetryRecord_sent run due, telemetryRecord_lost run due⟩⟩
  case enter =>
    intro core there awake idle d s1 t
    obtain ⟨refresh, trains, ports⟩ :
        t.selfRefresh = s.selfRefresh ∧ t.retraining = s.retraining ∧ t.ports = s.ports := by
      simp only [t, s1]
      split <;> exact ⟨rfl, rfl, rfl⟩
    rw [← refresh, ← trains, ← ports]
    exact ⟨t.sleepUnits.selfRefresh, t.sleepUnits.ports, powerStateEnter_eq there awake idle,
      fun k asleep => mem_sleepUnits_selfRefresh asleep, fun n p port => sleepUnits_port port⟩
  case services =>
    intro closed
    exact ⟨fun stack sector there home awake => hbmPatrolScrub_counts there home closed awake,
      fun core there => sramScrub_counts closed there, fun stack there new => hbmRetraining_starts closed there new,
      fun stack row there new worn => hbmRowRepair_starts closed there new worn⟩

/-- Settles O55: ports, identity, and power with the services. -/
theorem deviceEvents : Obligations.DeviceEvents := ⟨links, identity, power⟩

end Sys2Proof
end

section
/-! Commands on queues, contracts, pools, memory and channels (14 R352 to R367; 09 R248, R249; 19 R419, R424). -/
namespace Sys2Proof.Machine

/-! ### Commands that pass the checks -/

section Accepted
variable {s : State} {m : Msg} {op n c : Nat} {win : Bool} {x : Ctx}

/-- A command on a context that passes the checks of R422 to R425 is carried out; the length that its operation asks for
is the length that the checks were made with. -/
theorem ctxCmd_accepted {lost : Bool} {fits : Msg → Bool} (h : CtxMsg s m op win lost n c x) (fit : fits m = dwords n m)
    (f : State → Nat → Ctx → State) : ctxCmd op win lost fits m s f = .next (f s c x) := by
  simp [ctxCmd, h.running, h.opcode, fit, h.accepted, h.ctx, h.there]

/-- A command that is accepted and names a queue of its context acts on that queue (R367). -/
theorem queueCmd_accepted {q : Queue} (h : CtxMsg s m op win (!win) n c x)
    (there : s.queue? (msgDw m 1).toNat = some q) (own : q.ctx = c) (f : State → Nat → Queue → State) :
    queueCmd op win n m s f = .next (f s (msgDw m 1).toNat q) := by
  have ours : (q.ctx != c) ≠ true := by simp [own]
  simp only [queueCmd, ctxCmd_accepted h rfl, there, if_neg ours]

end Accepted

end Sys2Proof.Machine

namespace Sys2Proof
open Machine

variable {s : State} {m : Msg} {c : Nat} {x : Ctx}

/-! ### Queues -/

section Create
variable {d : List W64} (h : CtxMsg s m 0x20 false false 9 c x) (desc : m.payload.drop 1 = d)
  (good : queueDescBad d = false) (uncontracted : ({ ctx := c, desc := d } : Queue).cid = none)
include h desc good uncontracted

/-- Q_CREATE for a descriptor that keeps its map and names no contract: the checks that are left, in their order (R353). -/
theorem qCreate_eq : exec (.qCreate m) s = .next
    (if (s.queue? (fld (dw d 0) 32 13)).isSome then s.reply m stINUSE []
     else if x.nq ≤ s.queuesOf c then s.reply m stQUOTA []
     else if bit (dw d 0) 8 && !s.reservable (64 * fld (dw d 0) 16 16) then s.reply m stNORES []
     else (s.setQueue (fld (dw d 0) 32 13) { ctx := c, desc := d }).ok m) := by
  rw [exec_qCreate, execQCreate, ctxCmd_accepted h rfl]
  simp only [desc, good, uncontracted, Bool.not_true, Bool.or_self, Bool.false_eq_true, if_false]

/-- R346, R353: Q_CREATE is refused for a number in use, past the context's quota of queues, and where the store of a queue
in device mode cannot be reserved; else it makes the queue. -/
theorem qCreate_outcomes :
    (∀ q, s.queue? (fld (dw d 0) 32 13) = some q → exec (.qCreate m) s = .next (s.reply m stINUSE [])) ∧
    (s.queue? (fld (dw d 0) 32 13) = none → x.nq ≤ s.queuesOf c → exec (.qCreate m) s = .next (s.reply m stQUOTA [])) ∧
    (s.queue? (fld (dw d 0) 32 13) = none → s.queuesOf c < x.nq →
      (bit (dw d 0) 8 = true → s.reservable (64 * fld (dw d 0) 16 16) = true) →
      exec (.qCreate m) s = .next ((s.setQueue (fld (dw d 0) 32 13) { ctx := c, desc := d }).ok m)) ∧
    (s.queue? (fld (dw d 0) 32 13) = none → s.queuesOf c < x.nq → bit (dw d 0) 8 = true →
      s.reservable (64 * fld (dw d 0) 16 16) = false → exec (.qCreate m) s = .next (s.reply m stNORES [])) := by
  rw [qCreate_eq h desc good uncontracted]
  refine ⟨fun q taken => by simp [taken], fun new full => by simp [new, full], fun new room held => ?_,
    fun new room device lacking => by simp [new, Nat.not_le.mpr room, device, lacking]⟩
  have reserved : (bit (dw d 0) 8 && !s.reservable (64 * fld (dw d 0) 16 16)) = false := by simpa using held
  simp only [new, Option.isSome_none, Nat.not_le.mpr room, reserved, Bool.false_eq_true, if_false]

end Create

section StateTable
variable {q : Queue} (there : s.queue? (msgDw m 1).toNat = some q) (own : q.ctx = c)
include there own

/-- R367: Q_ENABLE enables a Disabled queue, and only that. -/
theorem qEnable_eq (h : CtxMsg s m 0x21 false true 2 c x) :
    (q.st = .disabled → exec (.qEnable m) s = .next ((s.setQueue (msgDw m 1).toNat { q with st := .enabled }).ok m)) ∧
    (q.st ≠ .disabled → exec (.qEnable m) s = .next (s.reply m stSTATE [])) := by
  rw [exec_qEnable, execQEnable, queueCmd_accepted h there own]
  exact ⟨fun off => by simp [off], fun other => by simp [other]⟩

/-- R367: Q_DISABLE disables an Enabled or a Stopped queue, and only these. -/
theorem qDisable_eq (h : CtxMsg s m 0x22 false true 2 c x) :
    (q.st = .enabled ∨ q.st = .stopped →
      exec (.qDisable m) s = .next ((s.setQueue (msgDw m 1).toNat { q with st := .disabled }).ok m)) ∧
    (q.st ≠ .enabled → q.st ≠ .stopped → exec (.qDisable m) s = .next (s.reply m stSTATE [])) := by
  rw [exec_qDisable, execQDisable, queueCmd_accepted h there own]
  exact ⟨fun on => by rcases on with on | on <;> simp [on], fun notOn notStopped => by simp [notOn, notStopped]⟩

/-- R367: Q_RESTART enables a Stopped queue, whose head in the host's memory is read again, and only that. -/
theorem qRestart_eq (h : CtxMsg s m 0x25 false true 2 c x) :
    (q.st = .stopped → exec (.qRestart m) s =
      .next ((s.setQueue (msgDw m 1).toNat { q with st := .enabled, store := if q.dev then q.store else [] }).ok m)) ∧
    (q.st ≠ .stopped → exec (.qRestart m) s = .next (s.reply m stSTATE [])) := by
  rw [exec_qRestart, execQRestart, queueCmd_accepted h there own]
  exact ⟨fun stopped => by simp [stopped], fun other => by simp [other]⟩

/-- R367: Q_FLUSH cancels each record of a Disabled queue that has not started. -/
theorem qFlush_cancels (h : CtxMsg s m 0x24 false true 2 c x) (off : q.st = .disabled) (commands : q.consuming = false) :
    exec (.qFlush m) s = .next
      (((s.dropPending (msgDw m 1).toNat q).flush (msgDw m 1).toNat (q.issued - q.taken).toNat).ok m) := by
  rw [exec_qFlush, execQFlush, queueCmd_accepted h there own]
  simp [off, commands]

/-- R367: Q_DESTROY removes a queue that is not Enabled, is no fault queue and has reported what it started. -/
theorem qDestroy_removes (h : CtxMsg s m 0x26 false true 2 c x) (off : q.st ≠ .enabled)
    (noFaults : x.faultq ≠ (msgDw m 1).toNat) (told : ∀ t ∈ q.started, t.reported = true) :
    exec (.qDestroy m) s =
      let k := (msgDw m 1).toNat
      .next (({ s.dropPending k q with
        queues := (s.dropPending k q).queues.del k, goneQ := (s.dropPending k q).goneQ.put k (c, q.done)
        contracts := (s.dropPending k q).contracts.map
          (fun (e : Nat × Contract) => (e.1, { e.2 with acts := e.2.acts.filter (fun a => a.queue != k) })) } : State).ok m) := by
  have complete : q.started.any (fun t => !t.reported) = false := by simpa using told
  rw [exec_qDestroy, execQDestroy, queueCmd_accepted h there own]
  simp [off, own, h.there, noFaults, complete]

/-- R367, R424: Q_POP answers with the record at the head of a consuming queue, or with EMPTY. -/
theorem qPop_eq (h : CtxMsg s m 0x27 true false 2 c x) (pops : q.consuming = true)
    (open_ : q.st = .disabled ∨ q.st = .enabled) :
    (s.takeRec (msgDw m 1).toNat = none → exec (.qPop m) s = .next (s.reply m stEMPTY [])) ∧
    (∀ l t, s.takeRec (msgDw m 1).toNat = some (l, t) →
      exec (.qPop m) s = .next (t.reply m stOK ((List.range 8).map (dw l)))) := by
  have serves : (!q.consuming || !(q.st = .disabled || q.st = .enabled)) = false := by
    rcases open_ with off | on
    · simp [pops, off]
    · simp [pops, on]
  rw [exec_qPop, execQPop, queueCmd_accepted h there own]
  exact ⟨fun empty => by simp only [serves, empty, Bool.false_eq_true, if_false],
    fun l t head => by simp only [serves, head, Bool.false_eq_true, if_false]⟩

end StateTable

/-- R355: Q_TAIL with the tail a queue in host mode has changes nothing; one that exceeds it, on a queue without a contract,
raises ISSUED. -/
theorem qTail_eq {q : Queue} (h : CtxMsg s m 0x23 true false 3 c x) (there : s.queue? (fld (msgDw m 1) 0 13) = some q)
    (own : q.ctx = c) (host : q.dev = false) (open_ : q.st = .disabled ∨ q.st = .enabled) :
    (msgDw m 2 = q.issued → exec (.qTail m) s = .next (s.ok m)) ∧
    (msgDw m 2 ≠ q.issued → tailReached (msgDw m 2) q.issued = true → q.cid = none → exec (.qTail m) s =
      .next ((s.setQueue (fld (msgDw m 1) 0 13)
        { q with issued := msgDw m 2, tails := q.tails ++ [(msgDw m 2, s.freeIx)] }).ok m)) := by
  have serves : (q.ctx != c || q.dev || !(q.st = .disabled || q.st = .enabled)) = false := by
    rcases open_ with off | on
    · simp [own, host, off]
    · simp [own, host, on]
  rw [exec_qTail, execQTail, ctxCmd_accepted h rfl]
  simp only [there, serves, Bool.false_eq_true, if_false]
  exact ⟨fun same => by simp [same], fun moved ahead uncontracted => by simp [moved, ahead, State.activate, uncontracted]⟩

/-! ### Contracts -/

/-- R364, R365: CONTRACT_CREATE takes the lowest free number for a contract that is admitted, and refuses one that is not. -/
theorem contractCreate_eq {d : List W64} {n : Nat} (h : CtxMsg s m 0x30 false false 9 c x)
    (desc : m.payload.drop 1 = d) (good : contractDescBad d = false)
    (free : (List.range 256).find? (fun n => (s.contracts.find n).isNone) = some n) :
    (admits (s.contracts.map (·.2)) { ctx := c, desc := d } = true → exec (.contractCreate m) s =
      .next (({ s with contracts := s.contracts.put n { ctx := c, desc := d } } : State).reply m stOK [w64 n])) ∧
    (admits (s.contracts.map (·.2)) { ctx := c, desc := d } = false →
      exec (.contractCreate m) s = .next (s.reply m stADMIT [])) := by
  rw [exec_contractCreate, execContractCreate, ctxCmd_accepted h rfl]
  simp only [desc, good, free, Bool.false_eq_true, if_false]
  exact ⟨fun admitted => by simp [admitted], fun refused => by simp [refused]⟩

/-- R367: CONTRACT_DESTROY removes a contract of the context that no queue names. -/
theorem contractDestroy_removes {y : Contract} (h : CtxMsg s m 0x31 false true 2 c x)
    (there : s.contracts.find (msgDw m 1).toNat = some y) (own : y.ctx = c)
    (unnamed : ∀ e ∈ s.queues, e.2.cid ≠ some (msgDw m 1).toNat) :
    exec (.contractDestroy m) s = .next
      (({ s with contracts := s.contracts.del (msgDw m 1).toNat } : State).reply m stOK [w64 (msgDw m 1).toNat]) := by
  have noQueue : s.queues.any (fun (e : Nat × Queue) => e.2.cid = some (msgDw m 1).toNat) = false := by simpa using unnamed
  rw [exec_contractDestroy, execContractDestroy, ctxCmd_accepted h rfl]
  simp [there, own, noQueue]

/-! ### Pools -/

/-- R248, R249: POOL_REG registers a pool under a number that is not in use, where the context's fibre memory holds it. -/
theorem poolReg_eq {d : List W64} {p : Pool} (h : CtxMsg s m 0x38 false false 5 c x)
    (desc : (m.payload.drop 1).take 2 = d) (good : poolDescBad d = false)
    (pool : ({ d0 := dw d 0, fibres := (msgDw m 3).toNat, perStack := (msgDw m 4).toNat } : Pool) = p)
    (fibres : 1 ≤ (msgDw m 3).toNat ∧ (msgDw m 3).toNat ≤ 2 ^ 44)
    (share : 1 ≤ (msgDw m 4).toNat ∧ (msgDw m 4).toNat < 2 ^ 32) :
    let key := 4096 * c + fld (dw d 0) 40 12
    ((s.pools.find key).isSome = true → exec (.poolReg m) s = .next (s.reply m stINUSE [])) ∧
    (s.pools.find key = none → s.fibUsed c + p.charge ≤ 2 ^ 20 * fld (dw x.desc 7) 0 16 →
      exec (.poolReg m) s = .next (({ s with pools := s.pools.put key p } : State).ok m)) := by
  have fits : (poolDescBad d || (msgDw m 3).toNat = 0 || 2 ^ 44 < (msgDw m 3).toNat || (msgDw m 4).toNat = 0 ||
      2 ^ 32 ≤ (msgDw m 4).toNat) = false := by
    simp only [good, Bool.false_or, Bool.or_eq_false_iff, decide_eq_false_iff_not]
    omega
  rw [exec_poolReg, execPoolReg, ctxCmd_accepted h rfl]
  simp only [desc, fits, pool, Bool.false_eq_true, if_false]
  exact ⟨fun taken => by simp only [taken, if_true],
    fun new holds => by
      simp only [new, Option.isSome_none, Nat.not_lt.mpr holds, Bool.false_eq_true, if_false]⟩

/-- R249: POOL_FREE removes a registered pool on which nothing is pending, with its fibres. -/
theorem poolFree_removes (h : CtxMsg s m 0x39 false false 5 c x)
    (there : (s.pools.find (4096 * c + fld (msgDw m 1) 40 12)).isSome = true)
    (still : ∀ e ∈ s.fops, ¬ (e.2.ctx = c ∧ e.2.onPool = true ∧ fibrePoolNo e.2.addr = fld (msgDw m 1) 40 12)) :
    exec (.poolFree m) s = .next (({ s with
      pools := s.pools.del (4096 * c + fld (msgDw m 1) 40 12)
      fibres := s.fibres.filter
        (fun (e : Nat × Fibre) => e.1 / 2 ^ 44 != 4096 * c + fld (msgDw m 1) 40 12) } : State).ok m) := by
  have idle : s.fops.any (fun (e : Nat × FOp) =>
      e.2.ctx = c && e.2.onPool && fibrePoolNo e.2.addr = fld (msgDw m 1) 40 12) = false := by
    simpa [and_assoc] using still
  have known : (s.pools.find (4096 * c + fld (msgDw m 1) 40 12)).isNone = false := by simpa using there
  rw [exec_poolFree, execPoolFree, ctxCmd_accepted h rfl]
  simp only [known, idle, Bool.or_self, Bool.false_eq_true, if_false]

/-- The part of O54 on queues, contracts and pools. -/
theorem queues : Statements.Queues := by
  intro s m c x ok no k d
  refine ⟨?create, ?table, ?tail, ?contract, ?contractEnd, ?pool, ?poolEnd⟩
  case create => exact fun h good uncontracted => qCreate_outcomes h rfl good uncontracted
  case table =>
    intro q there own
    refine ⟨qEnable_eq there own, qDisable_eq there own, qRestart_eq there own, qFlush_cancels there own,
      qDestroy_removes there own, fun h pops open_ => ?_⟩
    rw [← h.opcode]
    exact qPop_eq there own h pops open_
  case tail =>
    intro q h j there own host open_
    exact qTail_eq h there own host open_
  case contract =>
    intro h good n free
    rw [← h.opcode]
    exact contractCreate_eq h rfl good free
  case contractEnd =>
    intro y h there own unnamed
    rw [← h.opcode]
    exact contractDestroy_removes h there own unnamed
  case pool =>
    intro h good one fibres perStack share p key
    exact poolReg_eq h rfl good rfl ⟨one, fibres⟩ ⟨perStack, share⟩
  case poolEnd =>
    intro h n there still
    exact poolFree_removes h there still

/-! ### Memory and channels -/

/-- R40, R324, R424: MEM_WRITE of untyped bytes writes them all as the host, or none where one does not translate. -/
theorem memWrite_eq (h : CtxMsg s m 0x40 true false m.payload.length c x) (long : 3 ≤ m.payload.length)
    (untyped : bit (msgDw m 2) 24 = false) :
    let data := dwBytes (m.payload.drop 3)
    (s.outMap c (msgDw m 1) data.length .write = none → exec (.memWrite m) s = .next (s.reply m stXLATE [])) ∧
    (∀ l, s.outMap c (msgDw m 1) data.length .write = some l →
      exec (.memWrite m) s = .next ((s.outWrite c l data (0, 0, 0) widHost).ok m)) := by
  have fit : decide (3 ≤ m.payload.length) = dwords m.payload.length m := by simp [dwords, long]
  rw [exec_memWrite, execMemWrite, ctxCmd_accepted h fit]
  exact ⟨fun unmapped => by simp [untyped, unmapped], fun l mapped => by simp [untyped, mapped]⟩

/-- R424: MEM_READ answers with the bytes read, or with none where one does not translate. -/
theorem memRead_eq (h : CtxMsg s m 0x41 true false 3 c x) (short : (msgDw m 2).toNat ≤ 4080) :
    let n := (msgDw m 2).toNat
    (s.outMap c (msgDw m 1) n .read = none → exec (.memRead m) s = .next (s.reply m stXLATE [])) ∧
    (∀ l, s.outMap c (msgDw m 1) n .read = some l → exec (.memRead m) s =
      .next ((s.rouseVa c (msgDw m 1) n).reply m stOK (leDwords ((n + 7) / 8) (s.outRead c l)))) := by
  have within : ¬ 4080 < (msgDw m 2).toNat := Nat.not_lt.mpr short
  rw [exec_memRead, execMemRead, ctxCmd_accepted h rfl]
  exact ⟨fun unmapped => by simp only [if_neg within, unmapped], fun l mapped => by simp only [if_neg within, mapped]⟩

/-- R419: CHAN_BIND binds a channel of the context to a node and a context there. -/
theorem chanBind_binds (h : CtxMsg s m 0x48 false false 4 c x) (chan : (msgDw m 1).toNat < 64)
    (node : (msgDw m 2).toNat < 65536) (low : fld (msgDw m 3) 10 6 = 0) (high : fld (msgDw m 3) 32 32 = 0) :
    let b : ChanBind :=
      { rnode := .ofNat 16 (msgDw m 2).toNat, rctx := fld (msgDw m 3) 0 10, rgen := .ofNat 16 (fld (msgDw m 3) 16 16) }
    exec (.chanBind m) s = .next ((s.setCtx c { x with chans := x.chans.put (msgDw m 1).toNat b }).ok m) := by
  have fits : (64 ≤ (msgDw m 1).toNat || 65536 ≤ (msgDw m 2).toNat || fld (msgDw m 3) 10 6 != 0 ||
      fld (msgDw m 3) 32 32 != 0) = false := by
    simp [low, high, chan, node]
  rw [exec_chanBind, execChanBind, ctxCmd_accepted h rfl]
  simp only [fits, Bool.false_eq_true, if_false]

/-- The part of O54 on memory and channels. -/
theorem hostMemory : Statements.HostMemory := by
  intro s m c x ok no data
  refine ⟨memWrite_eq, fun h short => ?_, chanBind_binds⟩
  rw [← h.opcode]
  exact memRead_eq h short

/-- Settles O54: queues, contracts and pools, and memory and channels. -/
theorem queueAndMemoryCommands : Obligations.QueueAndMemoryCommands := ⟨queues, hostMemory⟩

end Sys2Proof
end

section
/-! Encoding and decoding (04 R83 to R99): what the encoder's fields are, that the words of fields in range give the
fields back, and that each row of the forms table reads its own fields as the instruction they came from. -/
namespace Sys2Proof

/-! ### Fields in range, their words and bytes (R83, R85, R96) -/

/-- The fields of a sequencer instruction have the widths of R85, and a word beyond its length is zero. -/
def Raw.Fits (r : Raw) : Prop :=
  r.op < 256 ∧ r.len ≤ 2 ∧ r.d < 32 ∧ r.s1 < 32 ∧ r.s2 < 32 ∧ r.gp < 8 ∧ r.gs < 2 ∧ r.var < 8 ∧
    r.w1 < 4294967296 ∧ r.w2 < 4294967296 ∧ (r.len = 0 → r.w1 = 0) ∧ (r.len ≤ 1 → r.w2 = 0)

/-- The fields of a node have the widths of R96 to R98, and a word beyond its length is zero. -/
def NRaw.Fits (n : NRaw) : Prop :=
  n.op < 256 ∧ n.len ≤ 2 ∧ n.t < 4 ∧ n.c1 < 512 ∧ n.c2 < 512 ∧ n.k < 4 ∧ n.fmt < 256 ∧ n.den < 16 ∧ n.xc < 4 ∧
    n.c3 < 512 ∧ n.c4 < 512 ∧ n.lit < 4294967296 ∧ (n.len = 0 → n.word1 = 0) ∧ (n.len ≤ 1 → n.lit = 0)

theorem Raw.ofWords_words {r : Raw} (h : r.Fits) : Raw.ofWords r.word0 r.w1 r.w2 = r := by
  obtain ⟨op, len, d, s1, s2, gp, gs, var, w1, w2⟩ := r
  simp only [Raw.Fits] at h
  obtain ⟨ltOp, leLen, ltD, ltS1, ltS2, ltGp, ltGs, ltVar, -⟩ := h
  simp only [Raw.ofWords, Raw.word0, Raw.mk.injEq, and_true]
  and_intros <;> omega

theorem NRaw.ofWords_words {n : NRaw} (h : n.Fits) : NRaw.ofWords n.word0 n.word1 n.lit = n := by
  obtain ⟨op, len, t, c1, c2, k, fmt, den, xc, c3, c4, lit⟩ := n
  simp only [NRaw.Fits] at h
  obtain ⟨ltOp, leLen, ltT, ltC1, ltC2, ltK, ltFmt, ltDen, ltXc, ltC3, ltC4, -⟩ := h
  simp only [NRaw.ofWords, NRaw.word0, NRaw.word1, NRaw.mk.injEq, and_true]
  and_intros <;> omega

theorem Raw.word0_lt {r : Raw} (h : r.Fits) : r.word0 < 4294967296 := by
  simp only [Raw.Fits] at h
  simp only [Raw.word0]
  omega

theorem NRaw.word0_lt {n : NRaw} (h : n.Fits) : n.word0 < 4294967296 := by
  simp only [NRaw.Fits] at h
  simp only [NRaw.word0]
  omega

theorem NRaw.word1_lt {n : NRaw} (h : n.Fits) : n.word1 < 4294967296 := by
  simp only [NRaw.Fits] at h
  simp only [NRaw.word1]
  omega

/-- The four bytes of a word are the word (R83). -/
theorem leWord_wordBytes {w : Nat} (h : w < 4294967296) :
    leWord (.ofNat 8 w) (.ofNat 8 (w / 256)) (.ofNat 8 (w / 65536)) (.ofNat 8 (w / 16777216)) = w := by
  simp only [leWord, BitVec.toNat_ofNat]
  omega

/-! ### What the fields of an encoding are read as -/

/-- The instructions that decodeSeq reads: those of the sequencer's, the engine's, the tasks' and Erg's classes. -/
def OpClass.isSeq : OpClass → Bool
  | .sequencer | .engine | .task | .erg => true
  | .node | .fibre | .reserved => false

/-- The instructions that decodeNode reads. -/
def OpClass.isNode : OpClass → Bool
  | .node | .fibre => true
  | .sequencer | .engine | .task | .erg | .reserved => false

/-- Fields that fit in their words and are read as `i`. -/
def Enc.Reads (i : Instr) : Enc → Prop
  | .seq r => r.Fits ∧ (opClass r.op).isSeq = true ∧ decodeSeq r = .ok i
  | .node n => n.Fits ∧ (opClass n.op).isNode = true ∧ decodeNode n = .ok i

theorem Enc.Reads.bounds {i : Instr} {e : Enc} (h : e.Reads i) :
    e.words.1 < 4294967296 ∧ e.words.2.1 < 4294967296 ∧ e.words.2.2 < 4294967296 ∧ e.words.1 % 4 = e.len ∧ e.len ≤ 2 ∧
      (e.len = 0 → e.words.2.1 = 0) ∧ (e.len ≤ 1 → e.words.2.2 = 0) := by
  cases e with
  | seq r =>
    obtain ⟨fits, -, -⟩ := h
    have lt := Raw.word0_lt fits
    have low : r.word0 % 4 = r.len := congrArg Raw.len (Raw.ofWords_words fits)
    obtain ⟨-, len, -, -, -, -, -, -, lt1, lt2, no1, no2⟩ := fits
    exact ⟨lt, lt1, lt2, low, len, no1, no2⟩
  | node n =>
    obtain ⟨fits, -, -⟩ := h
    have lt := NRaw.word0_lt fits
    have lt1 := NRaw.word1_lt fits
    have low : n.word0 % 4 = n.len := congrArg NRaw.len (NRaw.ofWords_words fits)
    obtain ⟨-, len, -, -, -, -, -, -, -, -, -, lt2, no1, no2⟩ := fits
    exact ⟨lt, lt1, lt2, low, len, no1, no2⟩

/-- Words are decoded as their fields are read: OP says which table (R100). -/
theorem decodeWords_of_reads {i : Instr} {e : Enc} (h : e.Reads i) :
    decodeWords e.words.1 e.words.2.1 e.words.2.2 = .ok i := by
  obtain ⟨-, -, -, low, len, -⟩ := h.bounds
  have noHeader : (e.words.1 % 4 == 3) = false := by rw [low]; simp; omega
  cases e with
  | seq r =>
    obtain ⟨fits, isSeq, row⟩ := h
    have op : r.word0 / 4 % 256 = r.op := congrArg Raw.op (Raw.ofWords_words fits)
    simp only [Enc.words] at noHeader ⊢
    rw [decodeWords, noHeader, op, Raw.ofWords_words fits]
    cases class_ : opClass r.op <;> simp_all [OpClass.isSeq]
  | node n =>
    obtain ⟨fits, isNode, row⟩ := h
    have op : n.word0 / 4 % 256 = n.op := congrArg NRaw.op (NRaw.ofWords_words fits)
    simp only [Enc.words] at noHeader ⊢
    rw [decodeWords, noHeader, op, NRaw.ofWords_words fits]
    cases class_ : opClass n.op <;> simp_all [OpClass.isNode]

/-- Bytes are decoded as the fields of their words are read: the length code says how many words there are (R84). -/
theorem decode_of_reads {i : Instr} {e : Enc} (enc : encodeFields i = some e) (h : e.Reads i) (rest : List Byte) :
    decode (encodeBytes i ++ rest) = .ok (i, rest) := by
  obtain ⟨lt0, lt1, lt2, low, len, no1, no2⟩ := h.bounds
  have words := decodeWords_of_reads h
  have bytes : encodeBytes i = ([e.words.1, e.words.2.1, e.words.2.2].take (e.len + 1)).flatMap wordBytes := by
    simp only [encodeBytes, encode, enc]
  rw [bytes]
  have cases3 : e.len = 0 ∨ e.len = 1 ∨ e.len = 2 := by omega
  obtain one | two | three := cases3
  · rw [no1 one, no2 (by omega)] at words
    simp [one, wordBytes, decode, leWord_wordBytes lt0, low, words, Except.map]
  · rw [no2 (by omega)] at words
    simp [two, wordBytes, decode, leWord_wordBytes lt0, leWord_wordBytes lt1, low, words, Except.map]
  · simp [three, wordBytes, decode, leWord_wordBytes lt0, leWord_wordBytes lt1, leWord_wordBytes lt2, low, words, Except.map]

/-! ### The small codes (R95, R108) -/

theorem tyCode_le (ty : MTy) : tyCode ty ≤ 5 := by cases ty <;> decide
theorem scopeCode_le (sc : Scope) : scopeCode sc ≤ 6 := by cases sc <;> decide
theorem condCode_le (c : Cond) : condCode c ≤ 9 := by cases c <;> decide
theorem aopCode_le (op : Aop) : aopCode op ≤ 9 := by cases op <;> decide
theorem csrCode_lt (n : Csr) : csrCode n < 4096 := by cases n <;> decide

@[simp] theorem tyOf_tyCode (ty : MTy) : tyOf (tyCode ty) = ty := by cases ty <;> rfl
@[simp] theorem scopeOf_scopeCode (sc : Scope) : scopeOf (scopeCode sc) = sc := by cases sc <;> rfl
@[simp] theorem condOf_condCode (c : Cond) : condOf (condCode c) = c := by cases c <;> rfl
@[simp] theorem aopOf_aopCode (op : Aop) : aopOf (aopCode op) = op := by cases op <;> rfl
@[simp] theorem csrOf_csrCode (n : Csr) : csrOf (csrCode n) = some n := by cases n <;> rfl

/-! ### The checks of a row -/

/-- Check 8 passes just when each of its fields does, and then the instruction is the row's. -/
@[simp] theorem chk_eq_ok {fs : List (Nat × Bool)} {i j : Instr} : chk fs j = .ok i ↔ (∀ f ∈ fs, f.2 = true) ∧ j = i := by
  have passes : (∀ f ∈ fs, f.2 = true) ↔ fs.find? (fun f => !f.2) = none := by simp
  rw [passes, chk]
  cases fs.find? (fun f => !f.2) <;> simp

/-- Where the special-register number is a register's, check 9 passes and check 8 decides. -/
theorem chkCsr_of_code {fs : List (Nat × Bool)} {w1 : Nat} {n : Csr} (k : Csr → Instr) (code : w1 % 4096 = csrCode n) :
    chkCsr fs w1 k = chk fs (k n) := by
  rw [chkCsr, chk, code, csrOf_csrCode]
  cases fs.find? (fun f => !f.2) <;> rfl

/-- A value that fills its field is read back from any number that holds it there. -/
theorem ofNat_eq_iff {w n : Nat} {x : BitVec w} : BitVec.ofNat w n = x ↔ n % 2 ^ w = x.toNat := by
  rw [← BitVec.toNat_inj, BitVec.toNat_ofNat]

/-! A value that fills its field is below the end of the field's range. -/

@[simp] theorem toNat_lt_8 (x : BitVec 3) : x.toNat < 8 := x.isLt
@[simp] theorem toNat_lt_16 (x : BitVec 4) : x.toNat < 16 := x.isLt
@[simp] theorem toNat_lt_64 (x : BitVec 6) : x.toNat < 64 := x.isLt
@[simp] theorem toNat_lt_256 (x : BitVec 8) : x.toNat < 256 := x.isLt
@[simp] theorem toNat_lt_8192 (x : BitVec 13) : x.toNat < 8192 := x.isLt

/-! ### The rows of the sequencer forms (R85 to R95, R99) -/

section Row
variable {op len : Nat} {g : Guard} {d s1 s2 var w1 w2 : Nat}

/-- The guard is read back from its two fields (R85). -/
@[simp] theorem Raw.guard_mk :
    Raw.guard { op, len, d, s1, s2, gp := g.p.toNat, gs := g.neg.toNat, var, w1, w2 } = g := by
  obtain ⟨p, neg⟩ := g
  cases neg <;> simp [Raw.guard]

/-- The operands of an encoding are in the range of the fields that hold them. -/
abbrev OperandsFit (len d s1 s2 var w1 w2 : Nat) : Prop :=
  d < 32 ∧ s1 < 32 ∧ s2 < 32 ∧ var < 8 ∧ w1 < 4294967296 ∧ w2 < 4294967296 ∧ (len = 0 → w1 = 0) ∧ (len ≤ 1 → w2 = 0)

theorem rawOf_fits (code : op < 256) (words : len ≤ 2) (fit : OperandsFit len d s1 s2 var w1 w2) :
    (rawOf op len g d s1 s2 var w1 w2).Fits := by
  obtain ⟨ltD, lt1, lt2, ltVar, ltW1, ltW2, no1, no2⟩ := fit
  exact ⟨code, words, ltD, lt1, lt2, g.p.isLt, g.neg.toNat_lt, ltVar, ltW1, ltW2, no1, no2⟩

/-- An instruction is read from its one word by the entry of its row for that length (R84). Its fields stand written out,
so that a check of one of them is a check of its operand. -/
theorem reads_oneWord {i : Instr} {a b c : Except DecErr Instr}
    (row : decodeSeq { op, len := 0, d, s1, s2, gp := g.p.toNat, gs := g.neg.toNat, var, w1, w2 } =
      byLen { op, len := 0, d, s1, s2, gp := g.p.toNat, gs := g.neg.toNat, var, w1, w2 } a b c)
    (fit : OperandsFit 0 d s1 s2 var w1 w2 := by omega) (entry : a = .ok i := by simp)
    (code : op < 256 := by decide) (class_ : (opClass op).isSeq = true := by decide) :
    Enc.Reads i (.seq (rawOf op 0 g d s1 s2 var w1 w2)) :=
  ⟨rawOf_fits code (by decide) fit, class_, row.trans entry⟩

/-- An instruction is read from its two words by the entry of its row for that length (R84). -/
theorem reads_twoWords {i : Instr} {a b c : Except DecErr Instr}
    (row : decodeSeq { op, len := 1, d, s1, s2, gp := g.p.toNat, gs := g.neg.toNat, var, w1, w2 } =
      byLen { op, len := 1, d, s1, s2, gp := g.p.toNat, gs := g.neg.toNat, var, w1, w2 } a b c)
    (fit : OperandsFit 1 d s1 s2 var w1 w2 := by omega) (entry : b = .ok i := by simp)
    (code : op < 256 := by decide) (class_ : (opClass op).isSeq = true := by decide) :
    Enc.Reads i (.seq (rawOf op 1 g d s1 s2 var w1 w2)) :=
  ⟨rawOf_fits code (by decide) fit, class_, row.trans entry⟩

/-- An instruction is read from its three words by the entry of its row for that length (R84). -/
theorem reads_threeWords {i : Instr} {a b c : Except DecErr Instr}
    (row : decodeSeq { op, len := 2, d, s1, s2, gp := g.p.toNat, gs := g.neg.toNat, var, w1, w2 } =
      byLen { op, len := 2, d, s1, s2, gp := g.p.toNat, gs := g.neg.toNat, var, w1, w2 } a b c)
    (fit : OperandsFit 2 d s1 s2 var w1 w2 := by omega) (entry : c = .ok i := by simp)
    (code : op < 256 := by decide) (class_ : (opClass op).isSeq = true := by decide) :
    Enc.Reads i (.seq (rawOf op 2 g d s1 s2 var w1 w2)) :=
  ⟨rawOf_fits code (by decide) fit, class_, row.trans entry⟩

end Row

/-! ### The memory reference of form SM (R88) -/

theorem memS1_lt (m : MemRef) : memS1 m < 32 := by cases m <;> simp only [memS1] <;> omega
theorem memS2_lt (m : MemRef) : memS2 m < 32 := by cases m <;> simp only [memS2] <;> omega
theorem memW_lt (m : MemRef) : memW m < 4294967296 := by cases m <;> simp only [memW] <;> omega

section Mem
variable (op d gp gs var : Nat) (m : MemRef)

/-- MODE tells the references apart. -/
def memMode : MemRef → Nat
  | .base _ _ => 0 | .index _ _ _ => 1 | .pcRel _ => 2

theorem memW_mode (m : MemRef) : memW m / 1073741824 % 4 = memMode m := by
  cases m <;> simp only [memW, memMode] <;> omega

/-- The fields of a memory reference are read as that reference. -/
@[simp] theorem Raw.mem_mk :
    Raw.mem { op, len := 1, d, s1 := memS1 m, s2 := memS2 m, gp, gs, var, w1 := memW m, w2 := 0 } = m := by
  simp only [Raw.mem, memW_mode]
  cases m <;> simp [memMode, memS1, memS2, memW, ofNat_eq_iff] <;> omega

theorem Raw.memLo_mk : ∀ f ∈ Raw.memLo
    { op, len := 1, d, s1 := memS1 m, s2 := memS2 m, gp, gs, var, w1 := memW m, w2 := 0 }, f.2 = true := by
  simp only [Raw.memLo, memW_mode]
  cases m <;> simp [memMode, memS1, memS2]

theorem Raw.memHi_mk : ∀ f ∈ Raw.memHi
    { op, len := 1, d, s1 := memS1 m, s2 := memS2 m, gp, gs, var, w1 := memW m, w2 := 0 }, f.2 = true := by
  simp only [Raw.memHi, memW_mode]
  cases m <;> simp [memMode, memW] <;> omega

theorem memChecks_pass {b : Bool} (passes : b = true) : ∀ f ∈
    Raw.memLo { op, len := 1, d, s1 := memS1 m, s2 := memS2 m, gp, gs, var, w1 := memW m, w2 := 0 } ++ (29, b) ::
      Raw.memHi { op, len := 1, d, s1 := memS1 m, s2 := memS2 m, gp, gs, var, w1 := memW m, w2 := 0 }, f.2 = true :=
  List.forall_mem_append.2
    ⟨Raw.memLo_mk op d gp gs var m, List.forall_mem_cons.2 ⟨passes, Raw.memHi_mk op d gp gs var m⟩⟩

end Mem

/-! ### The rows of the node forms (R96 to R99) -/

section NodeRow
variable {op : Nat} {a b c : Except DecErr Instr}

theorem nraw32_fits {x : N32} (code : op < 256) : (nraw32 op x).Fits := by
  dsimp only [NRaw.Fits, NRaw.word1, nraw32]
  omega

theorem nraw64_fits {x : N64} (code : op < 256) : (nraw64 op x).Fits := by
  dsimp only [NRaw.Fits, NRaw.word1, nraw64]
  omega

theorem nraw96_fits {x : N96} (code : op < 256) : (nraw96 op x).Fits := by
  dsimp only [NRaw.Fits, NRaw.word1, nraw96]
  omega

@[simp] theorem nraw32_toN32 (x : N32) : (nraw32 op x).toN32 = x := by simp [NRaw.toN32, nraw32]
@[simp] theorem nraw64_toN64 (x : N64) : (nraw64 op x).toN64 = x := by simp [NRaw.toN64, nraw64]
@[simp] theorem nraw96_toN96 (x : N96) : (nraw96 op x).toN96 = x := by simp [NRaw.toN96, nraw96]

/-- First-word consumers that R96 admits pass code 3 of R111. -/
theorem fields1_pass {n : NRaw} {x : N32} (wf : x.wf = true) (t : n.len = 0 ∨ n.t = 0) (k : n.k = x.k.toNat)
    (c1 : n.c1 = x.c1.toNat) (c2 : n.c2 = x.c2.toNat) : ∀ f ∈ n.fields1, f.2 = true := by
  simp [N32.wf, BitVec.le_def, ← BitVec.toNat_inj] at wf
  simp [NRaw.fields1, t, k, c1, c2]
  omega

theorem nraw32_fields1_pass {x : N32} (wf : x.wf = true) : ∀ f ∈ (nraw32 op x).fields1, f.2 = true :=
  fields1_pass wf (.inl rfl) rfl rfl rfl

/-- The fields of a node of two or three words are these consumers, with TC zero. -/
structure NRaw.Holds (n : NRaw) (k : BitVec 2) (c1 c2 : BitVec 9) (den : BitVec 4) (xc : BitVec 2) (c3 c4 : BitVec 9) : Prop where
  t : n.t = 0
  k : n.k = k.toNat
  c1 : n.c1 = c1.toNat
  c2 : n.c2 = c2.toNat
  den : n.den = den.toNat
  xc : n.xc = xc.toNat
  c3 : n.c3 = c3.toNat
  c4 : n.c4 = c4.toNat

/-- Consumers that R98 admits pass codes 3 and 4 of R111. -/
theorem ext_eq_ok {n : NRaw} {k : BitVec 2} {c1 c2 : BitVec 9} {den : BitVec 4} {xc : BitVec 2} {c3 c4 : BitVec 9}
    (h : n.Holds k c1 c2 den xc c3 c4) (wf : consWf k c1 c2 den xc c3 c4 = true) (i : Instr) : n.ext i = .ok i := by
  simp [consWf, BitVec.le_def, ← BitVec.toNat_inj, BitVec.getLsbD, Nat.testBit_eq_decide_div_mod_eq] at wf
  have first := fields1_pass (n := n) (x := ⟨k, c1, c2, 0#2⟩) (by simp [wf]) (.inr h.t) h.k h.c1 h.c2
  have second : ∀ f ∈ n.fields2, f.2 = true := by
    simp [NRaw.fields2, h.xc, h.c3, h.c4]
    omega
  have consumers : n.consumersOk = true := by
    simp [NRaw.consumersOk, h.k, h.den, h.xc]
    omega
  have passes : chk (n.fields1 ++ n.fields2) i = .ok i :=
    chk_eq_ok.2 ⟨List.forall_mem_append.2 ⟨first, second⟩, rfl⟩
  rw [NRaw.ext, passes]
  simp [consumers]

/-- The three forms of a node are the entries of its row (R84). -/
theorem byForm_nraw32 {x : N32} : (nraw32 op x).byForm a b c = a := rfl
theorem byForm_nraw64 {x : N64} : (nraw64 op x).byForm a b c = b := rfl
theorem byForm_nraw96 {x : N96} : (nraw96 op x).byForm a b c = c := rfl

theorem reads_n32 {x : N32} {f : N32 → Instr} (wf : x.wf = true)
    (row : decodeNode (nraw32 op x) = (nraw32 op x).byForm ((nraw32 op x).n32 f) b c)
    (code : op < 256 := by decide) (class_ : (opClass op).isNode = true := by decide) :
    Enc.Reads (f x) (.node (nraw32 op x)) := by
  refine ⟨nraw32_fits code, class_, ?_⟩
  rw [row, byForm_nraw32, NRaw.n32, nraw32_toN32, chk_eq_ok]
  exact ⟨nraw32_fields1_pass wf, rfl⟩

theorem reads_n32t {x : N32} {t : Nat} {f : N32 → Instr} (wf : x.wf = true) (fixed : x.t.toNat = t)
    (row : decodeNode (nraw32 op x) = (nraw32 op x).byForm ((nraw32 op x).n32t t f) b c)
    (code : op < 256 := by decide) (class_ : (opClass op).isNode = true := by decide) :
    Enc.Reads (f x) (.node (nraw32 op x)) := by
  refine ⟨nraw32_fits code, class_, ?_⟩
  rw [row, byForm_nraw32, NRaw.n32t, nraw32_toN32, chk_eq_ok, List.forall_mem_cons]
  exact ⟨⟨beq_iff_eq.2 fixed, nraw32_fields1_pass wf⟩, rfl⟩

theorem reads_n32c {x : N32} {f : N32 → Instr} (wf : x.wf = true) (none_ : x.k.toNat = 0)
    (row : decodeNode (nraw32 op x) = (nraw32 op x).byForm ((nraw32 op x).n32c f) b c)
    (code : op < 256 := by decide) (class_ : (opClass op).isNode = true := by decide) :
    Enc.Reads (f x) (.node (nraw32 op x)) := by
  refine ⟨nraw32_fits code, class_, ?_⟩
  rw [row, byForm_nraw32, NRaw.n32c, nraw32_toN32, chk_eq_ok, List.forall_mem_append, List.forall_mem_singleton]
  exact ⟨⟨nraw32_fields1_pass wf, beq_iff_eq.2 none_⟩, rfl⟩

theorem reads_n64 {x : N64} {f : N64 → Instr} (wf : x.wf = true)
    (row : decodeNode (nraw64 op x) = (nraw64 op x).byForm a ((nraw64 op x).n64 f) c)
    (code : op < 256 := by decide) (class_ : (opClass op).isNode = true := by decide) :
    Enc.Reads (f x) (.node (nraw64 op x)) := by
  refine ⟨nraw64_fits code, class_, ?_⟩
  rw [row, byForm_nraw64, NRaw.n64, nraw64_toN64]
  exact ext_eq_ok ⟨rfl, rfl, rfl, rfl, rfl, rfl, rfl, rfl⟩ wf _

theorem reads_n96 {x : N96} {f : N96 → Instr} (wf : x.wf = true)
    (row : decodeNode (nraw96 op x) = (nraw96 op x).byForm a b ((nraw96 op x).n96 f))
    (code : op < 256 := by decide) (class_ : (opClass op).isNode = true := by decide) :
    Enc.Reads (f x) (.node (nraw96 op x)) := by
  refine ⟨nraw96_fits code, class_, ?_⟩
  rw [row, byForm_nraw96, NRaw.n96, nraw96_toN96]
  exact ext_eq_ok ⟨rfl, rfl, rfl, rfl, rfl, rfl, rfl, rfl⟩ wf _

end NodeRow


/-- Every coded instruction has fields that fit and that its row reads back. The cases are the instructions, grouped by
what their row checks; where it checks an operand, that the instruction is admitted says that the operand passes. -/
theorem reads_of_encodeFields (i : Instr) (admitted : i.wf = true) (coded : (encodeFields i).isSome = true) :
    ∃ e, encodeFields i = some e ∧ Enc.Reads i e := by
  cases i with
  -- rows whose checks are of fields that the encoding leaves zero
  | add | sub | mul | andR | orR | xorR | andn | shl | shr | sar | rot | pin | unpin | qpush | vdecl | eeval | clz
    | popc | movGG | call | cfg | sload | sstore | cpy | etbl | xpose | gather | scatter | mcast | chainw | sstat
    | bararr | eload | ewire | ethr | exf | epop | exb | esel | sel | pref | flush | movGP | cfgList | movPG | movPP
    | jmp | ret | monarm | snap | budget | monarmClr | rettNext | sleep | run | sclose | sbar | spawn | tresume
    | testseq | bound | best | chaint | qpop | barinit | bartest | cfgstep | accrst | portr | rett | budgetTest
    | bestClr | scloseCancel | tendChild | tresumeSkip | scloseQueue | tend | tsync | tsyncTake | tinfo | tinfoCh =>
    exact ⟨_, rfl, reads_oneWord rfl⟩
  | addSi | subSi | mulSi | andSi | orSi | xorSi | andnSi | shlSi | shrSi | sarSi | rotSi | cfgSi | sloadSi
    | sstoreSi | cpySi | etblSi | xposeSi | gatherSi | scatterSi | mcastSi | chainwSi | pinSi | unpinSi | bararrSi
    | eloadSi | ewireSi | ethrSi | exfSi | epopSi | exbSi | plog | litSi | cfgstepSi | sleepSi | runSi | testseqSi
    | cfgListSi | portrSi | trap | budgetSi | budgetTestSi | bestClrSi | bestSi | chaintSi | barinitSi | bartestSi
    | spawnSi | scloseSi | scloseCancelSi | scloseQueueSi | sbarSi | prefSi | flushSi | qpushSi | qpopSi
    | vdeclSi =>
    exact ⟨_, rfl, reads_twoWords rfl⟩
  -- rows with a flag in VAR
  | mulh g u d a b | div g u d a b | rem g u d a b | min g u d a b | max g u d a b | ext g u d a b
    | portw g u p a b | qseq g u d a =>
    have lt := u.toNat_lt
    cases u <;> exact ⟨_, rfl, reads_oneWord rfl⟩
  | mulhSi g u d a imm | divSi g u d a imm | remSi g u d a imm | minSi g u d a imm | maxSi g u d a imm
    | portwSi g u p a imm | qseqSi g u d imm =>
    have lt := u.toNat_lt
    cases u <;> exact ⟨_, rfl, reads_twoWords rfl⟩
  -- rows that check an operand
  | extSi g u d a imm =>
    obtain ⟨least, most⟩ := Bool.and_eq_true_iff.1 admitted
    have width : 1 ≤ imm.toNat ∧ imm.toNat ≤ 64 := ⟨of_decide_eq_true least, of_decide_eq_true most⟩
    have lt := u.toNat_lt
    cases u <;> exact ⟨_, rfl, reads_twoWords rfl (entry := by simp [width])⟩
  | nop | halt =>
    exact ⟨_, rfl, reads_oneWord rfl (entry := by simp [noGuard])⟩
  | bitf g ins sgn d a lsb wm1 =>
    obtain ⟨width, notBoth⟩ := Bool.and_eq_true_iff.1 admitted
    have width : lsb.toNat + wm1.toNat ≤ 63 := of_decide_eq_true width
    have ltIns := ins.toNat_lt
    have ltSgn := sgn.toNat_lt
    refine ⟨_, rfl, reads_twoWords rfl (entry := ?_)⟩
    cases ins <;> cases sgn <;> simp [ofNat_eq_iff] at notBoth ⊢ <;> omega
  | cmp g c p a b =>
    have le := condCode_le c
    have whole : (p.toNat + condCode c / 8 * 8) / 8 * 8 + condCode c % 8 = condCode c := by omega
    exact ⟨_, rfl, reads_oneWord rfl (entry := by simp [whole, le, ofNat_eq_iff])⟩
  | cmpSi g c p a imm =>
    have le := condCode_le c
    have whole : (p.toNat + condCode c / 8 * 8) / 8 * 8 + condCode c % 8 = condCode c := by omega
    exact ⟨_, rfl, reads_twoWords rfl (entry := by simp [whole, le, ofNat_eq_iff])⟩
  | litSl =>
    exact ⟨_, rfl, reads_threeWords rfl⟩
  | lea g d m =>
    have lt1 := memS1_lt m
    have lt2 := memS2_lt m
    have ltW := memW_lt m
    exact ⟨_, rfl, reads_twoWords rfl (entry := chk_eq_ok.2 ⟨memChecks_pass _ _ _ _ _ m rfl, by simp⟩)⟩
  | ld g ty d m | st g ty d m =>
    have lt1 := memS1_lt m
    have lt2 := memS2_lt m
    have ltW := memW_lt m
    have le := tyCode_le ty
    exact ⟨_, rfl, reads_twoWords rfl (entry := chk_eq_ok.2 ⟨memChecks_pass _ _ _ _ _ m (by simp [le]), by simp⟩)⟩
  | amo g op ty d a b disp =>
    have least : 3 ≤ tyCode ty := of_decide_eq_true admitted
    have le := tyCode_le ty
    have leOp := aopCode_le op
    have opField : (disp.toNat + 16777216 * aopCode op) / 16777216 % 16 = aopCode op := by omega
    exact ⟨_, rfl, reads_twoWords rfl (entry := by simp [opField, least, le, leOp, ofNat_eq_iff]; omega)⟩
  | fence g sc =>
    have le := scopeCode_le sc
    exact ⟨_, rfl, reads_oneWord rfl (entry := by simp [le])⟩
  | br g off =>
    exact ⟨_, rfl, reads_oneWord rfl (entry := by simp [ofNat_eq_iff]; omega)⟩
  | brSbl g off | jmpSbl g off | callSbl g d off | loop g d off =>
    have aligned : off.toNat % 4 = 0 := eq_of_beq admitted
    exact ⟨_, rfl, reads_twoWords rfl (entry := by simp [aligned])⟩
  | boundSi g p b node blk | eselSi g d w t | eevalSi g d first cm1 =>
    exact ⟨_, rfl, reads_twoWords rfl (entry := by simp [ofNat_eq_iff]; omega)⟩
  | accrstSi g n imm =>
    have range := (Bool.or_eq_true_iff.1 admitted).imp of_decide_eq_true of_decide_eq_true
    exact ⟨_, rfl, reads_twoWords rfl (entry := by simp [range])⟩
  | accrd g part d n =>
    have known : part.toNat ≤ 4 := of_decide_eq_true admitted
    exact ⟨_, rfl, reads_oneWord rfl (entry := by simp [known])⟩
  | accrdSi g part d n =>
    have known : part.toNat ≤ 4 := of_decide_eq_true admitted
    exact ⟨_, rfl, reads_twoWords rfl (entry := by simp [known])⟩
  | csrr g d n | csrw g a n =>
    have lt := csrCode_lt n
    have code : csrCode n % 4096 = csrCode n := by omega
    exact ⟨_, rfl, reads_twoWords rfl (entry := by rw [chkCsr_of_code _ code]; simp; omega)⟩
  | csrx g d a n lsb wm1 =>
    have lt := csrCode_lt n
    have width : lsb.toNat + wm1.toNat ≤ 63 := of_decide_eq_true admitted
    have code : (csrCode n + 4096 * lsb.toNat + 262144 * wm1.toNat) % 4096 = csrCode n := by omega
    exact ⟨_, rfl, reads_twoWords rfl (entry := by rw [chkCsr_of_code _ code]; simp [ofNat_eq_iff]; omega)⟩
  | sstatSi g d eq field =>
    have known : field.toNat < 11 := of_decide_eq_true admitted
    exact ⟨_, rfl, reads_twoWords rfl (entry := by simp [ofNat_eq_iff]; omega)⟩
  | qfence g sc p a =>
    have least : 2 ≤ scopeCode sc := of_decide_eq_true admitted
    have le := scopeCode_le sc
    exact ⟨_, rfl, reads_oneWord rfl (entry := by simp [least, le])⟩
  | qfenceSi g sc p mask =>
    have least : 2 ≤ scopeCode sc := of_decide_eq_true admitted
    have le := scopeCode_le sc
    exact ⟨_, rfl, reads_twoWords rfl (entry := by simp [least, le])⟩
  | tinfoSi g d field view | tinfoChSi g d a field view =>
    have known : field.toNat < 12 := of_decide_eq_true admitted
    exact ⟨_, rfl, reads_twoWords rfl (entry := by simp [ofNat_eq_iff]; omega)⟩
  -- nodes
  | ingr | cst | addNode | subNode | mulNode | mad | minNode | maxNode | absNode | andNode | orNode | xorNode
    | shlNode | shrNode | sarNode | selNode | cvt | fadd | fmul | fma | fmin | fmax | six | sun | topk | mm | drain
    | cnt | agen | join | split | merge | steer | bartok | ldn | stn | atomNode | acqn | wcvt | mstore | shuf
    | fmerge | fins | fscan | fprobe | finter | ftopk =>
    exact ⟨_, rfl, reads_n32 admitted rfl⟩
  | ingrN64 | egrN64 | cstN64 | addNodeN64 | subNodeN64 | mulNodeN64 | madN64 | minNodeN64 | maxNodeN64
    | absNodeN64 | andNodeN64 | orNodeN64 | xorNodeN64 | shlNodeN64 | shrNodeN64 | sarNodeN64 | cmpNodeN64
    | selNodeN64 | cvtN64 | faddN64 | fmulN64 | fmaN64 | fminN64 | fmaxN64 | fcmpN64 | frcpN64 | frsqN64 | fexp2N64
    | flog2N64 | unpk3N64 | bmandN64 | pfxpopN64 | sixN64 | sunN64 | topkN64 | mmN64 | mmplN64 | accN64 | drainN64
    | cntN64 | agenN64 | joinN64 | splitN64 | mergeN64 | steerN64 | bartokN64 | ldnN64 | stnN64 | atomNodeN64
    | acqnN64 | relnN64 | wcvtN64 | mstoreN64 | pivdivN64 | residN64 | shufN64 | fmergeN64 | finsN64 | fscanN64
    | fprobeN64 | finterN64 | fcountN64 | fclearN64 | fcompactN64 | ftopkN64 | fstatN64 =>
    exact ⟨_, rfl, reads_n64 admitted rfl⟩
  | ingrN96 | egrN96 | cstN96 | addNodeN96 | subNodeN96 | mulNodeN96 | madN96 | minNodeN96 | maxNodeN96
    | absNodeN96 | andNodeN96 | orNodeN96 | xorNodeN96 | shlNodeN96 | shrNodeN96 | sarNodeN96 | cmpNodeN96
    | selNodeN96 | cvtN96 | faddN96 | fmulN96 | fmaN96 | fminN96 | fmaxN96 | fcmpN96 | frcpN96 | frsqN96 | fexp2N96
    | flog2N96 | unpk3N96 | bmandN96 | pfxpopN96 | sixN96 | sunN96 | topkN96 | mmN96 | mmplN96 | accN96 | drainN96
    | cntN96 | agenN96 | joinN96 | splitN96 | mergeN96 | steerN96 | bartokN96 | ldnN96 | stnN96 | atomNodeN96
    | acqnN96 | relnN96 | wcvtN96 | mstoreN96 | pivdivN96 | residN96 | shufN96 | fmergeN96 | finsN96 | fscanN96
    | fprobeN96 | finterN96 | fcountN96 | fclearN96 | fcompactN96 | ftopkN96 | fstatN96 =>
    exact ⟨_, rfl, reads_n96 admitted rfl⟩
  | egr x | acc x =>
    obtain ⟨wf, none_⟩ := Bool.and_eq_true_iff.1 admitted
    exact ⟨_, rfl, reads_n32c wf (by simp [eq_of_beq none_]) rfl⟩
  | cmpNode x | fcmp x | unpk3 x | mmpl x | frcp x | frsq x | fexp2 x | flog2 x | pivdiv x | resid x | pfxpop x =>
    obtain ⟨wf, fixed⟩ := Bool.and_eq_true_iff.1 admitted
    exact ⟨_, rfl, reads_n32t wf (by simp [eq_of_beq fixed]) rfl⟩
  -- the events, which are not coded
  | _ => cases coded

/-- Settles O58, row by row: the fields of an instruction fit in its words, the words give the fields back, and the row of
its operation reads them as the instruction. -/
theorem encodeDecode : Obligations.EncodeDecode := by
  intro i rest coded admitted
  obtain ⟨e, enc, reads⟩ := reads_of_encodeFields i admitted coded
  exact decode_of_reads enc reads rest

/-- Settles O57: the decoder, run on the worked words. -/
theorem workedEncodings : Obligations.WorkedEncodings := by
  unfold Obligations.WorkedEncodings
  and_intros <;> rfl

end Sys2Proof
end

section
/-! Traps that are not an instruction's own, and the register file (05 R93, R117; 20 R428 to R434). -/
namespace Sys2Proof.Machine

/-! ### A double trap reaches the context, not the residencies or memory (R347, R349, R434) -/

@[simp] theorem settle_regions (s : State) (c : Nat) : (s.settle c).regions = s.regions := by
  unfold State.settle; split
  · rfl
  · split
    · rfl
    · split <;> rfl

@[simp] theorem settle_mem (s : State) (c : Nat) : (s.settle c).mem = s.mem := by
  unfold State.settle; split
  · rfl
  · split
    · rfl
    · split <;> rfl

@[simp] theorem hold_regions (s : State) (c : Nat) (st : CtxState) (note : List Sent) :
    (s.hold c st note).regions = s.regions := by
  unfold State.hold; split <;> simp

@[simp] theorem hold_mem (s : State) (c : Nat) (st : CtxState) (note : List Sent) : (s.hold c st note).mem = s.mem := by
  unfold State.hold; split <;> simp

@[simp] theorem ctxDoubleTrap_regions (s : State) (c : Nat) (first second : List W64) :
    (s.ctxDoubleTrap c first second).regions = s.regions := by
  unfold State.ctxDoubleTrap; split
  · rfl
  · split <;> simp

@[simp] theorem ctxDoubleTrap_mem (s : State) (c : Nat) (first second : List W64) :
    (s.ctxDoubleTrap c first second).mem = s.mem := by
  unfold State.ctxDoubleTrap; split
  · rfl
  · split <;> simp

theorem ctxDoubleTrap_rg? (s : State) (c r : Nat) (first second : List W64) :
    (s.ctxDoubleTrap c first second).rg? r = s.rg? r := by
  rw [State.rg?, ctxDoubleTrap_regions, State.rg?]

/-- The region after a double trap of one of its sequencers (R434). -/
def Region.trappedTwice (rg : Region) (pg : Nat) (q : Seq) : Region :=
  { rg with seqs := listUpd rg.seqs pg (fun _ => { q with stuck := true }), doomed := true }

theorem doubleTrap_rg? {s : State} {r : Nat} {rg : Region} (h : s.rg? r = some rg) (pg : Nat) (q : Seq) (t : TrapRec) :
    (s.doubleTrap r pg q t).rg? r = some (rg.trappedTwice pg q) := by
  simp only [State.doubleTrap, h, ctxDoubleTrap_rg?, rg?_setRg_same, Region.trappedTwice]

theorem doubleTrap_mem (s : State) (r pg : Nat) (q : Seq) (t : TrapRec) : (s.doubleTrap r pg q t).mem = s.mem := by
  unfold State.doubleTrap; split <;> simp

theorem seq?_of {s : State} {r pg : Nat} {rg : Region} {q : Seq} (region : s.rg? r = some rg)
    (regs : rg.seqs[pg]? = some q) : s.seq? r pg = some q := by
  simp [State.seq?, region, regs]

/-! ### The register file (R93, R117) -/

/-- What a write of a register gives: its value, good parity, and a good duplicate in front of the others (R117). -/
theorem Seq.setG_of_ne (q : Seq) {n : Reg} (h : n ≠ 0) (v : W64) :
    q.setG n v = { q with
      g := q.g.set n.toNat v n.isLt
      parity := q.parity &&& ~~~ (1#32 <<< n.toNat)
      dupParity := q.dupParity &&& ~~~ (1#32 <<< n.toNat)
      dups := ((n, v) :: q.dups.filter (fun e => e.1 != n)).take 16 } := if_neg h

/-- A bit that is cleared is 0. -/
theorem getLsbD_clear_same (x : BitVec 32) (n : Nat) : (x &&& ~~~ (1#32 <<< n)).getLsbD n = false := by
  by_cases h : n < 32
  · simp [h]
  · simp [BitVec.getLsbD_of_ge _ _ (Nat.le_of_not_lt h)]

theorem Seq.parity_setG_same (q : Seq) {n : Reg} (h : n ≠ 0) (v : W64) :
    (q.setG n v).parity.getLsbD n.toNat = false := by
  rw [Seq.setG_of_ne q h]
  exact getLsbD_clear_same q.parity n.toNat

theorem Seq.dups_setG_same (q : Seq) {n : Reg} (h : n ≠ 0) (v : W64) :
    (q.setG n v).dups.find? (fun e => e.1 = n) = some (n, v) := by
  simp [Seq.setG_of_ne q h]

theorem Seq.dups_setG_length (q : Seq) {n : Reg} (h : n ≠ 0) (v : W64) : (q.setG n v).dups.length ≤ 16 := by
  rw [Seq.setG_of_ne q h]
  exact List.length_take_le 16 _

theorem Seq.setP_of_ne (q : Seq) {n : PReg} (h : n ≠ 0) (b : Bool) :
    q.setP n b = { q with p := if b then q.p ||| (1#8 <<< n.toNat) else q.p &&& ~~~ (1#8 <<< n.toNat) } := if_neg h

theorem Seq.getP_of_ne (q : Seq) {n : PReg} (h : n ≠ 0) : q.getP n = q.p.getLsbD n.toNat := by
  rw [Seq.getP, decide_eq_false h, Bool.false_or]

/-- A predicate reads as it was written, but for p0. -/
theorem Seq.getP_setP_same (q : Seq) {n : PReg} (h : n ≠ 0) (b : Bool) : (q.setP n b).getP n = b := by
  have lt : n.toNat < 8 := n.isLt
  rw [Seq.getP_of_ne _ h, Seq.setP_of_ne q h]
  cases b <;> simp [lt]

/-- A write leaves every other predicate alone. -/
theorem Seq.getP_setP_ne (q : Seq) {n m : PReg} (h : m ≠ n) (b : Bool) : (q.setP n b).getP m = q.getP m := by
  by_cases toP0 : n = 0
  · rw [toP0]; exact congrArg (Seq.getP · m) (Seq.setP_zero q b)
  · have apart : m.toNat < n.toNat ∨ m.toNat - n.toNat ≠ 0 := by
      have := mt BitVec.eq_of_toNat_eq h
      omega
    have lt : m.toNat < 8 := m.isLt
    rw [Seq.setP_of_ne q toP0, Seq.getP, Seq.getP]
    cases b <;> rcases apart with apart | apart <;> simp [lt, apart]

/-! ### Registers that fail parity (R117) -/

variable {q : Seq} {a : Reg}

/-- The registers once g[a] is repaired from its duplicate `x`. -/
def Seq.repaired (q : Seq) (a : Reg) (x : W64) : Seq :=
  { q with g := q.g.set a.toNat x a.isLt, parity := q.parity &&& ~~~(1#32 <<< a.toNat) }

/-- The registers once the bad duplicate of g[a] is discarded. -/
def Seq.discarded (q : Seq) (a : Reg) : Seq :=
  { q with dups := q.dups.filter (fun e => e.1 != a), dupParity := q.dupParity &&& ~~~(1#32 <<< a.toNat) }

theorem getG_repaired (h : a ≠ 0) (x : W64) : (q.repaired a x).getG a = x := by
  rw [Seq.getG, if_neg h, Seq.repaired, Vector.getElem_set_self]

theorem parity_repaired (x : W64) : (q.repaired a x).parity.getLsbD a.toNat = false :=
  getLsbD_clear_same q.parity a.toNat

section Scrub
variable (h : a ≠ 0) (bad : q.parity.getLsbD a.toNat = true) (t : List Reg)
include h bad

/-- A source that fails parity is not passed over. -/
theorem scrub_fails : ¬ (a = 0 || !q.parity.getLsbD a.toNat) = true := by
  rw [decide_eq_false h, bad]
  decide

/-- A good duplicate repairs the register, and the repair is counted; the other sources are read with it repaired. -/
theorem scrub_repairs {x : W64} (dup : q.dups.find? (fun e => e.1 = a) = some (a, x))
    (good : q.dupParity.getLsbD a.toNat = false) :
    q.scrub (a :: t) = (((q.repaired a x).scrub t).1, ((q.repaired a x).scrub t).2.1 + 1, ((q.repaired a x).scrub t).2.2) := by
  simp only [Seq.scrub, if_neg (scrub_fails h bad), dup, good]
  rfl

theorem scrub_no_duplicate (none_ : q.dups.find? (fun e => e.1 = a) = none) : q.scrub (a :: t) = (q, 0, some a) := by
  simp only [Seq.scrub, if_neg (scrub_fails h bad), none_]

theorem scrub_bad_duplicate {x : W64} (dup : q.dups.find? (fun e => e.1 = a) = some (a, x))
    (worse : q.dupParity.getLsbD a.toNat = true) : q.scrub (a :: t) = (q.discarded a, 0, some a) := by
  simp only [Seq.scrub, if_neg (scrub_fails h bad), dup, worse, if_true, Seq.discarded]

end Scrub

/-- Reading sources leaves pc. -/
theorem scrub_pc (q : Seq) (src : List Reg) : (q.scrub src).1.pc = q.pc := by
  induction src generalizing q with
  | nil => rfl
  | cons n t ih =>
    rw [Seq.scrub]
    split
    · exact ih q
    · split
      · split
        · rfl
        · exact ih _
      · rfl

/-! ### Writing registers, and counting repairs, in the state -/

/-- A write of one sequencer's registers changes the residencies only. -/
theorem setSeq_frame (s : State) (r pg : Nat) (q : Seq) :
    s.setSeq r pg q = { s with regions := (s.setSeq r pg q).regions } := by
  unfold State.setSeq; split <;> rfl

theorem seq?_setSeq_ne {s : State} {r pg k : Nat} {rg : Region} (region : s.rg? r = some rg) (h : k ≠ pg) (q : Seq) :
    (s.setSeq r pg q).seq? r k = s.seq? r k := by
  simp [State.seq?, rg?_setSeq region, region, listUpd_getElem?_ne _ h]

theorem rg?_setSeq_ne {s : State} {r k : Nat} {rg : Region} (region : s.rg? r = some rg) (h : k ≠ r) (pg : Nat) (q : Seq) :
    (s.setSeq r pg q).rg? k = s.rg? k := by
  rw [setSeq_eq region, rg?_setRg_ne s h]

@[simp] theorem countRepairs_zero (s : State) : s.countRepairs 0 = s := rfl

@[simp] theorem countRepairs_rg? (s : State) (n r : Nat) : (s.countRepairs n).rg? r = s.rg? r := by
  unfold State.countRepairs; split <;> rfl

theorem countRepairs_repairs (s : State) (n : Nat) : (s.countRepairs n).tele.repairs = s.tele.repairs + n := by
  unfold State.countRepairs; split
  · next zero => simp [zero]
  · rfl

/-- Counting repairs changes the telemetry counters only. -/
theorem countRepairs_frame (s : State) (n : Nat) : s.countRepairs n = { s with tele := (s.countRepairs n).tele } := by
  unfold State.countRepairs; split <;> rfl

/-! ### An instruction whose sources are read with repairs, or trap (R117) -/

section Parity
variable {s : State} {r pg : Nat} {rg : Region} {g : Guard} {src : List Reg} {q1 : Seq} {n : Nat}

/-- The state that an effect on registers leaves when the sources were read with `n` repairs. -/
def State.afterRepairs (s : State) (r pg n : Nat) (read result : Seq) : State :=
  ((s.setSeq r pg read).countRepairs n).setSeq r pg result

theorem runRegs_repaired (seat : Seat s r pg rg q) (guard : q.guardOk g = true) (read : q.scrub src = (q1, n, none))
    (len : Nat) (k : Seq → Seq) :
    runRegs len g src s k = .next (s.afterRepairs r pg n (past q1 len) (k (past q1 len))) := by
  have pc : q1.pc = q.pc := by simpa [read] using scrub_pc q src
  simp only [runRegs, runSeq, seat.agent, seat.region, seat.regs, guard, read, past, pc]
  rfl

theorem runSeq_parityTrap (seat : Seat s r pg rg q) (guard : q.guardOk g = true) {bad : Reg}
    (read : q.scrub src = (q1, 0, some bad)) (runs : q1.inh = false) (len : Nat) (k : Run → Except TrapRec State) :
    runSeq len g src s k = .next (s.setSeq r pg (q1.enter q.pc { cause := 4, einfo := w64 bad.toNat })) := by
  simp only [runSeq, seat.agent, seat.region, seat.regs, guard, read, countRepairs_zero]
  rw [trap_taken (seq?_setSeq seat.region seat.regs q1) runs, setSeq_setSeq]
  rfl

theorem afterRepairs_seq? (region : s.rg? r = some rg) (regs : rg.seqs[pg]? = some q) (read result : Seq) :
    (s.afterRepairs r pg n read result).seq? r pg = some result := by
  have region1 : ((s.setSeq r pg read).countRepairs n).rg? r = _ := (countRepairs_rg? _ n r).trans (rg?_setSeq region pg read)
  exact seq?_setSeq region1 (q0 := read) (by simp [listUpd_getElem?_same, regs]) result

theorem afterRepairs_repairs (read result : Seq) :
    (s.afterRepairs r pg n read result).tele.repairs = s.tele.repairs + n := by
  rw [State.afterRepairs, setSeq_frame, countRepairs_repairs, setSeq_frame s]

theorem afterRepairs_frame (read result : Seq) :
    let t := s.afterRepairs r pg n read result
    t = { s with regions := t.regions, tele := t.tele } := by
  rw [State.afterRepairs, setSeq_frame, countRepairs_frame, setSeq_frame s]

end Parity

end Sys2Proof.Machine

namespace Sys2Proof
open Machine

/-! ### Traps of fetch and of devices, and the double trap -/

/-- The part of O14 on a synchronous trap in a handler: it is a double trap of the region. -/
theorem doubleTrapStops : Statements.DoubleTrapStops := by
  intro s r pg rg q t region regs inHandler
  have doubled : s.trap r pg q.pc t = s.doubleTrap r pg q t := by
    simp only [State.trap, seq?_of region regs, inHandler, if_true]
  refine ⟨rg.trappedTwice pg q, ?_, ?_, rfl, ?_⟩
  · rw [doubled, doubleTrap_rg? region]
  · simp [Region.trappedTwice, listUpd_getElem?_same, regs]
  · rw [doubled, doubleTrap_mem]

/-- The part of O14 on traps that are taken: a fetch fault's at its instruction, a pending one's before the next. -/
theorem fetchAndAsynchronousTraps : Statements.FetchAndAsynchronousTraps := by
  intro s r pg rg q f t rest seat open_
  have here := seq?_of seat.region seat.regs
  have page : s.trapPage = pg := by simp [State.trapPage, seat.agent]
  refine ⟨?_, fun goes first => ?_⟩
  · simp [execFetchFault, seat.agent, here, trap_taken here open_]
  · simp [execAsyncTrapTaken, seat.region, page, here, first, open_, goes]

/-- Settles O14: the double trap, and the traps that are taken. -/
theorem otherTraps : Obligations.OtherTraps := ⟨doubleTrapStops, fetchAndAsynchronousTraps⟩

/-! ### The register file -/

/-- The part of O6 on writes: first the registers of one sequencer, then the state that holds them. -/
theorem registerWrites : Statements.RegisterWrites := by
  refine ⟨fun q n m k j v b => ⟨q.setG_zero v, q.setP_zero b, Seq.getG_zero _, Seq.getP_zero _, fun real => ?_,
    q.getG_setG_ne v, fun real => q.getP_setP_same real b, fun other => q.getP_setP_ne other b, by simp, by simp⟩,
    fun s r pg rg q region => ?_⟩
  · exact ⟨q.getG_setG_same n v real, q.parity_setG_same real v, q.dups_setG_same real v, q.dups_setG_length real v⟩
  · have frame := setSeq_frame s r pg q
    refine ⟨fun a => by rw [frame], fun k other => seq?_setSeq_ne region other q,
      fun k other => rg?_setSeq_ne region other pg q, ⟨_, rg?_setSeq region pg q, rfl⟩, frame⟩

/-- The part of O6 on reads, by what stands in the duplicate: a good value, nothing, or a bad one. -/
theorem registerParity : Statements.RegisterParity := by
  intro s r pg rg q g d a seat guard notG0 fails trap
  have mov : exec (.movGG g d a) s = runRegs 1 g [a] s (fun q => q.setG d (q.getG a)) := rfl
  have add : exec (.add g d a a) s = runRegs 1 g [a, a] s (fun q => q.setG d (q.getG a + q.getG a)) := rfl
  refine ⟨fun x dup good => ?repaired, fun open_ none_ => ?noDuplicate, fun x open_ dup worse => ?badDuplicate⟩
  case repaired =>
    have clean : ∀ n ∈ [a], n = 0 ∨ (q.repaired a x).parity.getLsbD n.toNat = false :=
      List.forall_mem_singleton.2 (.inr (parity_repaired x))
    have once : q.scrub [a] = (q.repaired a x, 1, none) := scrub_repairs notG0 fails [] dup good
    have twice : q.scrub [a, a] = (q.repaired a x, 1, none) := by
      rw [scrub_repairs notG0 fails [a] dup good, scrub_clean _ _ clean]
    have value : (past (q.repaired a x) 1).getG a = x := getG_repaired notG0 x
    refine ⟨_, _, mov.trans (runRegs_repaired seat guard once 1 _), add.trans (runRegs_repaired seat guard twice 1 _),
      afterRepairs_repairs _ _, afterRepairs_repairs _ _, ?_, ?_, afterRepairs_frame _ _, afterRepairs_frame _ _⟩
    · rw [afterRepairs_seq? seat.region seat.regs, value]
      rfl
    · rw [afterRepairs_seq? seat.region seat.regs, value]
      rfl
  case noDuplicate =>
    exact ⟨mov.trans (runSeq_parityTrap seat guard (scrub_no_duplicate notG0 fails [] none_) open_ 1 _),
      add.trans (runSeq_parityTrap seat guard (scrub_no_duplicate notG0 fails [a] none_) open_ 1 _)⟩
  case badDuplicate =>
    exact ⟨mov.trans (runSeq_parityTrap seat guard (scrub_bad_duplicate notG0 fails [] dup worse) open_ 1 _),
      add.trans (runSeq_parityTrap seat guard (scrub_bad_duplicate notG0 fails [a] dup worse) open_ 1 _)⟩

/-- Settles O6: writes of registers, and reads that fail parity. -/
theorem registerFile : Obligations.RegisterFile := ⟨registerWrites, registerParity⟩

end Sys2Proof
end

section
/-! Instructions that run to a result; the issue of engine commands and their acceptance into a queue (06 R152 to R156). -/
namespace Sys2Proof.Machine

/-! ### Running an instruction to its result -/

variable {s : State} {r pg : Nat} {rg : Region} {q : Seq} {g : Guard} {src : List Reg}

/-- An instruction that may read some registers may run another that reads fewer. -/
theorem able_of_subset {few : List Reg} (able : Able s r pg rg q g src) (sub : few ⊆ src) : Able s r pg rg q g few :=
  ⟨able.seat, able.guard, fun n mem => able.clean n (sub mem)⟩

/-- An instruction whose meaning gives a state steps to it. -/
theorem runSeq_ok (able : Able s r pg rg q g src) {len : Nat} {k : Run → Except TrapRec State} {t : State}
    (runs : k (runAt s r pg rg q len) = .ok t) : runSeq len g src s k = .next t := by
  rw [runSeq_able able, runs]

/-- An instruction whose meaning never traps steps to the state it gives. -/
theorem runSeq_total (able : Able s r pg rg q g src) {len : Nat} {f : Run → State} {t : State}
    (gives : f (runAt s r pg rg q len) = t) : runSeq len g src s (fun v => .ok (f v)) = .next t :=
  runSeq_ok able (congrArg Except.ok gives)

/-! ### Engine commands (R152 to R156) -/

/-- A refusal writes its code and changes nothing else (R153). -/
theorem refuse_eq (n c : Nat) (d : Reg) :
    (runAt s r pg rg q n).refuse d c = .ok (s.setSeq r pg ((past q n).setG d (BitVec.ofNat 64 (2 ^ 63 + c)))) :=
  congrArg Except.ok (runAt_set s r pg rg q _ n)

theorem dw_zero (l : List W64) : dw l 0 = l.head?.getD 0 := by cases l <;> rfl

/-- The lowest field of a word. -/
theorem fld_zero (x : W64) (w : Nat) : fld x 0 w = x.toNat % 2 ^ w := by rw [fld, Nat.pow_zero, Nat.div_one]

theorem headBad_iff (h : W64) : headBad h = true ↔ h.toNat / 4096 % 16 ≠ 0 ∨ h.toNat / 2 ^ 48 ≠ 0 := by
  have lt : h.toNat / 2 ^ 48 < 2 ^ 16 := by have := h.isLt; omega
  rewrite [headBad, Bool.or_eq_true, bne_iff_ne, bne_iff_ne, or_comm, fld, fld, Nat.mod_eq_of_lt lt]
  rfl

/-- A first dword is refused for its length or a reserved bit (R154, R155). -/
theorem head_refused_iff (h : W64) (dlen : Nat) : (fld (dw [h] 0) 0 8 != dlen || headBad (dw [h] 0)) = true ↔
    h.toNat % 256 ≠ dlen ∨ h.toNat / 4096 % 16 ≠ 0 ∨ h.toNat / 2 ^ 48 ≠ 0 := by
  have length : fld (dw [h] 0) 0 8 = h.toNat % 256 := fld_zero h 8
  rewrite [Bool.or_eq_true, bne_iff_ne, length]
  exact or_congr Iff.rfl (headBad_iff h)

section Issue
variable {v : Run} {d : Reg} {a : W64} {op : EngOp}

theorem issue_unreadable {t : TrapRec} (first : v.readDws a 1 = .error t) : v.issue d a op = .error t := by
  rw [Run.issue, first]

theorem issue_badHead {h : W64} (first : v.readDws a 1 = .ok [h])
    (bad : h.toNat % 256 ≠ dlenOf op ∨ h.toNat / 4096 % 16 ≠ 0 ∨ h.toNat / 2 ^ 48 ≠ 0) :
    v.issue d a op = v.refuse d 2 := by
  simp only [Run.issue, first, (head_refused_iff h (dlenOf op)).2 bad, if_true]

/-- A descriptor whose first dword is good is read whole and checked (R154). -/
theorem issue_read {h : W64} {desc : List W64} (first : v.readDws a 1 = .ok [h]) (length : h.toNat % 256 = dlenOf op)
    (reserved : h.toNat / 4096 % 16 = 0) (high : h.toNat / 2 ^ 48 = 0) (whole : v.readDws a (dlenOf op) = .ok desc) :
    v.issue d a op =
      if descCode op v.rg.nmem desc ≠ 0 then v.refuse d (descCode op v.rg.nmem desc)
      else if 32 ≤ (v.rg.eq (dEq desc)).entries.length then v.refuse d 1 else .ok (v.accept d (dEq desc) op desc) := by
  have good : (fld (dw [h] 0) 0 8 != dlenOf op || headBad (dw [h] 0)) = false := by
    rewrite [Bool.eq_false_iff, Ne, head_refused_iff]
    rintro (bad | bad | bad)
    · exact bad length
    · exact bad reserved
    · exact bad high
  simp only [Run.issue, first, good, whole, Run.members]
  cases code : descCode op v.rg.nmem desc <;> simp

end Issue

/-- What R152 to R156 say of a command of kind `op` with a descriptor of `dlen` dwords at `a`, issued by the instruction `i`
of `n` words. -/
def Issues (s : State) (r pg : Nat) (rg : Region) (q : Seq) (d : Reg) (op : EngOp) (dlen n : Nat) (a : W64) (i : Instr) :
    Prop :=
  let v := runAt s r pg rg q n
  let no := fun (c : Nat) => Host.Outcome.next (s.setSeq r pg ((past q n).setG d (BitVec.ofNat 64 (2 ^ 63 + c))))
  (∀ h, v.readDws a 1 = .ok [h] →
    (h.toNat % 256 ≠ dlen ∨ h.toNat / 4096 % 16 ≠ 0 ∨ h.toNat / 2 ^ 48 ≠ 0 → exec i s = no 2) ∧
    (∀ desc, h.toNat % 256 = dlen → h.toNat / 4096 % 16 = 0 → h.toNat / 2 ^ 48 = 0 →
      v.readDws a dlen = .ok desc →
      let k := desc.head?.getD 0
      let eq := k.toNat / 256 % 8
      (descCode op rg.nmem desc ≠ 0 → exec i s = no (descCode op rg.nmem desc)) ∧
      (descCode op rg.nmem desc = 0 → 32 ≤ (rg.eq eq).entries.length → exec i s = no 1) ∧
      (descCode op rg.nmem desc = 0 → (rg.eq eq).entries.length < 32 →
        exec i s = .next ((v.drained.s.updRg r (fun x => x.setEq eq { x.eq eq with
          next := (x.eq eq).next + 1
          entries := (x.eq eq).entries ++
            [.cmd { op := op, seq := (rg.eq eq).next, desc := desc, page := pg, since := x.bankStamp }] })).setSeq
          r pg (({ past q n with stores := [] } : Seq).setG d (BitVec.ofNat 64 (rg.eq eq).next)))))) ∧
  (∀ t, v.readDws a 1 = .error t → t.cause ≠ 256 → q.inh = false → exec i s = .next (s.setSeq r pg (q.enter q.pc t)))

section
variable {n : Nat} {d : Reg} {op : EngOp} {i : Instr}

/-- An instruction whose meaning is the issue of the descriptor at `at_` issues as R152 to R156 say. -/
theorem issues_of_runSeq {at_ : Run → W64} (able : Able s r pg rg q g src)
    (runs : exec i s = runSeq n g src s (fun v => v.issue d (at_ v) op)) :
    Issues s r pg rg q d op (dlenOf op) n (at_ (runAt s r pg rg q n)) i := by
  let v := runAt s r pg rg q n
  have result {t : State} (h : v.issue d (at_ v) op = .ok t) : exec i s = .next t := runs.trans (runSeq_ok able h)
  have refusal {c : Nat} (h : v.issue d (at_ v) op = v.refuse d c) := result (h.trans (refuse_eq n c d))
  refine ⟨fun h first => ⟨fun bad => refusal (issue_badHead first bad), fun desc length reserved high whole => ?_⟩,
    fun t bad noWait open_ => runs.trans
      (runSeq_traps able n _ (issue_unreadable bad) (by simpa [TrapRec.waits] using noWait) open_)⟩
  have read := issue_read (d := d) first length reserved high whole
  have queue : dEq desc = (desc.head?.getD 0).toNat / 256 % 8 := by rw [← dw_zero]; rfl
  rw [runAt_rg, queue] at read
  refine ⟨fun code => refusal (read.trans (if_pos code)), fun code full => refusal (read.trans ?_),
    fun code room => result (read.trans ?_)⟩
  · rw [if_neg (fun refused => refused code), if_pos full]
  · rw [if_neg (fun refused => refused code), if_neg (Nat.not_le.2 room)]
    rfl

variable {ra : Reg}

theorem issues_here (able : Able s r pg rg q g [ra])
    (runs : exec i s = runSeq 1 g [ra] s (fun v => v.issue d (v.q.getG ra) op)) :
    Issues s r pg rg q d op (dlenOf op) 1 (q.getG ra) i := issues_of_runSeq able runs

theorem issues_displaced {imm : Imm} (able : Able s r pg rg q g [ra])
    (runs : exec i s = runSeq 2 g [ra] s (fun v => v.issue d (v.q.getG ra + sext64 imm) op)) :
    Issues s r pg rg q d op (dlenOf op) 2 (q.getG ra + imm.signExtend 64) i := issues_of_runSeq able runs

end

end Sys2Proof.Machine

namespace Sys2Proof
open Machine

/-- Settles O27: each of the eighteen instructions means the issue of its descriptor. -/
theorem engineCommandIssue : Obligations.EngineCommandIssue := by
  intro s r pg rg q g d ra imm able a1 a2 e mem
  simp only [List.mem_cons, List.not_mem_nil, or_false] at mem
  rcases mem with rfl | rfl | rfl | rfl | rfl | rfl | rfl | rfl | rfl | rfl | rfl | rfl | rfl | rfl | rfl | rfl | rfl | rfl
  · exact issues_here able (exec_sload g d ra s)
  · exact issues_displaced able (exec_sloadSi g d ra imm s)
  · exact issues_here able (exec_sstore g d ra s)
  · exact issues_displaced able (exec_sstoreSi g d ra imm s)
  · exact issues_here able (exec_cpy g d ra s)
  · exact issues_displaced able (exec_cpySi g d ra imm s)
  · exact issues_here able (exec_etbl g d ra s)
  · exact issues_displaced able (exec_etblSi g d ra imm s)
  · exact issues_here able (exec_xpose g d ra s)
  · exact issues_displaced able (exec_xposeSi g d ra imm s)
  · exact issues_here able (exec_gather g d ra s)
  · exact issues_displaced able (exec_gatherSi g d ra imm s)
  · exact issues_here able (exec_scatter g d ra s)
  · exact issues_displaced able (exec_scatterSi g d ra imm s)
  · exact issues_here able (exec_mcast g d ra s)
  · exact issues_displaced able (exec_mcastSi g d ra imm s)
  · exact issues_here able (exec_chainw g d ra s)
  · exact issues_displaced able (exec_chainwSi g d ra imm s)

end Sys2Proof
end

section
/-! Indivisible steps on a dword of a local page: chain words and barrier objects (06 R179, R182; 17 R401, R402). -/
namespace Sys2Proof.Machine

/-! ### Bytes and fields of a dword -/

theorem leNat_lt (l : List Byte) : leNat l < 256 ^ l.length := by
  induction l with
  | nil => exact Nat.one_pos
  | cons b t ih =>
    have := b.isLt
    rw [leNat, List.length_cons, Nat.pow_succ]
    omega

@[simp] theorem peekN_length (s : State) (key : MemKey) (a n : Nat) : (s.peekN key a n).length = n := by
  induction n generalizing a with
  | zero => rfl
  | succ n ih => rw [State.peekN, List.length_cons, ih]

/-- A sequencer reads as many bytes as it asks for. -/
theorem bytes_length {v : Run} {a : W64} {pa n : Nat} {l : List Byte} (read : v.bytes a pa n = .ok l) : l.length = n := by
  unfold Run.bytes at read
  dsimp only at read
  split at read
  · cases read
  · obtain rfl := Except.ok.inj read
    simp

/-- The eight bytes of a dword are a number below 2^64. -/
theorem leNat_bytes_lt {v : Run} {a : W64} {pa : Nat} {l : List Byte} (read : v.bytes a pa 8 = .ok l) :
    leNat l < 2 ^ 64 := by
  have := leNat_lt l
  rwa [bytes_length read] at this

theorem toNat_w64 {n : Nat} (h : n < 2 ^ 64) : (w64 n).toNat = n := BitVec.toNat_ofNat n 64 ▸ Nat.mod_eq_of_lt h

/-- A word with a field replaced, as a number. -/
theorem toNat_putFld (x : W64) {lo w : Nat} (v : Nat) (h : lo + w ≤ 64) :
    (putFld x lo w v).toNat = x.toNat % 2 ^ lo + 2 ^ lo * (v % 2 ^ w) + 2 ^ (lo + w) * (x.toNat / 2 ^ (lo + w)) := by
  have above : x.toNat / 2 ^ (lo + w) < 2 ^ (64 - (lo + w)) := by
    rw [Nat.div_lt_iff_lt_mul (Nat.two_pow_pos _), ← Nat.pow_add, Nat.sub_add_cancel h]
    exact x.isLt
  have below : x.toNat % 2 ^ lo + 2 ^ lo * (v % 2 ^ w) < 2 ^ (lo + w) := by
    have lowest := Nat.mod_lt x.toNat (Nat.two_pow_pos lo)
    have field := Nat.mul_le_mul_left (2 ^ lo) (Nat.mod_lt v (Nat.two_pow_pos w))
    rw [Nat.mul_succ, ← Nat.pow_add] at field
    omega
  have whole := Nat.mul_le_mul_left (2 ^ (lo + w)) above
  rw [Nat.mul_succ, ← Nat.pow_add, Nat.add_sub_cancel' h] at whole
  rw [putFld, BitVec.toNat_ofNat, Nat.mod_eq_of_lt (by omega)]

/-! ### The translation an access used is cached, and nothing else changes (R440, R455) -/

theorem foldl_rouse_frame (l : List Nat) (s : State) :
    l.foldl (fun s a => s.rouse (sectorOf a)) s =
      { s with selfRefresh := (l.foldl (fun s a => s.rouse (sectorOf a)) s).selfRefresh } := by
  induction l generalizing s with
  | nil => rfl
  | cons a l ih => rw [List.foldl_cons, ih]; rfl

theorem rouseWalk_frame (s : State) (c : Nat) (va : W64) (l : Leaf) :
    s.rouseWalk c va l = { s with selfRefresh := (s.rouseWalk c va l).selfRefresh } := by
  unfold State.rouseWalk; split
  · rfl
  · exact foldl_rouse_frame _ s

theorem cache_frame (s : State) (core c : Nat) (va : W64) :
    s.cache core c va = { s with selfRefresh := (s.cache core c va).selfRefresh, cores := (s.cache core c va).cores } := by
  unfold State.cache; split
  · rfl
  · next l _ =>
    have walked := rouseWalk_frame s c va l
    dsimp only
    split
    · rw [walked]
    · rw [walked]; rfl

/-! ### The step on a local dword -/

/-- The device writes a dword of a context's memory. -/
def State.putDw (s : State) (c pa new : Nat) : State := s.write (s.keyOf c) pa (leBytes 8 new)
/-- A step that is a release writes a dword of a checked page (R317, R324). -/
def State.releaseDw (s : State) (r c pa new : Nat) : State :=
  let t := ((s.bump r).settleSec r (sectorOf pa)).putDw c pa new
  t.setTag (sectorOf pa) (t.tagOf r)

section Step
variable {v : Run} {a : W64} {k : AccK} {rel : Option (W64 → Bool)} {f : W64 → Seq → DwStep}
  {acq : Nat → Bool → W64 → State → State} {w : Nat → SeqWait} {pa : Nat} {l : List Byte}
  (at_ : v.drained.target a 8 k = .ok (.loc pa false)) (read : v.drained.bytes a pa 8 = .ok l)
include at_ read

/-- A step that writes nothing and releases nothing. -/
theorem dwStep_keeps (quiet : rel.any (fun h => h (w64 (leNat l))) = false)
    (keeps : (f (w64 (leNat l)) v.drained.q).write = none) :
    v.dwStep a k rel f acq w =
      .ok (v.setIn (acq pa false (w64 (leNat l)) (v.drained.cached a)) (f (w64 (leNat l)) v.drained.q).q) := by
  simp only [Run.dwStep, at_, read, quiet, keeps]
  rfl

/-- A step that writes nothing and is a release. -/
theorem dwStep_keeps_releasing (releases : rel.any (fun h => h (w64 (leNat l))) = true)
    (keeps : (f (w64 (leNat l)) v.drained.q).write = none) :
    v.dwStep a k rel f acq w = .ok (v.setIn ((acq pa false (w64 (leNat l)) (v.drained.cached a)).bump v.r)
      (f (w64 (leNat l)) v.drained.q).q) := by
  simp only [Run.dwStep, at_, read, releases, keeps]
  rfl

/-- A step that writes and releases nothing. -/
theorem dwStep_writes {x : W64} (quiet : rel.any (fun h => h (w64 (leNat l))) = false)
    (writes : (f (w64 (leNat l)) v.drained.q).write = some x) :
    v.dwStep a k rel f acq w =
      .ok (v.setIn ((acq pa false (w64 (leNat l)) (v.drained.cached a)).putDw v.rg.ctx pa x.toNat)
        (f (w64 (leNat l)) v.drained.q).q) := by
  simp only [Run.dwStep, at_, read, quiet, writes]
  rfl

/-- A step that writes and is a release. -/
theorem dwStep_writes_releasing {x : W64} (releases : rel.any (fun h => h (w64 (leNat l))) = true)
    (writes : (f (w64 (leNat l)) v.drained.q).write = some x) :
    v.dwStep a k rel f acq w =
      .ok (v.setIn ((acq pa false (w64 (leNat l)) (v.drained.cached a)).releaseDw v.r v.rg.ctx pa x.toNat)
        (f (w64 (leNat l)) v.drained.q).q) := by
  simp only [Run.dwStep, at_, read, releases, writes]
  rfl

end Step

/-! ### Barrier objects and chain words as numbers (R179, R182) -/

theorem barCnt_w64 (n : Nat) : barCnt (w64 n) = n / 2 ^ 32 % 2 ^ 16 := fld_w64 n (by decide)

theorem barPhase_w64 (n : Nat) : barPhase (w64 n) = n % 2 ^ 32 := by
  rw [barPhase, fld_w64 n (by decide), Nat.pow_zero, Nat.div_one]

/-- A phase has passed when it lies less than half the range behind the object's (R182). -/
theorem barPassed_iff (ph : W64) (n : Nat) :
    let gap := (n % 2 ^ 32 + 2 ^ 32 - ph.toNat % 2 ^ 32) % 2 ^ 32
    barPassed ph (w64 n) = true ↔ 1 ≤ gap ∧ gap < 2 ^ 31 := by
  simp only [barPassed, barPhase_w64, fld, Nat.pow_zero, Nat.div_one, Bool.and_eq_true, decide_eq_true_eq]

section Object
variable {n : Nat} (h : n < 2 ^ 64)
include h

theorem w64_eq_one_iff : w64 n = 1 ↔ n = 1 := by
  rw [← BitVec.toNat_inj, toNat_w64 h]
  rfl

theorem barArr_w64 : barArr (w64 n) = n / 2 ^ 48 := by
  rw [barArr, fld_w64 n (by decide)]
  omega

/-- An object with no arrivals whose count is set. -/
theorem toNat_setCnt {c : Nat} (none_ : n / 2 ^ 48 = 0) (fits : c ≤ 65535) :
    (putFld (w64 n) 32 16 c).toNat = c * 2 ^ 32 + n % 2 ^ 32 := by
  rw [toNat_putFld _ _ (by decide), toNat_w64 h]
  omega

/-- An object with its number of arrivals set. -/
theorem toNat_setArr (a : Nat) : (putFld (w64 n) 48 16 a).toNat = a % 2 ^ 16 * 2 ^ 48 + n % 2 ^ 48 := by
  rw [toNat_putFld _ _ (by decide), toNat_w64 h]
  omega

/-- An object whose last arrival has come: no arrivals, and the next phase. -/
theorem toNat_nextPhase (ph : Nat) :
    (putFld (putFld (w64 n) 48 16 0) 0 32 ph).toNat = n / 2 ^ 32 % 2 ^ 16 * 2 ^ 32 + ph % 2 ^ 32 := by
  rw [toNat_putFld _ _ (by decide), toNat_setArr h]
  omega

end Object

/-! ### What each instruction's step does -/

section Instructions
variable {v : Run} {a : W64} {pa : Nat} {l : List Byte} (read : v.drained.bytes a pa 8 = .ok l) (p : PReg) (d : Reg)
  (x : W64) (len : Nat)
include read

section Atomic
variable (at_ : v.drained.target a 8 .atomic = .ok (.loc pa false))
include at_

/-- CHAINT of a tail that holds HOLD links its value into it (R179). -/
theorem chaint_hold (hold : leNat l = 1) : v.chaint p a x len = .ok (v.setIn
    ((v.drained.cached a).releaseDw v.r v.rg.ctx pa x.toNat) (v.drained.q.setP p true)) := by
  have step : ∀ q, chaintStep p x (w64 (leNat l)) q = { write := some x, q := q.setP p true } :=
    fun q => if_pos ((w64_eq_one_iff (leNat_bytes_lt read)).2 hold)
  rw [Run.chaint, dwStep_writes_releasing at_ read rfl (congrArg DwStep.write (step _)), step]

/-- CHAINT of any other tail writes nothing, and is a release all the same (R317). -/
theorem chaint_other (other : leNat l ≠ 1) : v.chaint p a x len = .ok (v.setIn
    ((v.drained.cached a).bump v.r) (v.drained.q.setP p false)) := by
  have step : ∀ q, chaintStep p x (w64 (leNat l)) q = { q := q.setP p false } :=
    fun q => if_neg (mt (w64_eq_one_iff (leNat_bytes_lt read)).1 other)
  rw [Run.chaint, dwStep_keeps_releasing at_ read rfl (congrArg DwStep.write (step _)), step]

/-- BARINIT of a count outside 1 to 65,535, or of an object with arrivals, is false (R182). -/
theorem barinit_refused (bad : x = 0 ∨ 65535 < x.toNat ∨ leNat l / 2 ^ 48 ≠ 0) :
    v.barinit p a x len = .ok (v.setIn (v.drained.cached a) (v.drained.q.setP p false)) := by
  have step : ∀ q, barinitStep p x (w64 (leNat l)) q = { q := q.setP p false } :=
    fun q => if_pos (by simpa [barArr_w64 (leNat_bytes_lt read), or_assoc] using bad)
  rw [Run.barinit, dwStep_keeps at_ read rfl (congrArg DwStep.write (step _)), step]

/-- BARINIT sets the count of an object with no arrivals (R182). -/
theorem barinit_sets (some_ : 0 < x.toNat) (fits : x.toNat ≤ 65535) (none_ : leNat l / 2 ^ 48 = 0) :
    v.barinit p a x len = .ok (v.setIn
      ((v.drained.cached a).putDw v.rg.ctx pa (x.toNat * 2 ^ 32 + leNat l % 2 ^ 32)) (v.drained.q.setP p true)) := by
  have good : ¬ (x = 0 || 65535 < x.toNat || barArr (w64 (leNat l)) != 0) = true := by
    have notZero : x ≠ 0#64 := by
      rintro rfl
      exact absurd some_ (by decide)
    rw [barArr_w64 (leNat_bytes_lt read), none_]
    simp [fits, notZero]
  have step : ∀ q, barinitStep p x (w64 (leNat l)) q =
      { write := some (putFld (w64 (leNat l)) 32 16 x.toNat), q := q.setP p true } := fun q => if_neg good
  rw [Run.barinit, dwStep_writes at_ read rfl (congrArg DwStep.write (step _)), step,
    toNat_setCnt (leNat_bytes_lt read) none_ fits]

/-- BARARR at an object whose count is 0 gives 6 (R182). -/
theorem bararr_unset (unset : leNat l / 2 ^ 32 % 2 ^ 16 = 0) :
    v.bararr d a len = .ok (v.setIn (v.drained.cached a) (v.drained.q.setG d (refused 6))) := by
  have cnt : barCnt (w64 (leNat l)) = 0 := (barCnt_w64 _).trans unset
  have step : ∀ q, bararrStep d (w64 (leNat l)) q = { q := q.setG d (refused 6) } := fun q => if_pos cnt
  rw [Run.bararr, dwStep_keeps at_ read (by simp [cnt]) (congrArg DwStep.write (step _)), step]
  simp [cnt]

/-- BARARR arrives as a release, and writes what the arrival makes of the object (R182, R401). -/
theorem bararr_arrives (set_ : leNat l / 2 ^ 32 % 2 ^ 16 ≠ 0) {new : Nat}
    (object : (if (leNat l / 2 ^ 48 + 1) % 2 ^ 16 = leNat l / 2 ^ 32 % 2 ^ 16
      then leNat l / 2 ^ 32 % 2 ^ 16 * 2 ^ 32 + (leNat l % 2 ^ 32 + 1) % 2 ^ 32
      else (leNat l / 2 ^ 48 + 1) % 2 ^ 16 * 2 ^ 48 + leNat l % 2 ^ 48) = new) :
    let c := v.drained.cached a
    v.bararr d a len = .ok (v.setIn
      ((c.arrive pa (BitVec.ofNat 64 (leNat l)) ((c.bump v.r).tagOf v.r)).releaseDw v.r v.rg.ctx pa new)
      (v.drained.q.setG d (BitVec.ofNat 64 (leNat l % 2 ^ 32)))) := by
  intro c
  let arr := (leNat l / 2 ^ 48 + 1) % 2 ^ 16
  have bound := leNat_bytes_lt read
  have cnt : barCnt (w64 (leNat l)) ≠ 0 := by rwa [barCnt_w64]
  have step : ∀ q, bararrStep d (w64 (leNat l)) q =
      { write := some (if arr = leNat l / 2 ^ 32 % 2 ^ 16
          then putFld (putFld (w64 (leNat l)) 48 16 0) 0 32 (leNat l % 2 ^ 32 + 1) else putFld (w64 (leNat l)) 48 16 arr)
        q := q.setG d (w64 (leNat l % 2 ^ 32)) } := by
    intro q
    rewrite [bararrStep, if_neg cnt, barCnt_w64, barArr_w64 bound, barPhase_w64]
    rfl
  rw [Run.bararr, dwStep_writes_releasing at_ read (by simp [cnt]) (congrArg DwStep.write (step _)), step]
  simp only [cnt, decide_false, Bool.or_self, Bool.false_eq_true, if_false, apply_ite BitVec.toNat, toNat_nextPhase bound,
    toNat_setArr bound, arr, Nat.mod_mod, object]
  rfl

end Atomic

section Test
variable (at_ : v.drained.target a 8 .read = .ok (.loc pa false))
include at_

/-- BARTEST of a phase that has passed acquires what its arrivals released (R402). -/
theorem bartest_passed (passed : barPassed x (w64 (leNat l)) = true) : v.bartest p a x len = .ok (v.setIn
    (((v.drained.s.sideAt (sectorOf pa)).tag :: v.drained.s.arrived pa x).foldl (fun t tag => t.acquire v.r tag)
      (v.drained.cached a)) (v.drained.q.setP p true)) := by
  have frame := cache_frame v.drained.s v.drained.rg.core v.drained.rg.ctx a
  have side : (v.drained.cached a).sideAt = v.drained.s.sideAt := by rw [Run.cached, frame]; rfl
  have arrived : (v.drained.cached a).arrived = v.drained.s.arrived := by rw [Run.cached, frame]; rfl
  rw [Run.bartest, dwStep_keeps at_ read rfl rfl, passed, side, arrived]
  rfl

theorem bartest_not (not_ : barPassed x (w64 (leNat l)) = false) :
    v.bartest p a x len = .ok (v.setIn (v.drained.cached a) (v.drained.q.setP p false)) := by
  rw [Run.bartest, dwStep_keeps at_ read rfl rfl, not_]
  rfl

end Test
end Instructions

end Sys2Proof.Machine

namespace Sys2Proof
open Machine

/-- Settles O30: both forms of each instruction take the same step on the object. -/
theorem barrierObjects : Obligations.BarrierObjects := by
  intro s r pg rg q g p d ra rb imm able n xt x a aa it ii ia ib forms v q1 kept put rel
  have able1 : Able s r pg rg q g [ra] := able_of_subset able (by simp)
  let v0 := runAt s r pg rg q n
  obtain ⟨chaint, barinit, bararr, bartest⟩ :
      (∀ {t}, v0.chaint p a xt n = .ok t → exec it s = .next t) ∧
      (∀ {t}, v0.barinit p a x n = .ok t → exec ii s = .next t) ∧
      (∀ {t}, v0.bararr d aa n = .ok t → exec ia s = .next t) ∧
      (∀ {t}, v0.bartest p a x n = .ok t → exec ib s = .next t) := by
    rcases forms with ⟨rfl, rfl, rfl, rfl, rfl, rfl, rfl, rfl, rfl⟩ | ⟨rfl, rfl, rfl, rfl, rfl, rfl, rfl, rfl, rfl⟩
    · exact ⟨fun h => (exec_chaint g p ra rb s).trans (runSeq_ok able h),
        fun h => (exec_barinit g p ra rb s).trans (runSeq_ok able h),
        fun h => (exec_bararr g d ra s).trans (runSeq_ok able1 h),
        fun h => (exec_bartest g p ra rb s).trans (runSeq_ok able h)⟩
    · exact ⟨fun h => (exec_chaintSi g p ra imm s).trans (runSeq_ok able1 h),
        fun h => (exec_barinitSi g p ra imm s).trans (runSeq_ok able1 h),
        fun h => (exec_bararrSi g d ra imm s).trans (runSeq_ok able1 h),
        fun h => (exec_bartestSi g p ra imm s).trans (runSeq_ok able1 h)⟩
  refine ⟨fun pa l read => ⟨fun at_ => ?atomic, fun at_ => ?test⟩, fun pa l read at_ => ?arrive⟩
  case atomic =>
    exact ⟨fun hold => chaint (chaint_hold read p xt n at_ hold), fun other => chaint (chaint_other read p xt n at_ other),
      fun bad => barinit (barinit_refused read p x n at_ bad),
      fun some_ fits none_ => barinit (barinit_sets read p x n at_ some_ fits none_)⟩
  case test =>
    have passed := barPassed_iff x (leNat l)
    exact ⟨fun gap => bartest (bartest_passed read p x n at_ (passed.2 gap)), fun gap =>
      bartest (bartest_not read p x n at_ (Bool.eq_false_iff.2 (mt passed.1 (by omega))))⟩
  case arrive =>
    exact ⟨fun unset => bararr (bararr_unset read d n at_ unset),
      fun set_ last => bararr (bararr_arrives read d n at_ set_ (if_pos last)),
      fun set_ more => bararr (bararr_arrives read d n at_ set_ (if_neg more))⟩

end Sys2Proof
end

section
/-! SCLOSE, the fences across engine queues and their status (06 R166 to R168, R181). -/
namespace Sys2Proof.Machine

/-! ### SCLOSE (R166) -/

section Close
variable {s : State} {r : Nat} {rg : Region} {n : Nat}

/-- An end-of-stream queued for ingress port `n`, behind the commands that feed it. -/
def State.closed (s : State) (r n : Nat) : State :=
  s.updRg r (fun x => x.setIn n (({ x.inPort n with ended := true, close := some (s.feeders r x n) } : InPort).settle))

theorem closeIn_open (there : n < 64) (read : (rg.inNode n).isSome = true) (open_ : (rg.inPort n).ended = false) :
    s.closeIn r rg n = some (s.closed r n) := by
  have node : (rg.inNode n).isNone = false := by rw [Option.isNone_eq_false_iff, read]
  simp [State.closeIn, Nat.not_le.2 there, node, open_, State.closed]

theorem closeIn_refused (bad : 64 ≤ n ∨ rg.inNode n = none ∨ (rg.inPort n).ended = true) : s.closeIn r rg n = none :=
  if_pos (by simpa [or_assoc] using bad)

/-- The commands bound to a port end, and its KEEP binding: those of its region, and the multicasts to it of the other members
of its group. -/
def State.cut (s : State) (r : Nat) (rg : Region) (j : Nat) : State :=
  { s with regions := s.regions.map (fun e =>
    if e.1 = r then
      let y := e.2.cancelWhere (fun _ c => c.ownIn rg.member = some j || c.outP = some j)
      (r, y.setOut j { y.outPort j with keep := none })
    else if e.2.gid.isSome ∧ e.2.gid = rg.gid then
      (e.1, e.2.cancelWhere (fun _ c => c.fansTo rg.member = some j))
    else e) }

theorem cancelPort_eq (there : n < 64) : s.cancelPort r rg n = some (s.cut r rg n) := by
  rw [State.cancelPort, if_neg (Nat.not_le.2 there), State.cut]
  congr 3
  funext e
  by_cases own : e.1 = r
  · simp only [own, if_true]
  · simp only [own, if_false, Region.mate, Bool.and_eq_true, decide_eq_true_eq]

/-- The commands of a queue end, and its KEEP bindings. -/
def State.cutQueue (s : State) (r j : Nat) : State :=
  s.updRg r (fun x =>
    let y := x.cancelWhere (fun i _ => i = j)
    { y with vout := y.vout.map (fun e => if e.2.keep = some j then (e.1, { e.2 with keep := none }) else e) })

theorem cancelQueue_eq (there : n < 8) : s.cancelQueue r n = some (s.cutQueue r n) := if_neg (Nat.not_le.2 there)

end Close

section Issue
variable {s : State} {r pg : Nat} {rg : Region} {q : Seq} {n : Nat} {p : PReg}

/-- SCLOSE that acts is true. -/
theorem sclose_some {x : Option State} {t : State} (acts : x = some t) :
    (runAt s r pg rg q n).sclose p x = t.setSeq r pg ((past q n).setP p true) := by rw [acts]; rfl

/-- SCLOSE that is refused is false, and changes nothing else. -/
theorem sclose_none {x : Option State} (refused : x = none) :
    (runAt s r pg rg q n).sclose p x = s.setSeq r pg ((past q n).setP p false) := by
  rw [refused]
  exact runAt_set s r pg rg q _ n

/-! ### SBAR and QFENCE (R167, R181) -/

/-- A fence is refused: its mask is empty, or a queue it names is full. -/
def FenceRefused (rg : Region) (m : Byte) : Prop :=
  m = 0 ∨ ((List.range 8).zip rg.eqs).any (fun e => m.getLsbD e.1 && decide (32 ≤ e.2.entries.length)) = true

variable {m : Byte} {f : Nat → EqEntry}

theorem fenceRefused_iff : (m = 0 || ((List.range 8).zip rg.eqs).any (fun e =>
    m.getLsbD e.1 && 32 ≤ e.2.entries.length)) = true ↔ FenceRefused rg m := by
  rw [Bool.or_eq_true, decide_eq_true_eq, FenceRefused]

theorem placeFence_refused (bad : FenceRefused rg m) :
    (runAt s r pg rg q n).placeFence p m f = s.setSeq r pg ((past q n).setP p false) :=
  (if_pos (fenceRefused_iff.2 bad)).trans (runAt_set s r pg rg q _ n)

/-- A fence stands last in every queue of its mask, and those that hold nothing leave. -/
theorem placeFence_placed (good : ¬ FenceRefused rg m) :
    (runAt s r pg rg q n).placeFence p m f =
      (({ (runAt s r pg rg q n).s with nextId := s.nextId + 1 } : State).updRg r (fun x =>
        ({ x with eqs := ((List.range 8).zip x.eqs).map (fun e =>
          if m.getLsbD e.1 then { e.2 with entries := e.2.entries ++ [f s.nextId] } else e.2) } : Region).popFences)).setSeq
        r pg ((past q n).setP p true) := by
  have fresh : (runAt s r pg rg q n).s.nextId = s.nextId := State.setSeq_nextId ..
  rw [← fresh]
  exact if_neg (mt fenceRefused_iff.1 good)

end Issue

/-! ### SSTAT (R168) -/

/-- What SSTAT reads, by the number of its field. -/
theorem stat_eq (x : EngQueue) (k : Nat) :
    let last := fun (y : Cmd → Nat) => (x.last.map y).getD 0
    x.stat k = BitVec.ofNat 64 (if k = 0 then x.done else if k = 1 then x.next - 1 else if k = 2 then last (·.status)
        else if k = 3 then last (·.elems) else if k = 4 then last (·.bytes) else if k = 5 then last (·.trans)
        else if k = 6 then last (·.xcross) else if k = 7 then last (·.drop) else if k = 8 then last (·.oob)
        else if k = 9 then last (·.detmask.toNat) else if k = 10 then x.entries.length else 2 ^ 63 + 3) := by
  intro last
  have recorded (y : Cmd → Nat) : (match x.last with | some c => y c | none => 0) = last y := by
    cases h : x.last <;> simp [last, h]
  match k with
  | 0 | 1 | 10 => rfl
  | 2 | 3 | 4 | 5 | 6 | 7 | 8 | 9 => exact congrArg w64 (recorded _)
  | k + 11 => rfl

end Sys2Proof.Machine

namespace Sys2Proof
open Machine

/-- Settles O28, form by form. -/
theorem streamClose : Obligations.StreamClose := by
  intro s r pg rg q g p ra n m able yes no k closed cut cutQ
  have able0 : Able s r pg rg q g [] := able_of_subset able (List.nil_subset _)
  have port : n.toNat < 64 := n.isLt
  have queue : m.toNat < 8 := m.isLt
  have close1 {t : State} (h : (runAt s r pg rg q 1).sclose p ((runAt s r pg rg q 1).s.closeIn r rg k) = t) :
      exec (.sclose g p ra) s = .next t := (exec_sclose g p ra s).trans (runSeq_total able h)
  have close2 {t : State} (h : (runAt s r pg rg q 2).sclose p ((runAt s r pg rg q 2).s.closeIn r rg n.toNat) = t) :
      exec (.scloseSi g p n) s = .next t := (exec_scloseSi g p n s).trans (runSeq_total able0 h)
  have cancel1 {t : State} (h : (runAt s r pg rg q 1).sclose p ((runAt s r pg rg q 1).s.cancelPort r rg k) = t) :
      exec (.scloseCancel g p ra) s = .next t := (exec_scloseCancel g p ra s).trans (runSeq_total able h)
  have cancel2 {t : State} (h : (runAt s r pg rg q 2).sclose p ((runAt s r pg rg q 2).s.cancelPort r rg n.toNat) = t) :
      exec (.scloseCancelSi g p n) s = .next t := (exec_scloseCancelSi g p n s).trans (runSeq_total able0 h)
  have queue1 {t : State} (h : (runAt s r pg rg q 1).sclose p ((runAt s r pg rg q 1).s.cancelQueue r k) = t) :
      exec (.scloseQueue g p ra) s = .next t := (exec_scloseQueue g p ra s).trans (runSeq_total able h)
  have queue2 {t : State} (h : (runAt s r pg rg q 2).sclose p ((runAt s r pg rg q 2).s.cancelQueue r m.toNat) = t) :
      exec (.scloseQueueSi g p m) s = .next t := (exec_scloseQueueSi g p m s).trans (runSeq_total able0 h)
  refine ⟨fun read open_ => ⟨close2 (sclose_some (closeIn_open port read open_)), fun same => close1 ?_⟩,
    fun bad => ⟨close2 (sclose_none (closeIn_refused (.inr bad))), fun same => close1 ?_⟩,
    cancel2 (sclose_some (cancelPort_eq port)), queue2 (sclose_some (cancelQueue_eq queue)),
    fun there => cancel1 (sclose_some (cancelPort_eq there)), fun there => queue1 (sclose_some (cancelQueue_eq there)),
    fun beyond => ⟨close1 (sclose_none (closeIn_refused (.inl beyond))), cancel1 (sclose_none (if_pos beyond))⟩,
    fun beyond => queue1 (sclose_none (if_pos beyond))⟩
  · rw [← same] at read open_ port
    exact sclose_some (closeIn_open port read open_)
  · rw [← same] at bad
    exact sclose_none (closeIn_refused (.inr bad))

/-- The part of O32 on fences. -/
theorem queueFences : Statements.QueueFences := by
  intro s r pg rg q g p ra mask sc able bad no yes m1
  have able0 : Able s r pg rg q g [] := able_of_subset able (List.nil_subset _)
  refine ⟨fun refused => ⟨?_, ?_⟩, fun refused => ⟨?_, ?_⟩, fun good => ⟨?_, ?_⟩, fun good => ⟨?_, ?_⟩⟩
  · exact (exec_sbar g p ra s).trans (runSeq_total able (placeFence_refused refused))
  · exact (exec_qfence g sc p ra s).trans (runSeq_total able (placeFence_refused refused))
  · exact (exec_sbarSi g p mask s).trans (runSeq_total able0 (placeFence_refused refused))
  · exact (exec_qfenceSi g sc p mask s).trans (runSeq_total able0 (placeFence_refused refused))
  · exact (exec_sbar g p ra s).trans (runSeq_total able (placeFence_placed good))
  · exact (exec_qfence g sc p ra s).trans (runSeq_total able (placeFence_placed good))
  · exact (exec_sbarSi g p mask s).trans (runSeq_total able0 (placeFence_placed good))
  · exact (exec_qfenceSi g sc p mask s).trans (runSeq_total able0 (placeFence_placed good))

/-- The part of O32 on what SSTAT reads. -/
theorem queueStatus : Statements.QueueStatus := by
  intro s r pg rg q g d ra eq f able val n
  have able0 : Able s r pg rg q g [] := able_of_subset able (List.nil_subset _)
  have read (x : EngQueue) (k len : Nat) :
      (runAt s r pg rg q len).set ((past q len).setG d (x.stat k)) = s.setSeq r pg ((past q len).setG d (val x k)) := by
    rw [runAt_set, stat_eq]
  have queue : fld (q.getG ra) 0 3 = n % 8 := fld_zero _ 3
  rw [← queue]
  exact ⟨(exec_sstat g d ra s).trans (runSeq_total able (read _ _ 1)),
    (exec_sstatSi g d eq f s).trans (runSeq_total able0 (read _ _ 2))⟩

/-- Settles O32: fences, and the status of a queue. -/
theorem queueFencesAndStatus : Obligations.QueueFencesAndStatus := ⟨queueFences, queueStatus⟩

end Sys2Proof
end

section
/-! Placement in Playa: PIN, UNPIN, PREF and FLUSH (06 R177). -/
namespace Sys2Proof.Machine

/-! ### The range of a placement command -/

section Range
variable {base len : W64}

/-- A range above the limits of R177. -/
def BeyondLimits (base len : W64) : Prop := 2 ^ 40 < len.toNat ∨ 2 ^ 56 < base.toNat + len.toNat

theorem placeBlocks_beyond (beyond : BeyondLimits base len) : placeBlocks base len = none :=
  if_pos (by simpa only [Bool.or_eq_true, decide_eq_true_eq, BeyondLimits] using beyond)

theorem placeBlocks_within (within : ¬ BeyondLimits base len) :
    placeBlocks base len = some (base.toNat / 4096, (base.toNat + len.toNat + 4095) / 4096 - base.toNat / 4096) :=
  if_neg (by simpa only [Bool.or_eq_true, decide_eq_true_eq, BeyondLimits] using within)

end Range

/-! ### Pins -/

/-- The pins once every block of a list has one more of a context. -/
def pinned (m : Assoc (Assoc Nat)) (c : Nat) (l : List Nat) : Assoc (Assoc Nat) := l.foldl (fun m x => addPin m x c) m
/-- The pins once every block of a list has one less of a context, if it has any, and how many had one. -/
def unpinned (m : Assoc (Assoc Nat)) (c : Nat) (l : List Nat) : Assoc (Assoc Nat) × Nat :=
  l.foldl (fun e x => if (e.1.get x []).get c 0 = 0 then e else (dropPin e.1 x c, e.2 + 1)) (m, 0)

/-- Pins that break the context's quota, a block's count or a slice's share (R177, R346). -/
def PinsRefused (s : State) (c : Nat) (m : Assoc (Assoc Nat)) (l : List Nat) : Prop :=
  ((s.ctx? c).map (·.pinq)).getD 0 < pinsOf m c ∨ (∃ x ∈ l, 255 < pinCount (m.get x [])) ∨ slicesOk m = false

theorem pinsRefused_iff {s : State} {c quota : Nat} {m : Assoc (Assoc Nat)} {l : List Nat}
    (limit : quota = ((s.ctx? c).map (·.pinq)).getD 0) :
    (quota < pinsOf m c || l.any (fun x => 255 < pinCount (m.get x [])) || !slicesOk m) = true ↔ PinsRefused s c m l := by
  simp [limit, PinsRefused, or_assoc]

/-! ### What each command does with its range -/

section Place
variable {v : Run} {d : Reg} {base len : W64} {k : BitVec 3} {op : EngOp}

/-- The blocks of a range, each once (R177; notes/assumptions/51.md). -/
theorem blocksOf_eq {b n : Nat} {l : List Nat} (blocks : v.physBlocks b n = .ok l) : v.blocksOf b n = .ok l.eraseDups := by
  rw [Run.blocksOf, blocks]
  rfl

theorem pin_empty : v.pin d base 0 = .ok (v.set (v.q.setG d 0)) := if_pos rfl
theorem unpin_empty : v.unpin d base 0 = .ok (v.set (v.q.setG d 0)) := if_pos rfl
theorem placeCmd_empty : v.placeCmd d k op base 0 = .ok (v.set (v.q.setG d 0)) := if_pos rfl

section Beyond
variable (some_ : len ≠ 0) (beyond : BeyondLimits base len)
include some_ beyond

theorem pin_beyond : v.pin d base len = v.refuse d 3 := by rw [Run.pin, if_neg some_, placeBlocks_beyond beyond]
theorem unpin_beyond : v.unpin d base len = v.refuse d 3 := by rw [Run.unpin, if_neg some_, placeBlocks_beyond beyond]
theorem placeCmd_beyond : v.placeCmd d k op base len = v.refuse d 3 := by
  rw [Run.placeCmd, if_neg some_, placeBlocks_beyond beyond]

end Beyond

section Within
variable (some_ : len ≠ 0) (within : ¬ BeyondLimits base len)
include some_ within

theorem placeCmd_full (full : 32 ≤ (v.rg.eq k.toNat).entries.length) : v.placeCmd d k op base len = v.refuse d 1 := by
  rw [Run.placeCmd, if_neg some_, placeBlocks_within within]
  exact if_pos full

theorem placeCmd_queued (room : (v.rg.eq k.toNat).entries.length < 32) :
    v.placeCmd d k op base len = .ok (v.accept d k.toNat op [0, base, len]) := by
  rw [Run.placeCmd, if_neg some_, placeBlocks_within within]
  exact if_neg (Nat.not_le.2 room)

variable {l : List Nat}
  (blocks : v.physBlocks (base.toNat / 4096) ((base.toNat + len.toNat + 4095) / 4096 - base.toNat / 4096) = .ok l)
include blocks

theorem pin_refused (tooMany : PinsRefused v.s v.rg.ctx (pinned v.s.pins v.rg.ctx l.eraseDups) l.eraseDups) :
    v.pin d base len = v.refuse d 4 := by
  rw [Run.pin, if_neg some_, placeBlocks_within within]
  dsimp only
  rw [blocksOf_eq blocks]
  exact if_pos ((pinsRefused_iff (by cases v.s.ctx? v.rg.ctx <;> rfl)).2 tooMany)

theorem pin_pins (few : ¬ PinsRefused v.s v.rg.ctx (pinned v.s.pins v.rg.ctx l.eraseDups) l.eraseDups) :
    v.pin d base len = .ok (v.setIn { v.s with pins := pinned v.s.pins v.rg.ctx l.eraseDups }
      (v.q.setG d (w64 l.eraseDups.length))) := by
  rw [Run.pin, if_neg some_, placeBlocks_within within]
  dsimp only
  rw [blocksOf_eq blocks]
  exact if_neg (mt (pinsRefused_iff (by cases v.s.ctx? v.rg.ctx <;> rfl)).1 few)

theorem unpin_blocks : v.unpin d base len =
    let u := unpinned v.s.pins v.rg.ctx l.eraseDups
    .ok (v.setIn { v.s with pins := u.1 } (v.q.setG d (w64 u.2))) := by
  rw [Run.unpin, if_neg some_, placeBlocks_within within]
  dsimp only
  rw [blocksOf_eq blocks]
  rfl

end Within
end Place

end Sys2Proof.Machine

namespace Sys2Proof
open Machine

/-- Settles O29: both forms of each command do the same with their range. -/
theorem playaPlacement : Obligations.PlayaPlacement := by
  intro s r pg rg q g k d ra rb imm able base out n len ipin iunpin ipref iflush forms v lim b cnt queued
  have able1 : Able s r pg rg q g [ra] := able_of_subset able (by simp)
  obtain ⟨pin, unpin, pref, flush⟩ :
      (∀ {t}, v.pin d base len = .ok t → exec ipin s = .next t) ∧
      (∀ {t}, v.unpin d base len = .ok t → exec iunpin s = .next t) ∧
      (∀ {t}, v.placeCmd d k .pref base len = .ok t → exec ipref s = .next t) ∧
      (∀ {t}, v.placeCmd d k .flush base len = .ok t → exec iflush s = .next t) := by
    rcases forms with ⟨rfl, rfl, rfl, rfl, rfl, rfl⟩ | ⟨rfl, rfl, rfl, rfl, rfl, rfl⟩
    · exact ⟨fun h => (exec_pin g d ra rb s).trans (runSeq_ok able h),
        fun h => (exec_unpin g d ra rb s).trans (runSeq_ok able h),
        fun h => (exec_pref g k d ra rb s).trans (runSeq_ok able h),
        fun h => (exec_flush g k d ra rb s).trans (runSeq_ok able h)⟩
    · exact ⟨fun h => (exec_pinSi g d ra imm s).trans (runSeq_ok able1 h),
        fun h => (exec_unpinSi g d ra imm s).trans (runSeq_ok able1 h),
        fun h => (exec_prefSi g k d ra imm s).trans (runSeq_ok able1 h),
        fun h => (exec_flushSi g k d ra imm s).trans (runSeq_ok able1 h)⟩
  have refused (c : Nat) : v.refuse d c = .ok (s.setSeq r pg ((past q n).setG d (BitVec.ofNat 64 (2 ^ 63 + c)))) :=
    refuse_eq n c d
  have none_ : v.set (v.q.setG d 0) = s.setSeq r pg ((past q n).setG d 0) := runAt_set ..
  have pins : v.s.pins = s.pins := State.setSeq_pins ..
  have ctxs : v.s.ctx? rg.ctx = s.ctx? rg.ctx := by rw [State.ctx?, State.ctx?, runAt_s, State.setSeq_ctxs]
  refine ⟨fun empty => ?_, fun some_ beyond => ?_, fun some_ within full => ?_, fun some_ within room => ?_,
    fun some_ within l0 blocks => ⟨fun tooMany => ?_, fun few => ?_, ?_⟩⟩
  · subst empty
    simp only [List.forall_mem_cons, List.not_mem_nil, false_imp_iff, implies_true, and_true]
    exact ⟨pin (pin_empty.trans (congrArg _ none_)), unpin (unpin_empty.trans (congrArg _ none_)),
      pref (placeCmd_empty.trans (congrArg _ none_)), flush (placeCmd_empty.trans (congrArg _ none_))⟩
  · simp only [List.forall_mem_cons, List.not_mem_nil, false_imp_iff, implies_true, and_true]
    exact ⟨pin ((pin_beyond some_ beyond).trans (refused 3)), unpin ((unpin_beyond some_ beyond).trans (refused 3)),
      pref ((placeCmd_beyond some_ beyond).trans (refused 3)), flush ((placeCmd_beyond some_ beyond).trans (refused 3))⟩
  · simp only [List.forall_mem_cons, List.not_mem_nil, false_imp_iff, implies_true, and_true]
    exact ⟨pref ((placeCmd_full some_ within full).trans (refused 1)),
      flush ((placeCmd_full some_ within full).trans (refused 1))⟩
  · exact ⟨pref (placeCmd_queued some_ within room), flush (placeCmd_queued some_ within room)⟩
  · refine pin ((pin_refused some_ within blocks ?_).trans (refused 4))
    rw [PinsRefused, runAt_rg, ctxs, pins]
    exact tooMany
  · have pinned := pin_pins (d := d) some_ within blocks
    rw [PinsRefused, runAt_rg, ctxs, pins] at pinned
    exact pin (pinned few)
  · have unpinned := unpin_blocks (d := d) some_ within blocks
    rw [pins] at unpinned
    exact unpin unpinned

end Sys2Proof
end

section
/-! Hardware work queues: QPUSH, QPOP and QSEQ, and what the accesses behind them leave of the sequencers (06 R180). -/
namespace Sys2Proof.Machine

/-! ### What leaves the residencies as they are -/

variable {s : State}

theorem foldl_regions {α : Type} {f : State → α → State} (h : ∀ s x, (f s x).regions = s.regions) (l : List α)
    (s : State) : (l.foldl f s).regions = s.regions := by
  induction l generalizing s with
  | nil => rfl
  | cons x l ih => rw [List.foldl_cons, ih, h]

@[simp] theorem State.write_regions (s : State) (key : MemKey) (a : Nat) (l : List Byte) :
    (s.write key a l).regions = s.regions := rfl
@[simp] theorem State.setTag_regions (s : State) (sec : Nat) (t : RaceTag) : (s.setTag sec t).regions = s.regions := rfl
@[simp] theorem State.setFmt_regions (s : State) (sec : Nat) (f a b : Byte) : (s.setFmt sec f a b).regions = s.regions := rfl

@[simp] theorem State.bump_regions (s : State) (r : Nat) : (s.bump r).regions = s.regions := by
  unfold State.bump
  split <;> rfl

@[simp] theorem State.wakePort_regions (s : State) : s.wakePort.regions = s.regions := by
  unfold State.wakePort
  split <;> rfl

@[simp] theorem State.cache_regions (s : State) (core c : Nat) (va : W64) : (s.cache core c va).regions = s.regions := by
  rw [cache_frame]

@[simp] theorem State.perform_regions (s : State) (r : Nat) (st : PendStore) : (s.perform r st).regions = s.regions := by
  unfold State.perform
  split
  · rfl
  · cases st.release <;> cases st.raw <;> cases st.chk <;> simp

@[simp] theorem State.performAll_regions (s : State) (r : Nat) (l : List PendStore) :
    (s.performAll r l).regions = s.regions := by
  induction l generalizing s with
  | nil => rfl
  | cons st l ih => rw [State.performAll, ih, State.perform_regions]

@[simp] theorem State.devStore_regions (s : State) (x : DevStore) : (s.devStore x).regions = s.regions := by
  refine foldl_regions (fun s p => ?_) _ s
  dsimp only
  split
  · rfl
  · split <;> split <;> simp
  · simp

@[simp] theorem State.storeDone_regions (s : State) (n : Nat) : (s.storeDone n).regions = s.regions := by
  unfold State.storeDone
  split
  · rfl
  · split
    · rfl
    · unfold State.devRelease
      split <;> simp

theorem push_regions {n : Nat} {l : List W64} {t : State} {k : W64} (h : s.push n l = some (t, k)) :
    t.regions = s.regions := by
  unfold State.push at h
  split at h
  · cases h
  · split at h
    · cases h
    · cases h
      rfl

@[simp] theorem State.refill_regions (s : State) (c : Nat) : (s.refill c).regions = s.regions := by
  unfold State.refill
  split
  · rfl
  · split
    · rfl
    · split
      · rfl
      · split
        · rfl
        · next pushed =>
          have kept := push_regions pushed
          exact kept

theorem takeRec_regions {n : Nat} {l : List W64} {t : State} (h : s.takeRec n = some (l, t)) : t.regions = s.regions := by
  unfold State.takeRec at h
  split at h
  · cases h
  · split at h
    · cases h
    · split at h
      · cases h
      · split at h
        · cases h
        · cases h
          simp

/-! ### What the sequencers hold -/

variable {r pg : Nat} {q0 : Seq}

theorem seq?_congr {t : State} (h : t.regions = s.regions) : t.seq? r pg = s.seq? r pg := by
  rw [State.seq?, State.rg?, h]
  rfl

theorem seq?_eq_some : s.seq? r pg = some q0 ↔ ∃ rg, s.rg? r = some rg ∧ rg.seqs[pg]? = some q0 := by
  unfold State.seq?
  cases s.rg? r <;> simp

/-- Registers that are set are read, where there is a sequencer. -/
theorem seq?_setSeq_of (there : s.seq? r pg = some q0) (q : Seq) : (s.setSeq r pg q).seq? r pg = some q := by
  obtain ⟨rg, region, regs⟩ := seq?_eq_some.1 there
  exact seq?_setSeq region regs q

/-- Once its stores have performed, a sequencer's buffer is empty and its registers are as they were. -/
theorem seq?_drain (there : s.seq? r pg = some q0) : (s.drain r pg).seq? r pg = some { q0 with stores := [] } := by
  rw [State.drain, there]
  exact (seq?_congr (State.performAll_regions ..)).trans (seq?_setSeq_of there _)

theorem seq?_acquireAll (there : s.seq? r pg = some q0) : (s.acquireAll r).seq? r pg = some q0 := by
  obtain ⟨rg, region, regs⟩ := seq?_eq_some.1 there
  rw [State.acquireAll, region]
  exact seq?_eq_some.2 ⟨_, rg?_setRg_same _ _ _, regs⟩

/-- A sequencer that waits for a remote node: its access is outstanding, and it stands at its instruction (R390). -/
theorem await_waits {v : Run} (x : Remote) (w : Nat → SeqWait) (there : v.s.seq? v.r v.pg = some q0) :
    ∃ id core, (v.await x w).remotes.find id = some { x with core := core } ∧
      (v.await x w).seq? v.r v.pg = some { v.q with pc := v.pc, wait := some (w id) } := by
  refine ⟨(v.cached x.va).nextId, (((v.cached x.va).rg? x.rid).map Region.core).getD 0, ?_, seq?_setSeq_of (q0 := q0) ?_ _⟩
  · rw [Run.await, State.setSeq_remotes]
    exact Assoc.find_put_same ..
  · refine (seq?_congr ?_).trans there
    exact (State.wakePort_regions _).trans (State.cache_regions ..)

/-! ### QPUSH, QPOP and QSEQ -/

section Queues
variable {v : Run} {d : Reg} {p : PReg} {n : Nat} {a : W64} {len : Nat}

theorem aligned64_error (bad : a.toNat % 64 ≠ 0) : Run.aligned64 a = .error (alignTrap a) := if_pos (bne_iff_ne.2 bad)
theorem aligned64_ok (good : a.toNat % 64 = 0) : Run.aligned64 a = .ok () := if_neg (by simp [good])

theorem qpush_misaligned (bad : a.toNat % 64 ≠ 0) : v.qpush d n a = .error (alignTrap a) := by
  rw [Run.qpush, aligned64_error bad]
theorem qpop_misaligned (bad : a.toNat % 64 ≠ 0) : v.qpop p n a len = .error (alignTrap a) := by
  rw [Run.qpop, aligned64_error bad]

section Push
variable {l : List W64} (aligned : a.toNat % 64 = 0) (read : v.drained.readDws a 8 = .ok l)
include aligned read

theorem qpush_foreign (foreign : v.drained.ownQueue n = none) : v.qpush d n a = v.drained.refuse d 5 := by
  simp only [Run.qpush, aligned64_ok aligned, read, foreign]

variable {x : Queue} (own : v.drained.ownQueue n = some x)
include own

theorem qpush_hostMode (host : x.dev = false) : v.qpush d n a = v.drained.refuse d 5 := by
  simp [Run.qpush, aligned64_ok aligned, read, own, host]

theorem qpush_notEnabled (dev : x.dev = true) (off : x.st ≠ .enabled) : v.qpush d n a = v.drained.refuse d 6 := by
  simp [Run.qpush, aligned64_ok aligned, read, own, dev, off]

section Enabled
variable (dev : x.dev = true) (on : x.st = .enabled)
include dev on

theorem qpush_full (full : v.drained.s.push n l = none) : v.qpush d n a = v.drained.refuse d 4 := by
  simp [Run.qpush, aligned64_ok aligned, read, own, dev, on, full]

/-- A record that is appended is a release (R180). -/
theorem qpush_appends {t : State} {c : W64} (room : v.drained.s.push n l = some (t, c)) :
    v.qpush d n a = .ok (v.setIn (t.bump v.r) (v.drained.q.setG d c)) := by
  simp [Run.qpush, aligned64_ok aligned, read, own, dev, on, room]
  rfl

end Enabled
end Push

section Pop
variable {tg : Target} (aligned : a.toNat % 64 = 0) (at_ : v.drained.target a 64 .write = .ok tg)
include aligned at_

/-- QPOP of a queue that is not the context's, or holds no record to take. -/
theorem qpop_nothing (none_ : v.drained.ownQueue n = none ∨ v.drained.s.takeRec n = none) :
    v.qpop p n a len = .ok (v.drained.set (v.drained.q.setP p false)) := by
  simp only [Run.qpop, aligned64_ok aligned, at_]
  cases own : v.drained.ownQueue n with
  | none => rfl
  | some x =>
    have noRecord : v.drained.s.takeRec n = none := none_.resolve_left (by simp [own])
    simp [noRecord]

end Pop

section Take
variable {x : Queue} {l : List W64} {t : State} (aligned : a.toNat % 64 = 0) (own : v.drained.ownQueue n = some x)
  (taken : v.drained.s.takeRec n = some (l, t))
include aligned own taken

/-- A record is written to a local page, as an acquire (R180; notes/assumptions/50.md). -/
theorem qpop_local {pa : Nat} {u : Bool} (at_ : v.drained.target a 64 .write = .ok (.loc pa u)) :
    let y := (t.acquireAll v.r).cache v.rg.core v.rg.ctx a
    v.qpop p n a len = .ok (v.setIn ((y.write (y.keyOf v.rg.ctx) pa ((dwBytes l).take 64)).setFmt (sectorOf pa) 0 0 0)
      (v.drained.q.setP p true)) := by
  simp only [Run.qpop, aligned64_ok aligned, at_, own, taken]
  rfl

/-- A record is sent to a remote page, and the sequencer waits until it is written (R180, R319). -/
theorem qpop_remote {rn : BitVec 16} {ch : Nat} {rod : Bool} {ad : W64} {u : Bool}
    (at_ : v.drained.target a 64 .write = .ok (.rem rn ch rod ad u)) :
    v.qpop p n a len =
      .ok (({ v.drained with s := (t.acquireAll v.r).cache v.rg.core v.rg.ctx a } : Run).await
        (v.drained.remote .st rn ch rod ad a ((dwBytes l).take 64)) (fun id => .qpop id p len)) := by
  simp only [Run.qpop, aligned64_ok aligned, at_, own, taken]
  rfl

end Take

theorem qseq_foreign {issued : Bool} (foreign : v.ownQueue n = none) : v.qseq issued d n = v.refuse d 5 := by
  simp only [Run.qseq, foreign]

theorem qseq_own {issued : Bool} {x : Queue} (own : v.ownQueue n = some x) :
    v.qseq issued d n = .ok (v.set (v.q.setG d (if issued then x.issued else x.done))) := by
  simp only [Run.qseq, own]

end Queues

end Sys2Proof.Machine

namespace Sys2Proof
open Machine

/-- Settles O31: both forms of each instruction name the same queue. -/
theorem hardwareQueues : Obligations.HardwareQueues := by
  intro s r pg rg q g p d ra rb k iss able number a no n ipush ipop iseq forms v q1
  have named : fld (q.getG ra) 0 13 = k.toNat := (fld_zero _ 13).trans number
  have ableA : Able s r pg rg q g [ra] := able_of_subset able (by simp)
  have ableB : Able s r pg rg q g [rb] := able_of_subset able (by simp)
  have able0 : Able s r pg rg q g [] := able_of_subset able (by simp)
  let v0 := runAt s r pg rg q n
  obtain ⟨⟨push, pushTraps⟩, ⟨pop, popTraps⟩, seq⟩ :
      ((∀ {t}, v0.qpush d k.toNat a = .ok t → exec ipush s = .next t) ∧
        ∀ {t}, v0.qpush d k.toNat a = .error t → t.waits = false → q.inh = false →
          exec ipush s = .next (s.setSeq r pg (q.enter q.pc t))) ∧
      ((∀ {t}, v0.qpop p k.toNat a n = .ok t → exec ipop s = .next t) ∧
        ∀ {t}, v0.qpop p k.toNat a n = .error t → t.waits = false → q.inh = false →
          exec ipop s = .next (s.setSeq r pg (q.enter q.pc t))) ∧
      (∀ {t}, v0.qseq iss d k.toNat = .ok t → exec iseq s = .next t) := by
    rcases forms with ⟨rfl, rfl, rfl, rfl⟩ | ⟨rfl, rfl, rfl, rfl⟩
    · rw [← named]
      exact ⟨⟨fun h => (exec_qpush g d ra rb s).trans (runSeq_ok able h),
          fun h free open_ => (exec_qpush g d ra rb s).trans (runSeq_traps able _ _ h free open_)⟩,
        ⟨fun h => (exec_qpop g p ra rb s).trans (runSeq_ok able h),
          fun h free open_ => (exec_qpop g p ra rb s).trans (runSeq_traps able _ _ h free open_)⟩,
        fun h => (exec_qseq g iss d ra s).trans (runSeq_ok ableA h)⟩
    · exact ⟨⟨fun h => (exec_qpushSi g d rb k s).trans (runSeq_ok ableB h),
          fun h free open_ => (exec_qpushSi g d rb k s).trans (runSeq_traps ableB _ _ h free open_)⟩,
        ⟨fun h => (exec_qpopSi g p rb k s).trans (runSeq_ok ableB h),
          fun h free open_ => (exec_qpopSi g p rb k s).trans (runSeq_traps ableB _ _ h free open_)⟩,
        fun h => (exec_qseqSi g iss d k s).trans (runSeq_ok able0 h)⟩
  refine ⟨fun odd open_ => ⟨pushTraps (qpush_misaligned odd) rfl open_, popTraps (qpop_misaligned odd) rfl open_⟩,
    fun l even read => ⟨fun foreign => push (qpush_foreign even read foreign), fun x own =>
      ⟨fun host => push (qpush_hostMode even read own host), fun dev off => push (qpush_notEnabled even read own dev off),
        fun dev on full => push (qpush_full even read own dev on full),
        fun t c dev on room => push (qpush_appends even read own dev on room)⟩⟩,
    fun pa u l t even at_ => ⟨fun none_ => pop (qpop_nothing even at_ none_), fun own taken => ?here⟩,
    fun rn ch rod ad u l t even at_ own taken => ?far,
    fun foreign => seq ((qseq_foreign foreign).trans (refuse_eq n 5 d)),
    fun x own => seq ((qseq_own own).trans (congrArg _ (runAt_set ..)))⟩
  case here =>
    obtain ⟨x, own⟩ := Option.isSome_iff_exists.1 own
    exact pop (qpop_local even own taken at_)
  case far =>
    obtain ⟨x, own⟩ := Option.isSome_iff_exists.1 own
    have drained : v.s.seq? r pg = some q1 := seq?_drain (seq?_setSeq able.seat.region able.seat.regs (past q n))
    have there : ((t.acquireAll r).cache rg.core rg.ctx a).seq? r pg = some q1 :=
      (seq?_congr (State.cache_regions ..)).trans (seq?_acquireAll ((seq?_congr (takeRec_regions taken)).trans drained))
    obtain ⟨id, core, sent, waits⟩ := await_waits (v := { v with s := (t.acquireAll r).cache rg.core rg.ctx a })
      (v.remote .st rn ch rod ad a ((dwBytes l).take 64)) (fun id => .qpop id p n) there
    exact ⟨_, id, _, pop (qpop_remote even own taken at_), sent, rfl, rfl, rfl, rfl, waits⟩

end Sys2Proof
end

section
/-! Events of the engines: a command starts, moves an element, completes; a multicast detaches a member; a chain rereads a
held NEXT (06 R151, R156, R158, R162, R164, R176, R178). -/
namespace Sys2Proof.Machine

/-! ### A dword of a chain (R178) -/

theorem chainDw_ok {e e' : Eng} {a : W64} {g : EngGot} {next : Eng → W64 → EngM Eng} (aligned : a.toNat % 8 = 0)
    (read : e.readFlat a 8 = .ok (g, e')) (came : g.failed = false) (good : g.bad = false) :
    e.chainDw a next = next e' (w64 (leNat g.bytes)) := by
  rw [Eng.chainDw, if_neg (by simp [aligned]), read]
  dsimp only
  rw [came, good]
  rfl

/-! ### The last act of a finished command (R156) -/

section Word
variable {e : Eng} (chain : e.c.link = none)
include chain

/-- The descriptor of a command of no chain is its own. -/
theorem outermost_of_none : (if e.c.link.isSome then e.c.outer else e.c.desc) = e.c.desc := by rw [chain]; rfl

theorem complete_bare (noWord : dCmpl e.c.desc = false) : e.complete = e.retire := by
  rw [Eng.complete]
  dsimp only
  rw [outermost_of_none chain, noWord]
  exact if_pos (Bool.or_true _)

theorem complete_stored {pa : Nat} {u : Bool} (cmpl : dCmpl e.c.desc = true) (notPref : e.c.op ≠ .pref)
    (notFlush : e.c.op ≠ .flush) (at_ : xlate e.s e.rg.core e.rg.ctx (dw e.c.desc 1) .write = .ok (.loc pa u))
    (awake : e.s.quiesced pa = false) :
    let left := ({ e with s := (e.s.cache e.rg.core e.rg.ctx (dw e.c.desc 1)).bump e.r } : Eng).retire
    let t := left.settle1 e.r pa u
    let w := t.write (t.keyOf e.rg.ctx) pa (leBytes 8 e.c.seq)
    e.complete = if u then w else w.setTag (sectorOf pa) (w.tagOf e.r) := by
  have stores : ¬ (e.c.op = .pref || e.c.op = .flush || !dCmpl e.c.desc) = true := by simp [cmpl, notPref, notFlush]
  rw [Eng.complete]
  dsimp only
  rw [outermost_of_none chain, if_neg stores, at_]
  exact if_neg (Bool.eq_false_iff.1 awake)

end Word

section Turn
variable {s : State} {r k : Nat} {rg : Region} {c : Cmd}

/-- The engine of queue `k` at work on its first command. -/
def engOn (s : State) (r k : Nat) (rg : Region) (c : Cmd) : Eng := { r := r, q := k, rg := rg, c := c, s := s }

theorem engAt_of_head {ahead : List EqEntry} (region : s.rg? r = some rg) (resident : rg.resident = true)
    (head : headCmd (rg.eq k).entries = (ahead, some c)) : s.engAt r k = some (engOn s r k rg c) := by
  simp only [State.engAt, region, resident, head]
  rfl

/-- A command that has sent nothing waits for no answer (R158). -/
theorem answered_of_none (remote : c.remote = none) (sent : c.sent = []) : s.answered c = true := by
  rw [State.answered, remote, sent]
  rfl

/-- A command that has sent nothing has no answers to take. -/
theorem settleRemote_of_nil {e : Eng} (sent : e.c.sent = []) : e.settleRemote = e := by
  have same : { e.c with sent := [] } = e.c := by rw [← sent]
  rw [Eng.settleRemote, sent, List.foldl_nil, same]

variable (here : s.engAt r k = some (engOn s r k rg c))
include here

/-! ### Starting (R164) -/

section Start
variable (waits : c.started = false) (passes : ((headCmd (rg.eq k).entries).1.all (rg.fencePasses c)) = true)
  (free : rg.portBusy k c = false) (loaded : c.decodes = true → rg.loading (fld (dw c.desc 4) 44 2) = false)
include waits passes free loaded

/-- A command that nothing holds up starts (R151, R164, R167, R170, R181). -/
theorem engineCommandStart_eq : execEngineCommandStart r k s = .next (engOn s r k rg c).start.done := by
  have ready : ¬ (c.started || !(headCmd (rg.eq k).entries).1.all (rg.fencePasses c) || rg.portBusy k c
      || (c.decodes && rg.loading (fld (dw c.desc 4) 44 2))) = true := by
    rw [waits, passes, free]
    simpa using loaded
  rw [execEngineCommandStart, here]
  exact if_neg ready

theorem engineCommandStart_fits (fits : rg.portFits c = true) : execEngineCommandStart r k s =
    .next ((s.updRg r (fun x => x.bindPorts k c)).updRg r (fun x => x.setEq k ((x.eq k).putCmd (c.start rg)))) := by
  rw [engineCommandStart_eq here waits passes free loaded, Eng.start]
  exact congrArg (fun e => Host.Outcome.next (Eng.done e)) (if_pos fits)

theorem engineCommandStart_mismatch (other : rg.portFits c = false) : execEngineCommandStart r k s =
    .next (s.updRg r (fun x => x.setEq k ((x.eq k).putCmd ((c.start rg).finish 1)))) := by
  rw [engineCommandStart_eq here waits passes free loaded, Eng.start]
  exact congrArg (fun e => Host.Outcome.next (Eng.done e)) (if_neg (Bool.eq_false_iff.1 other))

end Start

/-! ### Moving an element (R158, R162) -/

section Quiet
variable (goes : c.paused = none) (remote : c.remote = none) (sent : c.sent = [])
include goes remote sent

theorem engineElement_eq (started : c.started = true) (going : c.finished = false) :
    execEngineElement r k s = (engOn s r k rg c).move.run := by
  have ready : ¬ (!c.started || c.paused.isSome || !s.answered c) = true := by
    simp [started, goes, answered_of_none remote sent]
  rw [execEngineElement, here]
  dsimp only
  rw [Eng.element, settleRemote_of_nil (e := engOn s r k rg c) sent]
  exact (if_neg ready).trans (if_neg (Bool.eq_false_iff.1 going))

/-! ### Completion (R156) -/

/-- A command that has completed leaves its queue, and the ends of stream behind it go on. -/
def State.retired (s : State) (r k : Nat) (c : Cmd) : State :=
  let t := s.updRg r (fun x => x.retireCmd k c)
  { t with regions := t.regions.map (fun x => (x.1, x.2.gone r k c.seq)) }

omit here goes sent in
theorem retire_eq (t : State) : ({ engOn s r k rg c with s := t } : Eng).retire = t.retired r k c := by
  have kept : t.remotes.filter (fun x => c.remote != some x.1) = t.remotes := by
    rw [remote]
    exact List.filter_eq_self.2 (fun _ _ => rfl)
  rw [Eng.retire]
  simp only [engOn, State.updRg_remotes, kept]
  rfl

section Complete
variable (finished : c.finished = true) (word : c.cwa = false) (chain : c.link = none)
include finished word chain

theorem engineCommandComplete_eq : execEngineCommandComplete r k s = .next (engOn s r k rg c).complete := by
  have ready : ¬ (!c.finished || c.paused.isSome || !s.answered c) = true := by
    simp [finished, goes, answered_of_none remote sent]
  have last : ¬ (c.link.isSome && c.op != .chainw) = true := by simp [chain]
  rw [execEngineCommandComplete, here]
  dsimp only
  rw [settleRemote_of_nil (e := engOn s r k rg c) sent]
  exact (if_neg ready).trans ((if_neg (Bool.eq_false_iff.1 word)).trans (if_neg last))

theorem engineCommandComplete_bare (noWord : dCmpl c.desc = false) :
    execEngineCommandComplete r k s = .next (s.retired r k c) := by
  rw [engineCommandComplete_eq here goes remote sent finished word chain, complete_bare (e := engOn s r k rg c) chain noWord]
  exact congrArg Host.Outcome.next (retire_eq remote s)

/-- The number of a command is stored as a release at its completion word (R156). -/
theorem engineCommandComplete_stored {pa : Nat} {u : Bool} (cmpl : dCmpl c.desc = true) (notPref : c.op ≠ .pref)
    (notFlush : c.op ≠ .flush) (at_ : xlate s rg.core rg.ctx (dw c.desc 1) .write = .ok (.loc pa u))
    (awake : s.quiesced pa = false) :
    let t := (((s.cache rg.core rg.ctx (dw c.desc 1)).bump r).retired r k c).settle1 r pa u
    let w := t.write (t.keyOf rg.ctx) pa (leBytes 8 c.seq)
    execEngineCommandComplete r k s = .next (if u then w else w.setTag (sectorOf pa) (w.tagOf r)) := by
  rw [engineCommandComplete_eq here goes remote sent finished word chain,
    complete_stored (e := engOn s r k rg c) chain cmpl notPref notFlush at_ awake]
  dsimp only
  rw [← retire_eq (rg := rg) remote]
  rfl

end Complete

/-! ### Chains (R178) -/

section Chain
variable {l : W64} {g : EngGot} {e : Eng} (chain : c.op = .chainw) (hold : c.hold = true) (going : c.finished = false)
  (link : c.link = some l) (aligned : l.toNat % 8 = 0) (read : (engOn s r k rg c).readFlat l 8 = .ok (g, e))
  (came : g.failed = false) (good : g.bad = false)
include chain hold going link aligned read came good

/-- A held chain that rereads NEXT goes on by what it reads: its end, HOLD, or its next element (R178). -/
theorem chainHoldReread_eq {x : W64} (is : w64 (leNat g.bytes) = x) {e' : Eng}
    (then_ : (if x = 0 then e.finish 0 else if bit x 0 then { e with c := { e.c with hold := true } }
      else { e with c := { e.c with hold := false, link := some x, sub := 0, buf := [] } }) = e') :
    execChainHoldReread r k s = .next e'.done := by
  have ready : ¬ (!c.hold || c.finished || c.paused.isSome || !s.answered c) = true := by
    simp [hold, going, goes, answered_of_none remote sent]
  have next : (engOn s r k rg c).chainNext l = .ok e' := by
    rw [Eng.chainNext, chainDw_ok aligned read came good, is, ← then_, apply_ite Except.ok, apply_ite Except.ok]
  rw [execChainHoldReread, here]
  simp only [engOn, chain, link]
  exact (if_neg ready).trans (congrArg EngM.run next)

end Chain
end Quiet

/-! ### Multicast (R176) -/

/-- A member that has stalled too long is detached, and its port receives an end-of-stream (R176). -/
theorem mcastDetach_eq {j m : Nat} (op : c.op = .mcast) (started : c.started = true) (going : c.finished = false)
    (limit : fld (dw c.desc 2) 32 32 ≠ 0) (attached : (c.mbuf.find j).isSome = true)
    (stalled : fld (dw c.desc 2) 32 32 ≤ c.stall.get j 0) (member : s.memberOf rg j = some m) :
    execMcastDetach r k j s = .next ((s.updRg r (fun x => x.setEq k ((x.eq k).putCmd
      { c.note 8 with mbuf := c.mbuf.del j, stall := c.stall.del j, detmask := c.detmask ||| (1#16 <<< j) }))).updRg m
        (fun x => x.feed (fld (dw c.desc (3 + j / 8)) (8 * (j % 8)) 8) eosToken)) := by
  have ready : ¬ (c.op != .mcast || !c.started || c.finished || fld (dw c.desc 2) 32 32 = 0 || (c.mbuf.find j).isNone
      || c.stall.get j 0 < fld (dw c.desc 2) 32 32) = true := by
    have there : (c.mbuf.find j).isNone = false := by rw [Option.isNone_eq_false_iff, attached]
    simp [op, started, going, limit, there, stalled]
  rw [execMcastDetach, here]
  simp only [engOn, member]
  exact if_neg ready

end Turn

/-! ### One element of SLOAD (R162) -/

section Load
variable {e : Eng} (room : (e.rg.inPort (fld (dw e.c.desc 8) 0 6)).room = true)
include room

theorem sload_token {t : Token} {ts : List Token} (next : e.c.toks = t :: ts) :
    e.sload = .ok ((({ e with c := { e.c with toks := ts } } : Eng).upd
      (fun x => x.feed (fld (dw e.c.desc 8) 0 6) t)).counted (if t.bub then 0 else 1) 0) := by
  simp [Eng.sload, room, next]

variable (none_ : e.c.toks = []) (last : dTotal e.c.desc ≤ e.c.pos)
include none_ last

theorem sload_keeps (keep : bit (dw e.c.desc 8) 8 = true) : e.sload = .ok (e.finish 0) := by
  simp [Eng.sload, room, none_, last, keep]

theorem sload_ends (ends : bit (dw e.c.desc 8) 8 = false) :
    e.sload = .ok ((e.upd (fun x => x.feed (fld (dw e.c.desc 8) 0 6) eosToken)).finish 0) := by
  simp [Eng.sload, room, none_, last, ends]

end Load

theorem finish_zero (c : Cmd) : c.finish 0 = { c with finished := true } := by
  have same : (if c.status = 0 then 0 else c.status) = c.status := by split <;> simp [*]
  rw [Cmd.finish, Cmd.note, same]

end Sys2Proof.Machine

namespace Sys2Proof
open Machine

/-- Settles O45, event by event. -/
theorem engineEvents : Obligations.EngineEvents := by
  intro s r k rg ahead c region resident head put e p
  have here : s.engAt r k = some (engOn s r k rg c) := engAt_of_head region resident head
  refine ⟨fun waits passes free loaded => ?start, fun started going goes remote sent load room => ?element,
    fun finished goes remote sent word chain => ?complete, fun op started going j limit attached stalled => ?detach,
    fun op hold going goes remote sent l g e1 link aligned read came good => ?chain⟩
  case start =>
    have all : (headCmd (rg.eq k).entries).1.all (rg.fencePasses c) = true := by rw [head]; exact List.all_eq_true.2 passes
    exact ⟨engineCommandStart_fits here waits all free loaded, engineCommandStart_mismatch here waits all free loaded⟩
  case element =>
    have turn := engineElement_eq here goes remote sent started going
    have move : (engOn s r k rg c).move = (engOn s r k rg c).sload := by rw [Eng.move]; simp only [engOn, load]
    have run {e' : Eng} (is : (engOn s r k rg c).sload = .ok e') : exec (.engineElement r k) s = .next e'.done := by
      rw [exec_engineElement, turn, move, is]
      rfl
    refine ⟨fun t ts next => run (sload_token room next), fun none_ last => ⟨fun keep => ?_, fun ends => ?_⟩⟩
    · rw [run (sload_keeps room none_ last keep), Eng.finish, finish_zero]
      rfl
    · rw [run (sload_ends room none_ last ends), Eng.finish, finish_zero]
      rfl
  case complete =>
    exact ⟨engineCommandComplete_bare here goes remote sent finished word chain, fun cmpl notPref notFlush pa u =>
      engineCommandComplete_stored here goes remote sent finished word chain cmpl notPref notFlush⟩
  case detach =>
    intro d m member
    exact mcastDetach_eq here op started going limit attached stalled member
  case chain =>
    intro x
    have next {e' : Eng} := chainHoldReread_eq here goes remote sent op hold going link aligned read came good
      (x := x) rfl (e' := e')
    exact ⟨fun zero => next (if_pos zero), fun some_ held => next ((if_neg some_).trans (if_pos held)),
      fun some_ element => next ((if_neg some_).trans (if_neg (Bool.eq_false_iff.1 element)))⟩

end Sys2Proof
end

section
/-! Nodes: which position an instruction of a node takes, and what taking tokens, sending them and sending the results of
positions leave of the node (07 R184, R186; 08 R234, R235). -/
namespace Sys2Proof.Machine

/-! ### What a node at work keeps -/

/-- What every step of a fold keeps, the fold keeps. -/
theorem Nd.foldl_keeps {α β : Type} {g : Nd → β} {f : Nd → α → Nd} (h : ∀ d x, g (f d x) = g d) (l : List α)
    (d : Nd) : g (l.foldl f d) = g d := by
  induction l generalizing d with
  | nil => rfl
  | cons x l ih => rw [List.foldl_cons, ih, h]

@[simp] theorem Nd.upd_st (d : Nd) (f : NodeSt → NodeSt) : (d.upd f).st = f d.st := Assoc.get_put_same ..

/-- Of two changes of a node's own state the second goes on from the first. -/
@[simp] theorem Nd.upd_upd (d : Nd) (f g : NodeSt → NodeSt) : (d.upd f).upd g = d.upd (fun st => g (f st)) := by
  simp [Nd.upd, Nd.st, Nd.key]

@[simp] theorem NodeSt.updSlot_ended (x : NodeSt) (i : Nat) (f : Slot → Slot) : (x.updSlot i f).ended = x.ended := by
  unfold NodeSt.updSlot; split <;> rfl

@[simp] theorem Nd.upd_v (d : Nd) (f : NodeSt → NodeSt) : (d.upd f).v = d.v := rfl

@[simp] theorem Nd.pop_ended (d : Nd) (i : Nat) : (d.pop i).st.ended = d.st.ended := by
  show (d.upd (fun st => st.updSlot i Slot.pop)).st.ended = _
  rw [Nd.upd_st, NodeSt.updSlot_ended]

@[simp] theorem Nd.consume_v (d : Nd) (l : List Nat) : (d.consume l).v = d.v :=
  Nd.foldl_keeps (g := Nd.v) (f := Nd.pop) (fun _ _ => rfl) l d
@[simp] theorem Nd.consume_accs (d : Nd) (l : List Nat) : (d.consume l).rg.accs = d.rg.accs :=
  Nd.foldl_keeps (g := fun d => d.rg.accs) (f := Nd.pop) (fun _ _ => rfl) l d
@[simp] theorem Nd.consume_idxOf (d : Nd) (l : List Nat) (i : Nat) (t : Token) :
    (d.consume l).idxOf i t = d.idxOf i t :=
  Nd.foldl_keeps (g := fun d => d.idxOf i t) (f := Nd.pop) (fun _ _ => rfl) l d
@[simp] theorem Nd.consume_ended (d : Nd) (l : List Nat) : (d.consume l).st.ended = d.st.ended :=
  (congrArg NodeSt.ended (Nd.upd_st ..)).trans (Nd.foldl_keeps (g := fun d => d.st.ended) Nd.pop_ended l d)

/-- A token sent on an edge changes one slot of one node of the region, or nothing (R184). -/
theorem Nd.sendOn_cases (d : Nd) (mr : BitVec 4) (t : Token) (k : Nat) :
    d.sendOn mr t k = d ∨ ∃ key i f, d.sendOn mr t k =
      { d with
        rg := { d.rg with nodes := d.rg.nodes.put key ((d.rg.nodes.get key {}).updSlot i f) }
        put := listUpd d.put k (· + 1) } := by
  unfold Nd.sendOn; split
  · exact .inl rfl
  · extract_lets
    split
    · exact .inl rfl
    · exact .inr ⟨_, _, _, rfl⟩

@[simp] theorem Nd.sendOn_v (d : Nd) (mr : BitVec 4) (t : Token) (k : Nat) : (d.sendOn mr t k).v = d.v := by
  obtain kept | ⟨_, _, _, sent⟩ := d.sendOn_cases mr t k
  · rw [kept]
  · rw [sent]
@[simp] theorem Nd.sendOn_s (d : Nd) (mr : BitVec 4) (t : Token) (k : Nat) : (d.sendOn mr t k).s = d.s := by
  obtain kept | ⟨_, _, _, sent⟩ := d.sendOn_cases mr t k
  · rw [kept]
  · rw [sent]
/-- A token may come back to the node that sends it, but does not end it. -/
@[simp] theorem Nd.sendOn_ended (d : Nd) (mr : BitVec 4) (t : Token) (k : Nat) :
    (d.sendOn mr t k).st.ended = d.st.ended := by
  obtain kept | ⟨key, i, f, sent⟩ := d.sendOn_cases mr t k
  · rw [kept]
  · rw [sent]
    show NodeSt.ended (Assoc.get (Assoc.put ..) d.key {}) = _
    by_cases self : d.key = key
    · rw [self, Assoc.get_put_same, NodeSt.updSlot_ended, ← self, Nd.st]
    · rw [Assoc.get_put_ne _ self, Nd.st]

@[simp] theorem Nd.sendTo_v (d : Nd) (l : List Nat) (t : Token) : (d.sendTo l t).v = d.v :=
  Nd.foldl_keeps (g := Nd.v) (fun d k => d.sendOn_v 0 t k) l d
@[simp] theorem Nd.sendTo_s (d : Nd) (l : List Nat) (t : Token) : (d.sendTo l t).s = d.s :=
  Nd.foldl_keeps (g := Nd.s) (fun d k => d.sendOn_s 0 t k) l d
@[simp] theorem Nd.sendTo_ended (d : Nd) (l : List Nat) (t : Token) : (d.sendTo l t).st.ended = d.st.ended :=
  Nd.foldl_keeps (g := fun d => d.st.ended) (fun d k => d.sendOn_ended 0 t k) l d
@[simp] theorem Nd.finish_s (d : Nd) : d.finish.s = d.s :=
  Nd.foldl_keeps (g := Nd.s) (fun d k => d.sendOn_s 0 eosToken k) d.places d

/-- Sending the results of positions changes nothing outside the node's region (R234, R235). -/
theorem Nd.flushPos_s (n : Nat) (d : Nd) : (Nd.flushPos n d).s = d.s := by
  induction n generalizing d with
  | zero => rfl
  | succ n ih =>
    unfold Nd.flushPos; split
    · rfl
    · split
      · rfl
      · dsimp only; split
        · exact Nd.finish_s _
        · rw [ih, Nd.sendTo_s]; split
          · exact Nd.sendTo_s ..
          · rfl
@[simp] theorem Nd.flushed_s (d : Nd) : d.flushed.s = d.s := Nd.flushPos_s _ d

/-- Only a load ends with one of its results (R236). -/
theorem Nd.flushPos_ended (n : Nat) {d : Nd} (noLoad : d.v.op ≠ 0xAE) : (Nd.flushPos n d).st.ended = d.st.ended := by
  induction n generalizing d with
  | zero => rfl
  | succ n ih =>
    unfold Nd.flushPos; split
    · rfl
    · split
      · rfl
      · dsimp only
        rw [if_neg (by simp [noLoad])]
        split
        · rw [ih (by simpa using noLoad)]; simp
        · rw [ih (by simpa using noLoad)]; simp
theorem Nd.flushed_ended {d : Nd} (noLoad : d.v.op ≠ 0xAE) : d.flushed.st.ended = d.st.ended :=
  Nd.flushPos_ended _ noLoad

/-! ### The head of a slot -/

theorem Head.eq_of_tok? {h : Head} {t : Token} (is : h.tok? = some t) : h = .tok t := by
  cases h <;> simp_all [Head.tok?]

end Sys2Proof.Machine

namespace Sys2Proof
open Machine

/-! ### What a node's instruction executes -/

/-- Each form of an operation fires positions `f` of its node. -/
structure Forms.Fire (k : Forms) (f : Nd → Option Nd) : Prop where
  n32 : ∀ x s, exec (k.n32 x) s = runNode (view32 k.op x) s f
  n64 : ∀ x s, exec (k.n64 x) s = runNode (view64 k.op x) s f
  n96 : ∀ x s, exec (k.n96 x) s = runNode (view96 k.op x) s f

theorem Forms.exec_eq {k : Forms} {f : Nd → Option Nd} (fire : k.Fire f) {i : Instr} {v : NodeV} (here : k.here i v)
    (s : State) : exec i s = runNode v s f := by
  obtain ⟨x, rfl, rfl⟩ | ⟨x, rfl, rfl⟩ | ⟨x, rfl, rfl⟩ := here
  · exact fire.n32 x s
  · exact fire.n64 x s
  · exact fire.n96 x s

theorem Forms.here_op {k : Forms} {i : Instr} {v : NodeV} (here : k.here i v) : v.op = k.op := by
  obtain ⟨x, rfl, rfl⟩ | ⟨x, rfl, rfl⟩ | ⟨x, rfl, rfl⟩ := here <;> rfl

theorem NodeSeat.view {s : State} {r b n : Nat} {v : NodeV} {d : Nd} (seat : NodeSeat s r b n v d) : d.v = v := by
  obtain ⟨_, _, _, _, _, rfl⟩ := seat.node
  rfl

/-- A node that is not stopped executes its instruction as the firing of the position that its row takes (R187). -/
theorem exec_firing {s : State} {r b n : Nat} {v : NodeV} {d d1 : Nd} {i : Instr} {k : Forms} {f : Nd → Option Nd}
    (seat : NodeSeat s r b n v d) (goes : d.st.stopped = none) (fire : k.Fire f) (here : k.here i v)
    (position : f d = some d1) : exec i s = .next (firing d f d1) :=
  (Forms.exec_eq fire here s).trans (runNode_fires seat goes f d1 position)

end Sys2Proof
end

section
/-! Matrix, accumulation and solver nodes (08 R223 to R230, R243 to R245). -/
namespace Sys2Proof.Machine

/-! ### MM and MMPL (R223 to R226) -/

/-- The open tile once the step of token `t` has been taken (R223). -/
def Nd.mmNext (d : Nd) (t : Token) : MmX := { d.mmx with steps := d.mmx.steps ++ [d.idxOf 2 t], lastMk := t.mks }

section Tile
variable {d : Nd} {ta tb : TileSlot} {t : Token} (live : d.st.ended = false) (room : d.room = true)
  (slotA : d.rg.tslot d.cfg.dune (d.v.bits 0 4) = some ta) (slotB : d.rg.tslot d.cfg.dune (d.v.bits 4 4) = some tb)
  (fullA : ta.full = true) (fullB : tb.full = true) (step : d.head 2 = .tok t)
include live room slotA slotB fullA fullB step

/-- A tile starts once both index sets are whole and its group is empty (R223). -/
theorem mm_starts {ra rb : List Token} (closed : d.mmx.opened = false) (empty : d.ag.tag = .empty)
    (rows : idxSet (d.v.bits 12 2) (d.slot 0).q = some (ra, false))
    (cols : idxSet (d.v.bits 14 2) (d.slot 1).q = some (rb, false)) : d.mm = some (d.startTile ra rb) := by
  simp [Nd.mm, live, room, slotA, slotB, fullA, fullB, step, closed, empty, rows, cols, Head.isEnded, Head.isMissing]

/-- A step of an open tile: the one that carries the tile's end promotes the group and ends the tile, the group's 128th
promotes it, any other is kept (R225, R226). -/
theorem mm_step (opened : d.mmx.opened = true) (active : d.ag.tag = .active) (whole : t.bub = false) :
    d.mm =
      if t.mks.getLsbD (d.v.bits 16 2) then
        some (((d.consume [2]).promote (d.mmNext t) ta.entry tb.entry).endTile (d.mmNext t) ta tb)
      else if (d.mmNext t).steps.length < 128 then some ((d.consume [2]).setMm (d.mmNext t))
      else some (((d.consume [2]).promote (d.mmNext t) ta.entry tb.entry).setMm { d.mmNext t with steps := [] }) := by
  simp [Nd.mm, Nd.mmNext, live, room, slotA, slotB, fullA, fullB, step, opened, active, whole]

end Tile

/-! ### ACC and DRAIN (R228 to R230) -/

section Accumulators
variable {d : Nd} {t : Token}

/-- ACC discards a bubble and promotes any other token into its accumulator (R228). -/
theorem acc_of_fires (fires : Fires d d.req [t]) :
    d.acc =
      if t.bub then some (d.consume d.req)
      else some (({ d.consume d.req with
        rg := { (d.consume d.req).rg with
          accs := (d.consume d.req).rg.accs.set! (d.v.bits 0 4)
            ((d.regAcc (d.v.bits 0 4)).promote (accTerm d.v.fmt t)).1 } } : Nd).raise
        ((d.regAcc (d.v.bits 0 4)).promote (accTerm d.v.fmt t)).2) := by
  have reg : (d.consume d.req).regAcc (d.v.bits 0 4) = d.regAcc (d.v.bits 0 4) := by
    rw [Nd.regAcc, Nd.consume_accs, Nd.regAcc]
  rw [Nd.acc, pairStep_fires fires]
  dsimp only
  rw [Nd.consume_v, reg]
  rfl

/-- DRAIN sends the next value of the tile in progress; after the last one the group is empty (R229). -/
theorem drainTok_next {k : Nat} (room : d.room = true) (at_ : d.st.x = .drain (some t) k)
    (inside : k < d.dGroup.m * d.dGroup.n) :
    d.drainTok = some (
      let x := d.drainAcc (d.dGroup.at k)
      let mk : BitVec 4 := (if (k + 1) % d.dGroup.n = 0 then 1 else 0) |||
        (if k + 1 = d.dGroup.m * d.dGroup.n then 2 else 0)
      let d2 := (d.raise x.2).emit { val := BitVec.ofNat 64 x.1, mks := mk }
      if k + 1 = d.dGroup.m * d.dGroup.n then d2.setGroupEmpty.setX (.drain none 0)
      else d2.setX (.drain (some t) (k + 1))) := by
  simp only [Nd.drainTok, at_, room, Nat.not_le.2 inside]
  rfl

section Trigger
variable (idle : ∀ y k, d.st.x ≠ .drain (some y) k) (fires : Fires d d.req [t]) (whole : t.bub = false)
include idle fires whole

/-- A trigger starts to drain its full group, or sends its accumulator's value as a tile of one (R229). -/
theorem drainTok_trigger :
    d.drainTok =
      if d.v.flag 0 then (if d.dGroup.tag != .full then none else some ((d.consume d.req).setX (.drain (some t) 0)))
      else some (((d.consume d.req).raise (d.drainAcc (d.regAcc (d.v.bits 1 4))).2).emit
        { val := BitVec.ofNat 64 (d.drainAcc (d.regAcc (d.v.bits 1 4))).1, mks := 3 }) := by
  unfold Nd.drainTok
  split
  · next t' k at_ => exact absurd at_ (idle t' k)
  · rw [pairStep_fires fires]
    simp only [List.getD_cons_zero, whole]
    rfl

end Trigger

/-- The record of an accumulator, formed at the firing (R230; the model's choice, notes/assumptions/33.md). -/
def Nd.accRecord (d : Nd) (p : MemPos) : MemPos :=
  let a := d.regAcc (d.v.bits 1 4)
  let x := d.drainAcc a
  { p with
    bytes := drainRecord d.v.fmt (d.v.bits 5 3) 1 1 (a.wordWith x.2) (d.v.flag 9) [x]
    bads := recBads d.v.fmt (d.v.flag 9) [x] }

/-- DRAIN of an accumulator in record mode begins a position with its record (R230). -/
theorem drainMem_acc {ts : List Token} (acc : d.v.flag 0 = false) (goes : d.st.skip = false) (fires : Fires d d.memReq ts)
    (clean : (d.memPos ts).done = none) (whole : (ts.getD 0 {}).bub = false) :
    d.drainMem = some ((d.consume d.memReq).upd
      (fun st => { st with pend := st.pend ++ [d.accRecord (d.memPos ts)] })).flushed := by
  rw [Nd.drainMem, if_neg (by simp [goes]), pairStep_fires fires]
  dsimp only
  rw [if_neg (by rw [clean, whole]; decide), if_neg (by simp [acc])]
  rfl

end Accumulators

/-! ### PIVDIV and RESID (R243 to R245) -/

section Solver
variable {d : Nd} {t : Token} (live : d.st.ended = false) (room : d.room = true) (first : d.head 0 = .tok t)
include live room first

/-- PIVDIV divides a value by the pivot it holds; the segment's last one lets go of the pivot and is counted (R243,
R244). -/
theorem pivdiv_divides {p : W32} {segs : Nat} (holds : d.piv = (some p, segs)) :
    d.pivdiv = some (
      let m := Mode.ofAmf d.blk.amf.toNat
      let rm := if d.v.flag 2 then d.v.bits 3 3 else m.rm
      let u := propagate 0x18 [{ t with psn := t.psn || d.pivPsn }]
        (fun ts => pivQuot rm (fmtVal 0x18 0 (ts.getD 0 {}).val.toNat) (fmtVal 0x18 0 p.toNat))
      let d2 := ((d.consume [0]).raise u.2).emit u.1
      if t.mks &&& BitVec.ofNat 4 (d.v.bits 6 4) ≠ 0 then (d2.pivCount (segs + 1)).setX (.piv none (segs + 1))
      else d2.setX (.piv (some p) segs d.pivPsn)) := by
  simp only [Nd.pivdiv, live, room, first, holds, bne_iff_ne]
  rfl

/-- With no pivot held PIVDIV takes one, whatever the value at hand (R243). -/
theorem pivdiv_starts {segs : Nat} (free : d.piv = (none, segs)) : d.pivdiv = d.pivStart segs := by
  simp only [Nd.pivdiv, live, room, first, free]
  rfl

omit live room first

/-- The lead's expired budget ends the node before a pivot is taken (R149, R243). -/
theorem pivStart_expired (segs : Nat) (expired : d.rg.leadExp = true) :
    d.pivStart segs = some (d.pivEnd segs (fun x => putFld x 31 1 1)) := if_pos expired

/-- A pivot of magnitude at most the threshold's (R243). -/
def Nd.pivSmall (d : Nd) (p : Nat) : Prop :=
  ((fmtVal 0x18 0 p).abs.lt (fmtVal 0x18 0 d.pivTh) || (fmtVal 0x18 0 p).abs.eq (fmtVal 0x18 0 d.pivTh)) = true

section Pivot
variable {u : Token} (segs : Nat) (runs : d.rg.leadExp = false) (pivot : d.head 1 = .tok u) (clean : u.psn = false)
  (valid : u.inv = false) (whole : u.bub = false)
include runs pivot clean valid whole

/-- A pivot above the threshold is held (R243). -/
theorem pivStart_large (large : ¬ d.pivSmall (u.val.toNat % 2 ^ 32)) :
    d.pivStart segs = some ((d.pop 1).setX (.piv (some (BitVec.ofNat 32 (u.val.toNat % 2 ^ 32))) segs)) := by
  simp only [Nd.pivStart, runs, pivot, clean, valid, whole]
  exact if_neg large

/-- A small pivot ends the node, or is replaced by the threshold with the pivot's sign, and counted (R243). -/
theorem pivStart_small (small : d.pivSmall (u.val.toNat % 2 ^ 32)) :
    d.pivStart segs =
      if d.v.bits 0 2 = 0 then some ((d.pop 1).pivEnd segs (fun x => putFld x 30 1 1))
      else some (({ d.pop 1 with rg := { (d.pop 1).rg with
          svr := putFld (putFld d.rg.svr 29 1 1) 32 32 (min (svrPtc d.rg.svr + 1) (2 ^ 32 - 1)) } } : Nd).setX
        (.piv (some (BitVec.ofNat 32 (u.val.toNat % 2 ^ 32 / 2 ^ 31 * 2 ^ 31 + d.pivTh))) segs)) := by
  simp only [Nd.pivStart, runs, pivot, clean, valid, whole]
  exact if_pos small

end Pivot

/-- Taking a token of slot a leaves what slot b offers. -/
theorem head_one_consume_zero (d : Nd) : (d.consume [0]).head 1 = d.head 1 := by
  show ((Nd.upd (d.pop 0) _).st.slot 1).head = _
  rw [Nd.upd_st]
  show ((Nd.upd d (fun st => st.updSlot 0 Slot.pop)).st.slot 1).head = _
  rw [Nd.upd_st]
  rfl

section Residual
variable {f : Token} {m : W32} {any opened : Bool}

/-- A segment that holds a token ends: the lead's best iterate is tried against the reference, and the magnitude is sent
(R245). -/
theorem residEnd_tries (big : Nat) (mk : BitVec 4) (reference : d.head 1 = .tok f) :
    d.residEnd big true mk = some
      ((({ d.pop 1 with
        rg := { (d.pop 1).rg with seqs := listUpd (d.pop 1).rg.seqs 0 (fun q => (q.tryBest big f.val).1) } } : Nd).emit
        { val := BitVec.ofNat 64 big, mks := mk }).setX (.resid 0 false)) := by
  rw [Nd.residEnd, reference]
  rfl

/-- RESID goes on with the larger magnitude, or ends the segment with it (R245). -/
theorem resid_takes (live : d.st.ended = false) (room : d.room = true) (first : d.head 0 = .tok t)
    (reference : d.head 1 = .tok f)
    (segment : d.st.x = .resid m any opened ∨ (d.st.x = .none ∧ m = 0 ∧ any = false))
    (whole : t.bub = false) :
    d.resid =
      if t.mks &&& BitVec.ofNat 4 (d.v.bits 0 4) = 0 then
        some ((d.consume [0]).setX (.resid (BitVec.ofNat 32 (residMax m.toNat (residMag t))) true true))
      else (d.consume [0]).residEnd (residMax m.toNat (residMag t)) true t.mks := by
  obtain at_ | ⟨at_, rfl, rfl⟩ := segment
  · simp [Nd.resid, live, room, first, reference, whole, at_, Head.isEnded]
  · simp [Nd.resid, live, room, first, reference, whole, at_, Head.isEnded]

end Residual
end Solver

end Sys2Proof.Machine

namespace Sys2Proof
open Machine

theorem mm_fire : (⟨0xA3, .mm, .mmN64, .mmN96⟩ : Forms).Fire Nd.mm :=
  ⟨fun _ _ => rfl, fun _ _ => rfl, fun _ _ => rfl⟩
theorem mmpl_fire : (⟨0xA4, .mmpl, .mmplN64, .mmplN96⟩ : Forms).Fire Nd.mm :=
  ⟨fun _ _ => rfl, fun _ _ => rfl, fun _ _ => rfl⟩
theorem acc_fire : (⟨0xA5, .acc, .accN64, .accN96⟩ : Forms).Fire Nd.acc :=
  ⟨fun _ _ => rfl, fun _ _ => rfl, fun _ _ => rfl⟩
theorem drain_fire : (⟨0xA6, .drain, .drainN64, .drainN96⟩ : Forms).Fire Nd.drain :=
  ⟨fun _ _ => rfl, fun _ _ => rfl, fun _ _ => rfl⟩
theorem pivdiv_fire : (⟨0xB5, .pivdiv, .pivdivN64, .pivdivN96⟩ : Forms).Fire Nd.pivdiv :=
  ⟨fun _ _ => rfl, fun _ _ => rfl, fun _ _ => rfl⟩
theorem resid_fire : (⟨0xB6, .resid, .residN64, .residN96⟩ : Forms).Fire Nd.resid :=
  ⟨fun _ _ => rfl, fun _ _ => rfl, fun _ _ => rfl⟩

/-- Settles O41, node by node: each clause is the position its node takes. What DRAIN.MEM records is formed at the firing
(notes/assumptions/33.md). -/
theorem matrixNodes : Obligations.MatrixNodes := by
  intro s r b n v d i seat live goes room fires
  obtain rfl := seat.view
  refine ⟨fun here ta tb t slotA slotB fullA fullB head => ?_, fun here t ready => ?_,
    fun here => ⟨fun tokens => ?_, fun record acc runs ts ready clean whole => ?_⟩,
    fun here t first => ?_, fun here t f m any opened first reference segment whole => ?_⟩
  · have fire {d1 : Nd} (position : d.mm = some d1) : fires Nd.mm d1 :=
      here.elim (exec_firing seat goes mm_fire · position) (exec_firing seat goes mmpl_fire · position)
    have step := Head.eq_of_tok? head
    refine ⟨fun ra rb closed empty rows cols => fire ?_, fun opened active whole => ?_⟩
    · exact mm_starts live room slotA slotB fullA fullB step closed empty rows cols
    have taken := mm_step live room slotA slotB fullA fullB step opened active whole
    refine ⟨fun last => fire (taken.trans (if_pos last)), fun inner few => fire ?_, fun inner many => fire ?_⟩
    · exact taken.trans ((if_neg (by simp [inner])).trans (if_pos few))
    · exact taken.trans ((if_neg (by simp [inner])).trans (if_neg (Nat.not_lt.2 many)))
  · have taken := acc_of_fires ready
    exact ⟨fun bubble => exec_firing seat goes acc_fire here (taken.trans (if_pos bubble)),
      fun whole => exec_firing seat goes acc_fire here (taken.trans (if_neg (by simp [whole])))⟩
  · have fire {d1 : Nd} (position : d.drainTok = some d1) : fires Nd.drain d1 :=
      exec_firing seat goes drain_fire here ((if_neg (by simp [tokens])).trans position)
    refine ⟨fun t k at_ inside => fire (drainTok_next room at_ inside), fun t idle ready whole => ?_⟩
    have taken := drainTok_trigger idle ready whole
    refine ⟨fun group full => fire (taken.trans ?_), fun single => fire (taken.trans (if_neg (by simp [single])))⟩
    rw [if_pos group, if_neg (by simp [full])]
  · exact exec_firing seat goes drain_fire here ((if_pos record).trans (drainMem_acc acc runs ready clean whole))
  · have fire {d1 : Nd} (position : d.pivdiv = some d1) : fires Nd.pivdiv d1 :=
      exec_firing seat goes pivdiv_fire here position
    have at_ := Head.eq_of_tok? first
    have begins {segs : Nat} {d1 : Nd} (free : d.piv = (none, segs)) (pivot : d.pivStart segs = some d1) :
        fires Nd.pivdiv d1 := fire ((pivdiv_starts live room at_ free).trans pivot)
    refine ⟨fun p segs holds => fire (pivdiv_divides live room at_ holds),
      fun segs u free runs pivot clean valid whole => ⟨fun large => begins free ?_, fun small ends => begins free ?_,
        fun small goesOn => begins free ?_⟩,
      fun segs free expired => begins free (pivStart_expired segs expired)⟩
    · exact pivStart_large segs runs (Head.eq_of_tok? pivot) clean valid whole large
    · exact (pivStart_small segs runs (Head.eq_of_tok? pivot) clean valid whole small).trans (if_pos ends)
    · exact (pivStart_small segs runs (Head.eq_of_tok? pivot) clean valid whole small).trans (if_neg goesOn)
  · have fire {d1 : Nd} (position : d.resid = some d1) : fires Nd.resid d1 :=
      exec_firing seat goes resid_fire here position
    have refTok := Head.eq_of_tok? reference
    have taken := resid_takes live room (Head.eq_of_tok? first) refTok segment whole
    exact ⟨fun inner => fire (taken.trans (if_pos inner)), fun last => fire (taken.trans ((if_neg last).trans
      (residEnd_tries _ _ ((head_one_consume_zero d).trans refTok))))⟩

end Sys2Proof
end

section
/-! Memory nodes begin positions (08 R231 to R241). -/
namespace Sys2Proof.Machine

variable {d : Nd} {ts : List Token}

/-- The node with the position of `ts` begun (R231, R234). -/
def Nd.begun (d : Nd) (ts : List Token) : Nd :=
  (d.consume d.memReq).upd (fun st => { st with pend := st.pend ++ [d.memPos ts] })

/-- The value of an MSTORE goes to the end of its port's queue as `d0` found it (R241). -/
def Nd.multicast (d0 d : Nd) (t : Token) : Nd :=
  let port := d0.rg.outPort (d0.v.bits 21 6)
  { d with rg := d.rg.setOut (d.v.bits 21 6) { port with q := port.q ++ [t] } }

@[simp] theorem begun_v (d : Nd) (ts : List Token) : (d.begun ts).v = d.v := Nd.consume_v ..
@[simp] theorem begun_ended (d : Nd) (ts : List Token) : (d.begun ts).st.ended = d.st.ended :=
  (congrArg NodeSt.ended (Nd.upd_st ..)).trans (Nd.consume_ended ..)

theorem multicast_begun (d : Nd) (ts : List Token) (t : Token) :
    d.multicast (d.begun ts) t = { d.begun ts with
      rg := (d.begun ts).rg.setOut (d.v.bits 21 6)
        { d.rg.outPort (d.v.bits 21 6) with q := (d.rg.outPort (d.v.bits 21 6)).q ++ [t] } } := by
  rw [Nd.multicast, begun_v]
  dsimp only
  rw [begun_v]

section Begin
variable (runs : d.st.skip = false) (fires : Fires d d.memReq ts) (few : d.st.pend.length < 64)
include runs fires few

/-- A memory node that fires begins one position (R231). -/
theorem begin_of_fires (noPort : d.v.op ≠ 0xB4) : d.begin = some (d.begun ts).flushed := by
  have deep : ¬ memDepth ≤ d.st.pend.length := Nat.not_le.2 few
  simp only [Nd.begin, runs, fires.live.1, noPort, deep, pairStep_fires fires]
  rfl

/-- An MSTORE that fires begins one position, and sends a value that is no bubble to its port (R241). -/
theorem begin_mstore (op : d.v.op = 0xB4) (room : (d.rg.outPort (d.v.bits 21 6)).room = true) :
    d.begin = some (if (ts.getD 1 {}).bub then (d.begun ts).flushed
      else (d.multicast (d.begun ts) (ts.getD 1 {})).flushed) := by
  have deep : ¬ memDepth ≤ d.st.pend.length := Nat.not_le.2 few
  have goesOn {d' : Nd} (view : d'.v = d.v) (live : d'.st.ended = d.st.ended) : d'.flushed.st.ended = false := by
    rw [Nd.flushed_ended (by rw [view, op]; decide), live, fires.live.1]
  have plain := goesOn (begun_v d ts) (begun_ended d ts)
  have sent := goesOn (d' := d.multicast (d.begun ts) (ts.getD 1 {})) (begun_v d ts) (begun_ended d ts)
  unfold Nd.begin
  rw [if_neg (by simp [runs]), if_neg (by simp [fires.live.1])]
  dsimp only
  rw [if_neg (by simp [room, deep]), pairStep_fires fires]
  simp only [op, decide_true, Bool.true_and]
  cases (ts.getD 1 {}).bub with
  | true => exact congrArg some (if_neg (Bool.eq_false_iff.1 plain))
  | false => exact congrArg some (if_neg (Bool.eq_false_iff.1 sent))

end Begin

theorem stn_memory (memory : d.v.flag 4 = false) : d.stn = d.begin := if_neg (by simp [memory])

/-- STN into a tile slot writes the data unit at the cursor and moves it on (R217, R237). -/
theorem stn_tile {x : TileSlot} (tile : d.v.flag 4 = true) (noMark : d.v.flag 5 = false) (data : d.v.flag 6 = false)
    (fires : Fires d d.memReq ts) (slot : d.rg.tslot d.cfg.dune (d.v.bits 7 4) = some x) (open_ : x.full = false)
    (inside : x.dc < dcFull x.entry) (whole : (ts.getD 0 {}).bub = false) (valid : (ts.getD 0 {}).inv = false) :
    d.stn = some (
      let y := ({ x with dc := x.dc + 1 } : TileSlot).settle
      let d2 := { d with rg := (d.rg.tileData x.entry x.dc (ts.getD 0 {})).putTslot d.cfg.dune (d.v.bits 7 4) y }
      (d2.consume d.memReq).sendTo d.orderPlaces { mks := orMks ts }) := by
  rw [Nd.stn, if_pos tile, Nd.stnTile]
  simp only [slot, pairStep_fires fires, whole, valid, noMark, data]
  rw [if_neg (by simp [open_]), if_neg (by simp), if_neg (by simp), if_neg (by simp), if_neg (Nat.not_le.2 inside)]
  rfl

/-- RELN joins one order token of each slot in use into one (R239). -/
theorem reln_of_fires (fires : Fires d ((List.range 4).filter d.fed) ts) :
    d.reln = some ((d.consume ((List.range 4).filter d.fed)).sendTo d.orderPlaces { mks := orMks ts }) := by
  rw [Nd.reln, pairStep_fires fires]

/-! ### Positions -/

/-- A position has no scope of release, or that of the RELN it waits for, as it reads or writes (R239). -/
theorem memPos_rel (d : Nd) (ts : List Token) :
    (d.memPos ts).rel = if d.v.memKind = .load ∨ d.v.memKind = .drain then none else d.relScope := by
  simp [Nd.memPos]

/-- The flags for which a position makes no access: one of its address, a bubble or an invalid value, and a poisoned one
before an atomic (R232). -/
theorem memPos_done_isSome (d : Nd) (ts : List Token) :
    (d.memPos ts).done.isSome = true ↔
      (ts.getD 0 {}).bub = true ∨ (ts.getD 0 {}).psn = true ∨ (ts.getD 0 {}).inv = true ∨
        ∃ t ∈ (ts.take d.req.length).drop 1, t.bub = true ∨ t.inv = true ∨ (d.v.memKind = .atom ∧ t.psn = true) := by
  simp only [Nd.memPos]
  rw [apply_ite Option.isSome]
  simp only [Option.isSome_some, Option.isSome_none, Bool.if_false_right, Bool.and_true, decide_eq_true_eq,
    Bool.or_eq_true, Bool.and_eq_true, List.any_eq_true, or_assoc, and_or_left, exists_or, exists_and_left,
    and_left_comm (b := d.v.memKind = .atom)]

/-- A position that makes no access is done as it begins (R232). -/
theorem memPos_done {t : Token} (done_ : (d.memPos ts).done = some t) :
    t = noAccess d.v.fmt (orMks ts) (firstIx (ts.take d.req.length)) (ts.getD 0 {} :: (ts.take d.req.length).drop 1) := by
  simp only [Nd.memPos] at done_
  split at done_
  · exact (Option.some.inj done_).symm
  · cases done_

/-- The result of a position without an access carries its markers (R232). -/
theorem noAccess_mks (f : Nat) (mks : BitVec 4) (ix : Option W32) (ts : List Token) :
    (noAccess f mks ix ts).mks = mks := by
  unfold noAccess; split
  · rfl
  · split <;> rfl

/-- A bubble among its tokens makes the result of a position a bubble (R232). -/
theorem noAccess_bub {ts : List Token} {t : Token} (mem : t ∈ ts) (bubble : t.bub = true) (f : Nat) (mks : BitVec 4)
    (ix : Option W32) : (noAccess f mks ix ts).bub = true := by
  rw [noAccess, if_pos (List.any_eq_true.2 ⟨t, mem, bubble⟩)]

end Sys2Proof.Machine

namespace Sys2Proof
open Machine

theorem ldn_fire : (⟨0xAE, .ldn, .ldnN64, .ldnN96⟩ : Forms).Fire Nd.begin :=
  ⟨fun _ _ => rfl, fun _ _ => rfl, fun _ _ => rfl⟩
theorem stn_fire : (⟨0xAF, .stn, .stnN64, .stnN96⟩ : Forms).Fire Nd.stn :=
  ⟨fun _ _ => rfl, fun _ _ => rfl, fun _ _ => rfl⟩
theorem atomNode_fire : (⟨0xB0, .atomNode, .atomNodeN64, .atomNodeN96⟩ : Forms).Fire Nd.begin :=
  ⟨fun _ _ => rfl, fun _ _ => rfl, fun _ _ => rfl⟩
theorem acqn_fire : (⟨0xB1, .acqn, .acqnN64, .acqnN96⟩ : Forms).Fire Nd.begin :=
  ⟨fun _ _ => rfl, fun _ _ => rfl, fun _ _ => rfl⟩
theorem wcvt_fire : (⟨0xB3, .wcvt, .wcvtN64, .wcvtN96⟩ : Forms).Fire Nd.begin :=
  ⟨fun _ _ => rfl, fun _ _ => rfl, fun _ _ => rfl⟩
theorem mstore_fire : (⟨0xB4, .mstore, .mstoreN64, .mstoreN96⟩ : Forms).Fire Nd.begin :=
  ⟨fun _ _ => rfl, fun _ _ => rfl, fun _ _ => rfl⟩

/-- The nodes that begin a position and do no more. -/
theorem begin_fire_of_mem {k : Forms} (mem : k ∈ [(⟨0xAE, .ldn, .ldnN64, .ldnN96⟩ : Forms),
    ⟨0xB0, .atomNode, .atomNodeN64, .atomNodeN96⟩, ⟨0xB1, .acqn, .acqnN64, .acqnN96⟩,
    ⟨0xB3, .wcvt, .wcvtN64, .wcvtN96⟩]) :
    k.Fire Nd.begin ∧ k.op ≠ 0xB4 := by
  simp only [List.mem_cons, List.not_mem_nil, or_false] at mem
  obtain rfl | rfl | rfl | rfl := mem
  · exact ⟨ldn_fire, by decide⟩
  · exact ⟨atomNode_fire, by decide⟩
  · exact ⟨acqn_fire, by decide⟩
  · exact ⟨wcvt_fire, by decide⟩

/-- RELN, which has no form of one word. -/
theorem reln_exec {i : Instr} {v : NodeV}
    (here : (∃ x, i = .relnN64 x ∧ v = view64 0xB2 x) ∨ (∃ x, i = .relnN96 x ∧ v = view96 0xB2 x)) (s : State) :
    exec i s = runNode v s Nd.reln := by
  obtain ⟨x, rfl, rfl⟩ | ⟨x, rfl, rfl⟩ := here
  · rfl
  · rfl

/-- Settles O42: each memory node's firing begins its position, and a position is what its tokens give. -/
theorem memoryNodes : Obligations.MemoryNodes := by
  intro s r b n v d i seat runs fires put
  obtain rfl := seat.view
  refine ⟨fun k mem here ts ready few => ?_, fun here memory ts ready few => ?_, fun here ts ready few room => ?_,
    fun here => ?_, fun here tile noMark data ts x ready slot open_ inside whole valid => ?_, fun ts => ?_⟩
  · obtain ⟨fire, noPort⟩ := begin_fire_of_mem mem
    exact exec_firing seat ready.live.2 fire here (begin_of_fires runs ready few (Forms.here_op here ▸ noPort))
  · have noPort : d.v.op ≠ 0xB4 := by rw [Forms.here_op here]; decide
    exact exec_firing seat ready.live.2 stn_fire here ((stn_memory memory).trans (begin_of_fires runs ready few noPort))
  · have begins := begin_mstore runs ready few (Forms.here_op here) room
    rw [multicast_begun] at begins
    refine ⟨fun bubble => exec_firing seat ready.live.2 mstore_fire here ?_,
      fun whole => exec_firing seat ready.live.2 mstore_fire here ?_⟩
    · exact begins.trans (congrArg some (if_pos bubble))
    · exact begins.trans (congrArg some (if_neg (Bool.eq_false_iff.1 whole)))
  · intro req ts ready
    exact (reln_exec here s).trans (runNode_fires seat ready.live.2 _ _ (reln_of_fires ready))
  · exact exec_firing seat ready.live.2 stn_fire here (stn_tile tile noMark data ready slot open_ inside whole valid)
  · refine ⟨rfl, rfl, rfl, rfl, rfl, rfl, rfl, rfl, rfl, fun reads => ?_, fun writes => ?_, memPos_done_isSome d ts,
      fun t done_ => ?_⟩
    · exact (memPos_rel d ts).trans (if_pos reads)
    · exact (memPos_rel d ts).trans (if_neg (by rcases writes with is | is <;> simp [is]))
    · rw [memPos_done done_]
      refine ⟨noAccess_mks .., fun bubble => ?_⟩
      obtain bubble | ⟨u, mem, bubble⟩ := bubble
      · exact noAccess_bub List.mem_cons_self bubble ..
      · exact noAccess_bub (List.mem_cons_of_mem _ mem) bubble ..

end Sys2Proof
end

section
/-! Positions of memory nodes perform at their home memory node (08 R231, R232, R235; 12 R316). -/
namespace Sys2Proof.Machine

/-! ### Collections -/

theorem Assoc.mem_of_find {α : Type} {l : Assoc α} {k : Nat} {x : α} (found : l.find k = some x) : (k, x) ∈ l := by
  induction l with
  | nil => cases found
  | cons e l ih =>
    obtain ⟨k', y⟩ := e
    rw [Assoc.find] at found
    split at found
    · next same => obtain rfl := Option.some.inj found; exact same ▸ List.mem_cons_self
    · exact List.mem_cons_of_mem _ (ih found)

theorem Assoc.mem_of_mem_put {α : Type} {l : Assoc α} {r k : Nat} {x y : α} (mem : (k, x) ∈ l.put r y) (other : k ≠ r) :
    (k, x) ∈ l := by
  induction l with
  | nil => simp [Assoc.put, other] at mem
  | cons e l ih =>
    obtain ⟨k', z⟩ := e
    rw [Assoc.put] at mem
    split at mem
    · simpa [other] using mem
    · split at mem
      · exact List.mem_cons_of_mem _ (by simpa [other] using mem)
      · obtain head | tail := List.mem_cons.1 mem
        · exact head ▸ List.mem_cons_self
        · exact List.mem_cons_of_mem _ (ih tail)

/-- A fold whose every step keeps the value it began with gives that value. -/
theorem foldl_keeps_of_mem {α β : Type} {f : β → α → β} {b : β} {l : List α} (h : ∀ x ∈ l, f b x = b) :
    l.foldl f b = b := by
  induction l with
  | nil => rfl
  | cons x l ih => rw [List.foldl_cons, h x List.mem_cons_self, ih fun y mem => h y (List.mem_cons_of_mem _ mem)]

/-! ### Bytes -/

@[simp] theorem leBytes_length (n x : Nat) : (leBytes n x).length = n := by
  induction n generalizing x with
  | zero => rfl
  | succ n ih => rw [leBytes, List.length_cons, ih]

theorem leBytes_getElem {n j : Nat} (x : Nat) (h : j < (leBytes n x).length) :
    (leBytes n x)[j] = BitVec.ofNat 8 (x / 256 ^ j) := by
  induction n generalizing x j with
  | zero => exact absurd h (Nat.not_lt_zero j)
  | succ n ih =>
    cases j with
    | zero => simp [leBytes]
    | succ j => simp [leBytes, ih, Nat.div_div_eq_div_mul, Nat.pow_succ, Nat.mul_comm]

/-- A readable sector is written in place (R316, R344). -/
theorem write_mem {s : State} {key : MemKey} {a : Nat} (l : List Byte) (own : s.readable key (sectorOf a) = true) :
    (s.write key a l).mem = Memory.setAll s.mem a l :=
  congrArg (Memory.setAll · a l) (if_pos own)

/-! ### The translation an access used is cached: what the access then finds (R440) -/

section Cache
variable (s : State) (core c : Nat) (va : W64)

theorem cache_sideAt (sec : Nat) : (s.cache core c va).sideAt sec = s.sideAt sec := by rw [cache_frame]; rfl
theorem cache_quiesced (pa : Nat) : (s.cache core c va).quiesced pa = s.quiesced pa := by rw [cache_frame]; rfl
theorem cache_keyOf (ctx : Nat) : (s.cache core c va).keyOf ctx = s.keyOf ctx := by rw [cache_frame]; rfl
theorem cache_mem : (s.cache core c va).mem = s.mem := by rw [cache_frame]
theorem cache_poisonedAt (pa n : Nat) : (s.cache core c va).poisonedAt pa n = s.poisonedAt pa n := by
  rw [cache_frame]; rfl
theorem cache_readable (key : MemKey) (sec : Nat) : (s.cache core c va).readable key sec = s.readable key sec := by
  rw [cache_frame]; rfl
theorem cache_peekN (key : MemKey) (a n : Nat) : (s.cache core c va).peekN key a n = s.peekN key a n := by
  induction n generalizing a with
  | zero => rfl
  | succ n ih =>
    have byte : (s.cache core c va).peek key a = s.peek key a := by rw [cache_frame]; rfl
    rw [State.peekN, State.peekN, ih, byte]

/-- A translation cached leaves the synchronisation counts of every core (R324). -/
theorem cache_count (n l : Nat) : (s.cache core c va).count n l = s.count n l := by
  unfold State.cache
  split
  · rfl
  · next leaf _ =>
    have walked : (s.rouseWalk c va leaf).cores = s.cores := by rw [rouseWalk_frame]
    dsimp only
    split
    · rw [State.count, State.core, walked]; rfl
    · by_cases same : n = core
      · subst same
        rw [State.count, State.core, State.setCore, Assoc.get_put_same, State.core, walked]; rfl
      · rw [State.count, State.core, State.setCore, Assoc.get_put_ne _ same, walked]; rfl

theorem cache_race (rg : Region) (sec : Nat) : (s.cache core c va).race rg sec = s.race rg sec := by
  have resident (w : BitVec 12) : (s.cache core c va).residentWid rg.core w = s.residentWid rg.core w := by
    rw [cache_frame]; rfl
  simp only [State.race, cache_sideAt, cache_count, resident]

end Cache

end Sys2Proof.Machine

namespace Sys2Proof
open Machine Statements

/-! ### Stores of other residencies (notes/assumptions/138.md) -/

/-- Where no other residency has a checked store toward the sector, none of them must perform first. -/
theorem settleSec_alone {s : State} {r sec : Nat} (alone : Alone s r sec) : s.settleSec r sec = s := by
  refine foldl_keeps_of_mem fun e mem => foldl_keeps_of_mem fun pg _ => ?_
  have other : e.1 ≠ r := by simpa using (List.mem_filter.1 mem).2
  split
  · rfl
  · next q there =>
    obtain ⟨rg, region, regs⟩ := seq?_eq_some.1 there
    have none_ : q.stores.any (fun st => st.chk && sectorOf st.pa = sec) = false := by
      rw [List.any_eq_false]
      intro st held
      have := alone e.1 rg (Assoc.mem_of_find region) other q (List.mem_of_getElem? regs) st held
      simpa using this
    rw [none_]
    rfl

theorem settle1_alone {s : State} {r pa : Nat} {u : Bool} (alone : u = true ∨ Alone s r (sectorOf pa)) :
    s.settle1 r pa u = s := by
  unfold State.settle1
  split
  · rfl
  · next checked => exact settleSec_alone (alone.resolve_left checked)

theorem alone_cache {s : State} {r sec : Nat} (core c : Nat) (va : W64) (alone : Alone s r sec) :
    Alone (s.cache core c va) r sec := by
  unfold Alone
  rwa [State.cache_regions]

theorem alone_setRg {s : State} {r sec : Nat} (rg : Region) (alone : Alone s r sec) : Alone (s.setRg r rg) r sec :=
  fun k x mem other => alone k x (Assoc.mem_of_mem_put mem other) other

end Sys2Proof
end

section
/-! A position of one unit performs (08 R231, R232, R235). -/
namespace Sys2Proof.Machine

/-! ### Units and changes of a position -/

section Unit
variable {v : NodeV} (noRecord : v.op ≠ 0xA6) (noPieces : v.op ≠ 0xB3)
include noRecord noPieces

theorem unit_eq : v.unit = fmtWidth v.fmt / 8 := by rw [NodeV.unit, if_neg noPieces, if_neg noRecord]

/-- A position is one access (R231). -/
theorem units_eq_one (sized : 0 < fmtWidth v.fmt / 8) (p : MemPos) : v.units p = 1 := by
  rw [NodeV.units, NodeV.span, if_neg noRecord, unit_eq noRecord noPieces]
  exact Nat.div_eq_of_lt_le (by omega) (by omega)

end Unit

/-- Of two changes of a position the second goes on from the first. -/
@[simp] theorem Nd.updPos_updPos (d : Nd) (k : Nat) (f g : MemPos → MemPos) :
    (d.updPos k f).updPos k g = d.updPos k (fun p => g (f p)) := by
  rw [Nd.updPos, Nd.updPos, Nd.upd_upd, Nd.updPos]
  simp only [listUpd_listUpd]

/-- The node with the translation of an access cached. -/
def Nd.translated (d : Nd) (va : W64) : Nd := { d with s := d.s.cache d.rg.core d.rg.ctx va }

section Translated
variable (d : Nd) (va : W64)

theorem translated_keyOf (c : Nat) : (d.translated va).s.keyOf c = d.s.keyOf c := cache_keyOf ..
theorem translated_readable (key : MemKey) (sec : Nat) : (d.translated va).s.readable key sec = d.s.readable key sec :=
  cache_readable ..
theorem translated_peekN (key : MemKey) (a n : Nat) : (d.translated va).s.peekN key a n = d.s.peekN key a n :=
  cache_peekN ..

end Translated

theorem Nd.done_mem (d : Nd) : d.done.mem = d.s.mem := rfl

section Position
variable {d d' : Nd} {k : Nat} {p : MemPos} {x : MemPlace} {pa : Nat} {u : Bool}

/-! ### From the position to its place -/

/-- The checks of a unit at its home memory node: no quiescence, the format tag, and the race check (R232, R325, R457). -/
theorem checkAt_local (va : W64) (awake : d.s.quiesced pa = false)
    (tag : d.v.fmt = 0 ∨ tagOk (d.s.sideAt (sectorOf pa)) d.v.fmt = true)
    (quiet : u = false → d.s.race d.rg (sectorOf pa) = none) : d.checkAt k p va (.loc pa u) = .ok () := by
  have noRace (c : Bool) : (if u || c then none else d.s.race d.rg (sectorOf pa)) = none := by
    cases u with
    | true => rfl
    | false => exact ite_eq_left_iff.2 fun _ => quiet rfl
  simp only [Nd.checkAt, noRace]
  rw [if_neg (by simp [awake]), if_neg]
  rcases tag with raw | good
  · simp [raw]
  · simp [good]

/-- A flat unit goes where its address translates to; a write waits there for no other residency's store (R231). -/
theorem placeAt_local (va : W64) (flat : d.v.flat = true)
    (at_ : xlate d.s d.rg.core d.rg.ctx va d.v.memKind.acc = .ok (.loc pa u))
    (settled : d.v.memKind = .load ∨ (d.translated va).s.settle1 d.r pa u = (d.translated va).s) :
    d.placeAt k p va = .ok (.loc pa u, d.translated va) := by
  have kept : (if d.v.memKind = .load then (d.translated va).s else (d.translated va).s.settle1 d.r pa u) =
      (d.translated va).s := by
    split
    · rfl
    · next writes => exact settled.resolve_left writes
  rw [Nd.placeAt, if_neg (by simp [flat]), at_]
  exact congrArg (fun t => Except.ok (MemPlace.loc pa u, { d with s := t })) kept

/-- A position of one unit has one place (R231). -/
theorem reach_one (aligned : p.addr.toNat % d.v.memAlign = 0) (one : d.v.units p = 1)
    (place : d.placeAt k p p.addr = .ok (x, d')) (check : d'.checkAt k p p.addr x = .ok ()) :
    d.reach k p = .ok ([x], d') := by
  have first : p.addr + w64 (0 * d.v.unit) = p.addr := by simp [w64]
  rw [Nd.reach, if_neg (by simp [aligned]), one]
  simp only [Nd.placesOf, first, place, check]

/-- A flat position of one unit that passes its checks performs where its address translates to (R231, R430). -/
theorem reach_local (aligned : p.addr.toNat % d.v.memAlign = 0) (one : d.v.units p = 1) (flat : d.v.flat = true)
    (at_ : xlate d.s d.rg.core d.rg.ctx p.addr d.v.memKind.acc = .ok (.loc pa u))
    (settled : d.v.memKind = .load ∨ (d.translated p.addr).s.settle1 d.r pa u = (d.translated p.addr).s)
    (tag : d.v.fmt = 0 ∨ tagOk (d.s.sideAt (sectorOf pa)) d.v.fmt = true)
    (quiet : u = false → d.s.race d.rg (sectorOf pa) = none) (awake : d.s.quiesced pa = false) :
    d.reach k p = .ok ([.loc pa u], d.translated p.addr) :=
  reach_one aligned one (placeAt_local p.addr flat at_ settled)
    (checkAt_local p.addr ((cache_quiesced ..).trans awake)
      (tag.imp_right fun good => (congrArg (tagOk · d.v.fmt) (cache_sideAt ..)).trans good)
      fun checked => (cache_race ..).trans (quiet checked))

/-- A position that nothing holds up performs at its one local place (R231, R235). -/
theorem performPos_local (at_ : d.st.pend[k]? = some p) (open_ : p.done = none) (here : p.remote = none)
    (goes : d.st.stopped = none) (runs : d.st.skip = false) (unpaused : ∀ q ∈ d.st.pend.take (k + 1), q.paused = none)
    (clear : ∀ q ∈ d.st.pend.take k, q.done = none → d.overlap q p = false) (fresh : p.pieces = 0)
    (reached : d.reach k p = .ok ([.loc pa u], d')) :
    d.performPos k = some (d'.atHome k { p with places := [.loc pa u] } pa u).flushed := by
  have nonePaused : (d.st.pend.take (k + 1)).any (fun q => q.paused.isSome) = false := by
    rw [List.any_eq_false]
    intro q mem
    simp [unpaused q mem]
  have noneBefore : (d.st.pend.take k).any (fun q => q.done.isNone && d.overlap q p) = false := by
    rw [List.any_eq_false]
    intro q mem
    simpa using clear q mem
  have only : [MemPlace.loc pa u][p.pieces]? = some (.loc pa u) := by rw [fresh]; rfl
  rw [Nd.performPos, at_]
  dsimp only
  rw [if_neg (by simp [open_, here, goes, runs, nonePaused, noneBefore]), if_pos fresh, reached]
  dsimp only
  rw [only]

/-! ### At home -/

/-- The token of a load that has performed, with the block scale of its sector for an 8-bit format (R232). -/
def Nd.loaded (d : Nd) (p : MemPos) (pa old : Nat) : Token :=
  { val := BitVec.ofNat 64 old, mks := p.mks, ix := p.ix
    s := if fmtWidth d.v.fmt = 8 ∧ d.v.fmt ≠ 0 then (d.s.sideAt (sectorOf pa)).sca else 127 }

theorem translated_loaded (d : Nd) (va : W64) (p : MemPos) (pa old : Nat) :
    (d.translated va).loaded p pa old = d.loaded p pa old := by
  have side : (d.translated va).s.sideAt (sectorOf pa) = d.s.sideAt (sectorOf pa) := cache_sideAt ..
  rw [Nd.loaded, side]
  rfl

/-- The last unit of a load without a flag gives its value (R232). -/
theorem unitDone_load (load : d.v.memKind = .load) (one : d.v.units p = 1) (fresh : p.pieces = 0) (clean : p.psn = false)
    (part : Nat) : d.unitDone k p part false = d.updPos k (fun _ =>
      { p with
        pieces := 1
        value := w64 (p.value.toNat + part)
        done := some (p.result (p.value.toNat + part) 127) }) := by
  have back (n : Nat) : w64 (w64 n).toNat = w64 n := (BitVec.ofNat_toNat ..).trans (BitVec.setWidth_eq _)
  simp [Nd.unitDone, load, one, fresh, clean, MemPos.result, back]

/-- A load takes its sector's bytes as its result and changes no memory (R232, R236). -/
theorem atHome_load (op : d.v.op = 0xAE) (sized : 0 < fmtWidth d.v.fmt / 8) (fresh : p.pieces = 0) (zero : p.value = 0)
    (clean : p.psn = false) (sound : d.s.poisonedAt pa d.v.unit = false) :
    d.atHome k p pa u = d.updPos k (fun _ =>
      let old := leNat (d.s.peekN (d.s.keyOf d.rg.ctx) pa (fmtWidth d.v.fmt / 8))
      { p with pieces := 1, value := BitVec.ofNat 64 old, done := some (d.loaded p pa old) }) := by
  have load : d.v.memKind = .load := by simp [NodeV.memKind, op]
  have noRecord : d.v.op ≠ 0xA6 := by rw [op]; decide
  have noPieces : d.v.op ≠ 0xB3 := by rw [op]; decide
  have unit := unit_eq noRecord noPieces
  have one := units_eq_one noRecord noPieces sized
  rw [unit] at sound
  have noAcquire : d.v.op ≠ 0xB1 := by rw [op]; decide
  simp only [Nd.atHome, load, unit, fresh, sound, if_neg noAcquire, unitDone_load load (one p) fresh clean,
    Nd.updPos_updPos, zero]
  simp [op, Nd.loaded, MemPos.result, w64]

theorem recTag_of_ne (noRecord : d.v.op ≠ 0xA6) (p : MemPos) (pa : Nat) (s : State) : d.recTag p pa s = s :=
  if_neg (by simp [noRecord])

/-- What follows a unit of a record changes its region alone (R229, R230). -/
theorem drainDone_s (d : Nd) (k : Nat) : (d.drainDone k).s = d.s := by
  unfold Nd.drainDone; split
  · rfl
  · extract_lets d'
    have kept : d'.s = d.s := by
      show (if _ then _ else _ : Nd).s = _
      split <;> rfl
    split
    · exact kept
    · exact kept

/-- A store without a flag writes its value's bytes (R232, R237). -/
theorem atHome_store_mem (op : d.v.op = 0xAF) (noRelease : p.rel = none) (fresh : p.pieces = 0) (clean : p.psn = false)
    (noBads : p.bads = []) (settled : d.done.settle1 d.r pa u = d.done)
    (own : d.s.readable (d.s.keyOf d.rg.ctx) (sectorOf pa) = true) :
    (d.atHome k p pa u).s.mem = Memory.setAll d.s.mem pa (leBytes (fmtWidth d.v.fmt / 8) p.value.toNat) := by
  have store : d.v.memKind = .store := by simp [NodeV.memKind, op]
  have noRecord : d.v.op ≠ 0xA6 := by rw [op]; decide
  have noPieces : d.v.op ≠ 0xB3 := by rw [op]; decide
  have unmarked : p.marked = false := by simp [MemPos.marked, clean, noBads]
  have bytes : d.v.unitBytes p = leBytes (fmtWidth d.v.fmt / 8) p.value.toNat := by
    rw [NodeV.unitBytes, if_neg noRecord, fresh, unit_eq noRecord noPieces, Nat.zero_mul, List.drop_zero]
    exact List.take_of_length_le (Nat.le_of_eq (leBytes_length ..))
  simp only [Nd.atHome, store, noRelease, Option.isSome_none, Bool.false_eq_true, if_false, settled, unmarked, bytes,
    recTag_of_ne noRecord]
  rw [drainDone_s]
  refine Eq.trans ?_ (write_mem (s := d.done) _ own)
  cases u with
  | true => rfl
  | false => rfl

end Position

/-! ### The event -/

theorem nodeAt_s {s : State} {r b n : Nat} {d : Nd} (here : s.nodeAt r b n = some d) : d.s = s ∧ d.r = r := by
  unfold State.nodeAt at here
  split at here
  · cases here
  · split at here
    · cases here
    · obtain rfl := Option.some.inj here
      exact ⟨rfl, rfl⟩

/-- A begun access of a node of a placed, running residency performs in its turn (R316). -/
theorem exec_accessPerformed_node {s : State} {r b n k : Nat} {d d' : Nd} (here : s.nodeAt r b n = some d)
    (placed : d.rg.place.isSome = true) (live : d.rg.live = true) (unsaved : d.st.saved = false)
    (performs : d.performPos k = some d') : exec (.accessPerformed (.node r b n k)) s = .next d'.done := by
  show execAccessPerformed (.node r b n k) s = _
  have standing : d.rg.place.isNone = false := by rw [← Option.not_isSome, placed]; rfl
  simp [execAccessPerformed, here, standing, live, unsaved, performs]

end Sys2Proof.Machine

namespace Sys2Proof
open Machine Statements

/-- Settles O43: the position's one place is where its address translates to, and it performs there. -/
theorem nodeAccesses : Obligations.NodeAccesses := by
  intro s r b n k d p pa u here placed live unsaved goes runs begun open_ noRemote unpaused clear aligned flat fresh
    noRelease clean noBads at_ tag quiet sound awake w
  obtain ⟨rfl, rfl⟩ := nodeAt_s here
  have performs (one : d.v.units p = 1)
      (settled : d.v.memKind = .load ∨ (d.translated p.addr).s.settle1 d.r pa u = (d.translated p.addr).s) :=
    exec_accessPerformed_node here placed live unsaved (performPos_local begun open_ noRemote goes runs unpaused clear
      fresh (reach_local aligned one flat at_ settled tag quiet awake))
  refine ⟨fun op sized zero => ?_, fun op sized alone wf own => ?_⟩
  · have load : d.v.memKind = .load := by simp [NodeV.memKind, op]
    have one := units_eq_one (by rw [op]; decide) (by rw [op]; decide) sized p
    have home := atHome_load (d := d.translated p.addr) (k := k) (p := { p with places := [.loc pa u] }) (u := u) op sized
      fresh zero clean ((cache_poisonedAt ..).trans sound)
    refine ⟨_, performs one (.inl load), ?_, ?_⟩
    · rw [home, Nd.done_mem, Nd.flushed_s]
      exact cache_mem ..
    · simp only [home, translated_keyOf, translated_peekN, translated_loaded]
      rfl
  · have one := units_eq_one (by rw [op]; decide) (by rw [op]; decide) sized p
    have aloneThen : u = true ∨ Alone (d.translated p.addr).s d.r (sectorOf pa) := alone.imp_right (alone_cache _ _ _)
    have home := atHome_store_mem (d := d.translated p.addr) (k := k) (p := { p with places := [.loc pa u] }) op noRelease
      fresh clean noBads (settle1_alone (aloneThen.imp_right (alone_setRg _)))
      (by rw [translated_keyOf, translated_readable]; exact own)
    have mem : ((d.translated p.addr).atHome k { p with places := [.loc pa u] } pa u).flushed.done.mem =
        Memory.setAll d.s.mem pa (leBytes w p.value.toNat) := by
      rw [Nd.done_mem, Nd.flushed_s, home]
      exact congrArg (Memory.setAll · pa (leBytes w p.value.toNat)) (cache_mem ..)
    refine ⟨_, performs one (.inr (settle1_alone aloneThen)), fun a outside => ?_, fun j inside => ?_⟩
    · rw [mem, Memory.get_setAll_out _ _ _ (by rwa [leBytes_length])]
    · rw [mem, Memory.get_setAll_in _ _ _ wf (by rwa [leBytes_length]), leBytes_getElem]

end Sys2Proof
end

section
/-! Fibre nodes: one operation for one position of every slot, and the segments of a pair stream (09 R256 to R259, R266 to
R272). -/
namespace Sys2Proof.Machine

/-! ### Tokens at the heads of slots -/

theorem filterMap_eq_of_map_eq_some {α β : Type} {f : α → Option β} {l : List α} {ts : List β}
    (all : l.map f = ts.map some) : l.filterMap f = ts := by
  calc l.filterMap f = (l.map f).filterMap id := by rw [List.filterMap_map]; rfl
    _ = ts := by rw [all, List.filterMap_map]; exact List.filterMap_some

/-- No slot that offers a token has ended. -/
theorem isEnded_eq_false_of_heads {d : Nd} {l : List Nat} {ts : List Token}
    (heads : l.map (fun i => (d.head i).tok?) = ts.map some) {i : Nat} (mem : i ∈ l) : (d.head i).isEnded = false := by
  have offered : (d.head i).tok? ∈ ts.map some := heads ▸ List.mem_map_of_mem mem
  obtain ⟨t, _, is⟩ := List.mem_map.1 offered
  rw [Head.eq_of_tok? is.symm]
  rfl

/-- The pairing rule covers no slots but those it is given (R189). -/
theorem mem_of_mem_pairs {d : Nd} {l : List Nat} {i : Nat} (mem : i ∈ d.pairs l) : i ∈ l := (List.mem_filter.1 mem).1

/-- No slot that the pairing rule covers has ended where all offer tokens. -/
theorem pairs_any_isEnded {d : Nd} {l : List Nat} {ts : List Token}
    (heads : l.map (fun i => (d.head i).tok?) = ts.map some) :
    (d.pairs l).any (fun i => (d.head i).isEnded) = false :=
  List.any_eq_false.2 fun _ mem => Bool.eq_false_iff.1 (isEnded_eq_false_of_heads heads (mem_of_mem_pairs mem))

/-! ### Operations of one position of every slot (R259) -/

/-- The addresses an operation names: two for FINTER (R270). -/
def Nd.fibAddrs (d : Nd) (ts : List Token) : List W64 :=
  if fibKind d.v.op = .inter then [(ts.getD 0 {}).val, (((ts.take d.req.length).drop 1).getD 0 {}).val]
  else [(ts.getD 0 {}).val]

/-- The operation of the position with tokens `ts`. -/
def Nd.fibOp (d : Nd) (ts : List Token) : FOp :=
  d.newFop (ts.getD 0 {}).val (d.ownPairs ((ts.take d.req.length).drop 1)) (ts.getD 0 {}).mks

/-- The node with that operation started; FINTER's in two halves (R270). -/
def Nd.fibBegun (d : Nd) (ts : List Token) : Nd :=
  if fibKind d.v.op = .inter then
    ((d.consume d.memReq).startOp { d.fibOp ts with other := some ((d.consume d.memReq).s.nextId + 1) }).putFop
      { d.fibOp ts with
        addr := (((ts.take d.req.length).drop 1).getD 0 {}).val
        half := some (d.consume d.memReq).s.nextId
        rec_ := none }
  else (d.consume d.memReq).startOp (d.fibOp ts)

/-- No flag among the tokens makes the position start no operation (R259). -/
structure Nd.FibWhole (d : Nd) (ts : List Token) : Prop where
  addr : (ts.getD 0 {}).flagged = false
  bubbles : ∀ t ∈ (ts.take d.req.length).drop 1, t.bub = false
  flags : fibKind d.v.op ≠ .ins → ∀ t ∈ (ts.take d.req.length).drop 1, t.flagged = false

@[simp] theorem consume_s (d : Nd) (l : List Nat) : (d.consume l).s = d.s :=
  Nd.foldl_keeps (g := Nd.s) (f := Nd.pop) (fun _ _ => rfl) l d

theorem fibSkip_of_runs {d : Nd} (runs : d.st.skip = false) : d.fibSkip = false := by simp [Nd.fibSkip, runs]

section Trap
variable {d : Nd} (aligned : d.rbase.toNat % 16 = 0)
include aligned

/-- Addresses in fibre space pass the checks at the node (R247, R258). -/
theorem fibTrap_inside {l : List W64} (inside : ∀ a ∈ l, fibreSpace a = true) : d.fibTrap l = none := by
  have found : l.find? (fun a => !fibreSpace a) = none := List.find?_eq_none.2 fun a mem => by simp [inside a mem]
  simp [Nd.fibTrap, aligned, found]

/-- The first address traps outside fibre space (R247). -/
theorem fibTrap_outside {a : W64} (outside : fibreSpace a = false) (l : List W64) :
    d.fibTrap (a :: l) =
      some (d.trap 3 a (XFault.detail ⟨6, 0, 0⟩ (if isFibreWriter d.v.op then .write else .read))) := by
  simp [Nd.fibTrap, aligned, outside]

end Trap

theorem fibAddrs_eq_cons (d : Nd) (ts : List Token) : ∃ l, d.fibAddrs ts = (ts.getD 0 {}).val :: l := by
  unfold Nd.fibAddrs; split
  · exact ⟨_, rfl⟩
  · exact ⟨_, rfl⟩

section Position
variable {d : Nd} {ts : List Token} (runs : d.st.skip = false) (few : d.fops.length < 64) (fires : Fires d d.memReq ts)
  (whole : d.FibWhole ts)
include runs few fires whole

/-- A fibre node that fires starts its operation or traps; a trap waits for the operations in progress (R259, R430). -/
theorem fibNode_of_fires :
    d.fibNode = (d.fibTrap (d.fibAddrs ts)).elim (some (d.fibBegun ts))
      (fun trapped => if d.fops.isEmpty then some trapped else none) := by
  obtain ⟨addr, bubbles, flags⟩ := whole
  have notEnded : (!(d.pairs d.memReq).isEmpty && (d.pairs d.memReq).all (fun i => (d.head i).isEnded)) = false := by
    cases covered : d.pairs d.memReq with
    | nil => rfl
    | cons i l =>
      have listed : i ∈ d.pairs d.memReq := covered ▸ List.mem_cons_self
      have first := isEnded_eq_false_of_heads fires.heads (mem_of_mem_pairs listed)
      simp [first]
  have noBubble : ((ts.take d.req.length).drop 1).any (·.bub) = false :=
    List.any_eq_false.2 fun t mem => by simp [bubbles t mem]
  have noFlag : (fibKind d.v.op != .ins && ((ts.take d.req.length).drop 1).any Token.flagged) = false := by
    by_cases ins : fibKind d.v.op = .ins
    · simp [ins]
    · rw [List.any_eq_false.2 fun t mem => by simp [flags ins t mem], Bool.and_false]
  have deep : ¬ fibDepth ≤ d.fops.length := Nat.not_le.2 few
  unfold Nd.fibNode
  dsimp only
  rw [if_neg (by rw [Bool.and_assoc, notEnded]; simp [deep]), pairStep_fires fires]
  rw [if_neg (by rw [fibSkip_of_runs runs, addr, noBubble, noFlag]; decide), Nd.fibAddrs, Nd.fibBegun]
  split
  · next trapped is => rw [is]; rfl
  · next is => rw [is]; exact (apply_ite some ..).symm

/-- An address outside fibre space waits for the operations in progress (R430). -/
theorem fibNode_waits (aligned : d.rbase.toNat % 16 = 0) (outside : fibreSpace (ts.getD 0 {}).val = false)
    (busy : d.fops ≠ []) : d.fibNode = none := by
  obtain ⟨l, addrs⟩ := fibAddrs_eq_cons d ts
  rw [fibNode_of_fires runs few fires whole, addrs, fibTrap_outside aligned outside]
  exact if_neg (by simpa using busy)

/-- An address outside fibre space stops the node once no operation is in progress (R247, R430). -/
theorem fibNode_traps (aligned : d.rbase.toNat % 16 = 0) (outside : fibreSpace (ts.getD 0 {}).val = false)
    (idle : d.fops = []) :
    d.fibNode = some (d.trap 3 (ts.getD 0 {}).val
      (XFault.detail ⟨6, 0, 0⟩ (if isFibreWriter d.v.op then .write else .read))) := by
  obtain ⟨l, addrs⟩ := fibAddrs_eq_cons d ts
  rw [fibNode_of_fires runs few fires whole, addrs, fibTrap_outside aligned outside]
  exact if_pos (by simp [idle])

/-- Addresses in fibre space start the operation (R259). -/
theorem fibNode_starts (aligned : d.rbase.toNat % 16 = 0) (inside : ∀ a ∈ d.fibAddrs ts, fibreSpace a = true) :
    d.fibNode = some (d.fibBegun ts) := by
  rw [fibNode_of_fires runs few fires whole, fibTrap_inside aligned inside]
  rfl

end Position

/-! ### Segments of a pair stream (R259, R270) -/

/-- The slots of an address, and of a pair stream. -/
def Nd.addrSlots (d : Nd) : List Nat := if d.fed 3 then [0, 3] else [0]
def Nd.streamSlots (d : Nd) : List Nat := if d.v.op = 0xB8 && d.v.flag 16 then [1, 2] else [1]

/-- A segment with the pair of `ts`; a bubble makes none. -/
def Nd.segWith (d : Nd) (seg : List (W64 × Token)) (ts : List Token) : List (W64 × Token) :=
  if ts.any (·.bub) then seg else seg ++ [d.pairOf ts]

@[simp] theorem updSlot_x (x : NodeSt) (i : Nat) (f : Slot → Slot) : (x.updSlot i f).x = x.x := by
  unfold NodeSt.updSlot; split <;> rfl

@[simp] theorem pop_x (d : Nd) (i : Nat) : (d.pop i).st.x = d.st.x := by
  show (d.upd (fun st => st.updSlot i Slot.pop)).st.x = _
  rw [Nd.upd_st, updSlot_x]

/-- Taking tokens leaves the open segment. -/
theorem foldl_pop_fibX (d : Nd) (l : List Nat) : (l.foldl Nd.pop d).fibX = d.fibX := by
  rw [Nd.fibX, Nd.foldl_keeps (g := fun d => d.st.x) pop_x l d, Nd.fibX]

section Stream
variable {d : Nd} {ts : List Token} {a : Token} {cnt : Nat} {seg : List (W64 × Token)} {used : Bool}
  (few : d.fops.length < 64) (live : d.st.ended = false) (opened : d.st.x = .fib cnt seg true used)
  (ready : ∀ k ∈ d.addrSlots, (d.head k).isMissing = false) (first : (d.head 0).tok? = some a)
  (heads : d.streamSlots.map (fun k => (d.head k).tok?) = ts.map some)
include few live opened ready first heads

/-- An open segment takes one more pair, and starts its operation with the last one (R259). -/
theorem fibStream_takes :
    d.fibStream = some (
      let taken := d.streamSlots.foldl Nd.pop d
      if orMks ts &&& BitVec.ofNat 4 (d.v.bits 12 4) = 0 then taken.setX (.fib cnt (d.segWith seg ts) true used)
      else ((taken.consume d.addrSlots).putFop (taken.newFop a.val (d.segWith seg ts) a.mks)).setX
        (.fib (cnt + 1) [] false true)) := by
  have at_ : d.fibX = (cnt, seg, true, used) := by rw [Nd.fibX, opened]
  have deep : ¬ fibDepth ≤ d.fops.length := Nat.not_le.2 few
  have noneMissing : d.addrSlots.any (fun i => (d.head i).isMissing) = false :=
    List.any_eq_false.2 fun k mem => by simp [ready k mem]
  have tokens := filterMap_eq_of_map_eq_some heads
  have length : ts.length = d.streamSlots.length := by simpa using (congrArg List.length heads).symm
  have goesOn := pairs_any_isEnded heads
  unfold Nd.streamSlots at tokens length goesOn
  unfold Nd.addrSlots at noneMissing
  unfold Nd.fibStream
  simp only [at_, live, deep, noneMissing, first, goesOn, tokens, length, foldl_pop_fibX, bne_self_eq_false]
  by_cases inner : orMks ts &&& BitVec.ofNat 4 (d.v.bits 12 4) = 0
  · simp only [inner, ↓reduceIte]; rfl
  · simp only [inner, bne_iff_ne.2 inner, ↓reduceIte]; rfl

end Stream
end Sys2Proof.Machine

namespace Sys2Proof
open Machine

/-! ### What a fibre node's instruction executes -/

/-- A node of which no position can be taken stays as it is (R186). -/
theorem runNode_waits {s : State} {r b n : Nat} {v : NodeV} {d : Nd} (seat : NodeSeat s r b n v d) {f : Nd → Option Nd}
    (waits : f d = none) : runNode v s f = .next d.done := by
  obtain ⟨rg, blk, cfg, region, node, rfl⟩ := seat.node
  have stays (k : Nat) (d : Nd) (waits : f d = none) : Nd.loop d k f d = d := by
    cases k with
    | zero => rfl
    | succ k => simp [Nd.loop, waits]
  simp only [runNode, seat.agent, region, node, stays _ _ waits, Nd.fired]
  rfl

theorem NodeSeat.state {s : State} {r b n : Nat} {v : NodeV} {d : Nd} (seat : NodeSeat s r b n v d) : d.s = s := by
  obtain ⟨_, _, _, _, _, rfl⟩ := seat.node
  rfl

theorem fmerge_fire : (⟨0xB8, .fmerge, .fmergeN64, .fmergeN96⟩ : Forms).Fire Nd.fibStream :=
  ⟨fun _ _ => rfl, fun _ _ => rfl, fun _ _ => rfl⟩
theorem fins_fire : (⟨0xB9, .fins, .finsN64, .finsN96⟩ : Forms).Fire Nd.fibNode :=
  ⟨fun _ _ => rfl, fun _ _ => rfl, fun _ _ => rfl⟩
theorem fscan_fire : (⟨0xBA, .fscan, .fscanN64, .fscanN96⟩ : Forms).Fire Nd.fibNode :=
  ⟨fun _ _ => rfl, fun _ _ => rfl, fun _ _ => rfl⟩
theorem fprobe_fire : (⟨0xBB, .fprobe, .fprobeN64, .fprobeN96⟩ : Forms).Fire Nd.fibNode :=
  ⟨fun _ _ => rfl, fun _ _ => rfl, fun _ _ => rfl⟩
theorem finter_fire : (⟨0xBC, .finter, .finterN64, .finterN96⟩ : Forms).Fire Nd.finter :=
  ⟨fun _ _ => rfl, fun _ _ => rfl, fun _ _ => rfl⟩
theorem ftopk_fire : (⟨0xC0, .ftopk, .ftopkN64, .ftopkN96⟩ : Forms).Fire Nd.fibNode :=
  ⟨fun _ _ => rfl, fun _ _ => rfl, fun _ _ => rfl⟩

/-- An operation that has no form of one word: both its forms fire positions `f`. -/
theorem exec_of_long {op : Nat} {n64 : N64 → Instr} {n96 : N96 → Instr} {f : Nd → Option Nd} {i : Instr} {v : NodeV}
    (here : (∃ x, i = n64 x ∧ v = view64 op x) ∨ (∃ x, i = n96 x ∧ v = view96 op x))
    (fire64 : ∀ x s, exec (n64 x) s = runNode (view64 op x) s f)
    (fire96 : ∀ x s, exec (n96 x) s = runNode (view96 op x) s f) (s : State) :
    exec i s = runNode v s f ∧ v.op = op := by
  obtain ⟨x, rfl, rfl⟩ | ⟨x, rfl, rfl⟩ := here
  · exact ⟨fire64 x s, rfl⟩
  · exact ⟨fire96 x s, rfl⟩

/-- Settles O44: a node of single positions starts its operation, waits or traps; one of a pair stream takes a pair. -/
theorem fibreNodes : Obligations.FibreNodes := by
  intro s r b n v d i seat runs few aligned fires one stream
  obtain rfl := seat.view
  have single {f : Nd → Option Nd} {kind : FKind} (run : exec i s = runNode d.v s f) (position : f d = d.fibNode)
      (is : fibKind d.v.op = kind) : one f kind := by
    intro ts ready a vs d2 addr bubbles flags
    subst is
    have whole : d.FibWhole ts := ⟨addr, bubbles, flags⟩
    have goes {d1 : Nd} (taken : d.fibNode = some d1) : fires f d1 :=
      run.trans (runNode_fires seat ready.live.2 f d1 (position.trans taken))
    refine ⟨fun outside busy => ?_, fun outside idle => goes (fibNode_traps runs few ready whole aligned outside idle),
      fun inside alone => goes ?_, fun inside inter inside2 => ?_⟩
    · exact run.trans (runNode_waits seat (position.trans (fibNode_waits runs few ready whole aligned outside busy)))
    · rw [fibNode_starts runs few ready whole aligned ?_, Nd.fibBegun, if_neg alone]
      · rfl
      · rw [Nd.fibAddrs, if_neg alone]
        exact List.forall_mem_singleton.2 inside
    · have both : ∀ a ∈ d.fibAddrs ts, fibreSpace a = true := by
        rw [Nd.fibAddrs, if_pos inter]
        exact List.forall_mem_cons.2 ⟨inside, List.forall_mem_singleton.2 inside2⟩
      have starts := fibNode_starts runs few ready whole aligned both
      rw [Nd.fibBegun, if_pos inter, consume_s, seat.state] at starts
      exact goes starts
  have singleForm {k : Forms} (fire : k.Fire Nd.fibNode) (here : k.here i d.v) : one Nd.fibNode (fibKind k.op) :=
    single (Forms.exec_eq fire here s) rfl (congrArg fibKind (Forms.here_op here))
  have longForm {op : Nat} {n64 : N64 → Instr} {n96 : N96 → Instr}
      (fire64 : ∀ x s, exec (n64 x) s = runNode (view64 op x) s Nd.fibNode)
      (fire96 : ∀ x s, exec (n96 x) s = runNode (view96 op x) s Nd.fibNode)
      (here : (∃ x, i = n64 x ∧ d.v = view64 op x) ∨ (∃ x, i = n96 x ∧ d.v = view96 op x)) :
      one Nd.fibNode (fibKind op) := by
    obtain ⟨run, is⟩ := exec_of_long here fire64 fire96 s
    exact single run rfl (congrArg fibKind is)
  have streamForm {f : Nd → Option Nd} {bs : List Nat} (run : exec i s = runNode d.v s f) (position : f d = d.fibStream)
      (slots : d.streamSlots = bs) : stream f bs := by
    rintro as_ a ts cnt seg used rfl ready first opened heads live unstopped seg1 d2
    subst slots
    have taken := fibStream_takes few live opened ready first heads
    have goes {d1 : Nd} (taken : d.fibStream = some d1) : fires f d1 :=
      run.trans (runNode_fires seat unstopped f d1 (position.trans taken))
    exact ⟨fun inner => goes (taken.trans (congrArg some (if_pos inner))),
      fun last => goes (taken.trans (congrArg some (if_neg last)))⟩
  refine ⟨fun here => streamForm (Forms.exec_eq fmerge_fire here s) rfl ?_, singleForm fins_fire, singleForm fscan_fire,
    singleForm fprobe_fire, fun here noStream => ?_, fun here str => ?_, longForm (fun _ _ => rfl) (fun _ _ => rfl),
    longForm (fun _ _ => rfl) (fun _ _ => rfl), longForm (fun _ _ => rfl) (fun _ _ => rfl), singleForm ftopk_fire,
    longForm (fun _ _ => rfl) (fun _ _ => rfl)⟩
  · simp [Nd.streamSlots, Forms.here_op here]
  · exact single (Forms.exec_eq finter_fire here s) (if_neg (by simp [noStream])) (congrArg fibKind (Forms.here_op here))
  · exact streamForm (Forms.exec_eq finter_fire here s) (if_pos str) (by simp [Nd.streamSlots, Forms.here_op here])

end Sys2Proof
end

section
/-! Events of fibre operations: arrival, the segments of a scan, the record and the tokens (09 R260 to R273). -/
namespace Sys2Proof.Machine

/-! ### A collection with one entry of its kind -/

/-- What a collection lists after a put is what was put or was listed before. -/
theorem Assoc.mem_put {α : Type} {l : Assoc α} {n : Nat} {x : α} {e : Nat × α} (mem : e ∈ l.put n x) :
    e = (n, x) ∨ e ∈ l := by
  induction l with
  | nil => exact .inl (List.mem_singleton.1 mem)
  | cons y l ih =>
    obtain ⟨k, y⟩ := y
    rw [Assoc.put] at mem
    split at mem
    · exact List.mem_cons.1 mem
    · split at mem
      · exact (List.mem_cons.1 mem).imp_right (List.mem_cons_of_mem _)
      · obtain head | tail := List.mem_cons.1 mem
        · exact .inr (head ▸ List.mem_cons_self)
        · exact (ih tail).imp_right (List.mem_cons_of_mem _)

/-- The entry put is the one entry of a kind of which the collection had none. -/
theorem Assoc.filter_put {α : Type} {l : Assoc α} {n : Nat} {x : α} {p : Nat × α → Bool} (is : p (n, x) = true)
    (none_ : ∀ e ∈ l, p e = false) : (l.put n x).filter p = [(n, x)] := by
  induction l with
  | nil => simp [Assoc.put, is]
  | cons y l ih =>
    obtain ⟨k, y⟩ := y
    obtain ⟨head, tail⟩ := List.forall_mem_cons.1 none_
    have rest : l.filter p = [] := List.filter_eq_nil_iff.2 fun e mem => by simp [tail e mem]
    rw [Assoc.put]
    split
    · simp [is, head, rest]
    · split
      · simp [is, rest]
      · simp [head, ih tail]

/-! ### Serving the operations of a fibre (R263 to R265) -/

/-- No operation is in the order of a fibre. -/
def State.FopsIdle (s : State) : Prop := ∀ e ∈ s.fops, e.2.st ≠ .waiting ∧ e.2.st ≠ .held

theorem fopHead_of_idle {s : State} (idle : s.FopsIdle) (key : Nat) : s.fopHead key = none := by
  have empty : s.fops.filter (fun e => (e.2.st = .waiting || e.2.st = .held) && e.2.key = key) = [] :=
    List.filter_eq_nil_iff.2 fun e mem => by simp [idle e mem]
  rw [State.fopHead, empty]
  rfl

theorem serveFibre_of_none {s : State} {key : Nat} (head : s.fopHead key = none) (n : Nat) :
    s.serveFibre n key = s := by
  cases n with
  | zero => rfl
  | succ n => rw [State.serveFibre, head]

/-- Where no operation waits no fibre has one to serve. -/
theorem serve_of_idle {s : State} (idle : s.FopsIdle) (key : Nat) : s.serve key = s :=
  serveFibre_of_none (fopHead_of_idle idle key) _

/-- The one operation in the order of any fibre is at the head of its own (R264). -/
theorem fopHead_putFop {s : State} {id : Nat} {o : FOp} (idle : s.FopsIdle) (waits : o.st = .waiting) (key : Nat) :
    (s.putFop id o).fopHead key = if o.key = key then some (id, o) else none := by
  rw [State.fopHead, State.putFop]
  dsimp only
  split
  · next same =>
    rw [Assoc.filter_put (by simp [waits, same]) fun e mem => by simp [idle e mem]]
    rfl
  · next other =>
    have empty : (s.fops.put id o).filter (fun e => (e.2.st = .waiting || e.2.st = .held) && e.2.key = key) = [] := by
      refine List.filter_eq_nil_iff.2 fun e mem => ?_
      obtain rfl | listed := Assoc.mem_put mem
      · simp [other]
      · simp [idle e listed]
    rw [empty]
    rfl

/-- Putting an operation that has ended leaves the orders of the fibres. -/
theorem fopsIdle_putFop {s : State} {id : Nat} {o : FOp} (idle : s.FopsIdle) (ended : o.st = .done) :
    (s.putFop id o).FopsIdle := by
  intro e mem
  obtain rfl | listed := Assoc.mem_put mem
  · simp [ended]
  · exact idle e listed

@[simp] theorem putFop_putFop (s : State) (id : Nat) (o x : FOp) : (s.putFop id o).putFop id x = s.putFop id x := by
  simp [State.putFop]

/-- An operation that a check at the home unit ends (R247, R259). -/
def FOp.refused (o : FOp) (status : Nat) : FOp :=
  { o with st := .done, status := status, hold := 0, segrd := 0, todo := [] }

section Refused
variable {s : State} {id : Nat} {o : FOp} (bad : s.fopCheck o ≠ 0) (noHalf : o.half = none)
  (noOther : o.other = none) (prompt : o.waited = false)
include bad

/-- A refused operation touches no segment, so that no scan holds it (R264). -/
theorem fopHeld_of_refused : s.fopHeld o = false := by
  have untouched : s.fopTouches o = [] := if_pos (by simpa using bad)
  simp [State.fopHeld, untouched]

include noHalf noOther prompt

/-- At the head of its fibre's order it ends with its status (R247, R259). -/
theorem startFop_of_refused : s.startFop id o = s.putFop id (o.refused (s.fopCheck o)) := by
  have none_ (status : Nat) : s.endFop id { o with hold := 0 } status = s.putFop id (o.refused status) := by
    simp [State.endFop, FOp.refused, noHalf, noOther]
  unfold State.startFop
  extract_lets f held ended code
  have at_once : held = { o with hold := 0 } :=
    congrArg (fun n => { o with hold := n }) (if_neg (by simp [prompt]))
  have check : code = s.fopCheck o := rfl
  clear_value held code
  subst at_once check
  split
  · next nowhere =>
    have none4 : s.fopCheck o = 4 := by rw [State.fopCheck, show s.poolAt o.ctx o.addr = none from nowhere]
    rw [none_, none4]
  · rw [if_pos (by simpa using bad), none_]

variable (idle : s.FopsIdle) (waits : o.st = .waiting)
include idle waits

/-- Its fibre's turn ends it, and leaves the other fibres none to serve. -/
theorem serve_putFop (key : Nat) :
    (s.putFop id o).serve key = if o.key = key then s.putFop id (o.refused (s.fopCheck o)) else s.putFop id o := by
  have head := fopHead_putFop (id := id) idle waits key
  split
  · next same =>
    rw [if_pos same] at head
    have listed : 0 < (s.putFop id o).fops.length :=
      List.length_pos_of_mem (Assoc.mem_of_find (Assoc.find_put_same s.fops id o))
    obtain ⟨n, length⟩ := Nat.exists_eq_add_one.2 listed
    have check : (s.putFop id o).fopCheck o = s.fopCheck o := rfl
    have badThere : (s.putFop id o).fopCheck o ≠ 0 := bad
    rw [State.serve, length, State.serveFibre, head]
    dsimp only
    rw [fopHeld_of_refused badThere, if_neg (by simp), startFop_of_refused badThere noHalf noOther prompt, check,
      putFop_putFop]
    exact serveFibre_of_none (fopHead_of_idle (fopsIdle_putFop idle rfl) key) n
  · next other =>
    rw [if_neg other] at head
    exact serveFibre_of_none head _

theorem foldl_serve_putFop (keys : List Nat) :
    keys.foldl State.serve (s.putFop id o) =
      if o.key ∈ keys then s.putFop id (o.refused (s.fopCheck o)) else s.putFop id o := by
  induction keys with
  | nil => rfl
  | cons key keys ih =>
    rw [List.foldl_cons, serve_putFop bad noHalf noOther prompt idle waits]
    by_cases same : o.key = key
    · have ended : (s.putFop id (o.refused (s.fopCheck o))).FopsIdle := fopsIdle_putFop idle rfl
      rw [if_pos same, if_pos (same ▸ List.mem_cons_self)]
      exact foldl_keeps_of_mem fun key _ => serve_of_idle ended key
    · rw [if_neg same, ih]
      simp only [List.mem_cons, same, false_or]

/-- Where no other operation is in the order of a fibre, a refused one ends with its status (R247, R259). -/
theorem serveAll_putFop : (s.putFop id o).serveAll = s.putFop id (o.refused (s.fopCheck o)) := by
  have ended : (s.putFop id (o.refused (s.fopCheck o))).FopsIdle := fopsIdle_putFop idle rfl
  have listed : o.key ∈ ((s.putFop id o).fops.map (fun e => e.2.key)).eraseDups := by
    rw [List.mem_eraseDups]
    exact List.mem_map_of_mem (f := fun e : Nat × FOp => e.2.key) (Assoc.mem_of_find (Assoc.find_put_same s.fops id o))
  rw [State.serveAll]
  generalize ((s.putFop id o).fops.map (fun e => e.2.key)).eraseDups = keys at listed ⊢
  obtain ⟨key, rest, rfl⟩ := List.exists_cons_of_ne_nil (List.ne_nil_of_mem listed)
  rw [List.foldl_cons, foldl_serve_putFop bad noHalf noOther prompt idle waits, if_pos listed]
  exact foldl_keeps_of_mem fun _ _ => foldl_keeps_of_mem fun key _ => serve_of_idle ended key

end Refused

/-! ### Arrival (R263) -/

section Arrive
variable {s : State} {id : Nat} {o : FOp} {rg : Region} (here : s.fops.find id = some o) (region : s.rg? o.rid = some rg)
  (resident : rg.resident = true)
include here region resident

section Staged
variable (staged : o.st = .staged) (works : o.noop = false)
  (first : ∀ e ∈ s.fops, ¬ (e.1 < id ∧ e.2.sameNode o = true ∧ e.2.st = .staged ∧ e.2.noop = false))
include staged works first

/-- An operation behind no staged one of its node arrives, and the fibres are served (R263). -/
theorem exec_fibreOpArrive_staged :
    exec (.fibreOpArrive id) s = .next
      (({ s with nextId := s.nextId + 1 } : State).putFop id { o with order := s.nextId, st := .waiting }).serveAll := by
  have noneBefore : s.fops.any (fun e => e.1 < id && e.2.sameNode o && e.2.st = .staged && !e.2.noop) = false :=
    List.any_eq_false.2 fun e mem => by simpa [and_assoc] using first e mem
  rw [exec_fibreOpArrive, execFibreOpArrive, here]
  dsimp only
  rw [if_neg (by simp [works, staged, noneBefore, region, resident])]

/-- Where no entry of the collection waits, its own number's included, an operation that a check ends arrives and ends
(R247, R259, R263). -/
theorem exec_fibreOpArrive_refused (bad : s.fopCheck o ≠ 0) (noHalf : o.half = none) (noOther : o.other = none)
    (prompt : o.waited = false) (idle : s.FopsIdle) :
    exec (.fibreOpArrive id) s = .next (({ s with nextId := s.nextId + 1 } : State).putFop id
      (FOp.refused { o with order := s.nextId, st := .waiting } (s.fopCheck o))) :=
  (exec_fibreOpArrive_staged here region resident staged works first).trans
    (congrArg _ (serveAll_putFop (s := { s with nextId := s.nextId + 1 })
      (o := { o with order := s.nextId, st := .waiting }) bad noHalf noOther prompt idle rfl))

end Staged

/-! ### Scans (R264) -/

/-- A scan reads its next segment, and gives its result with the last one (R264). -/
theorem exec_scanSegmentDone_reads {j : Nat} {more : List Nat} {g : FSeg} (scans : o.st = .scanning)
    (todo : o.todo = j :: more) (found : (s.fibreAt o.ctx o.addr).segs.find? (fun g => g.num = j) = some g) :
    exec (.scanSegmentDone id) s = .next
      (let read := { o with todo := more, got := o.got ++ g.pairs.map (fun p => (p.1, p.2, g.bad)) }
      if more = [] then s.endScan id read else s.putFop id read).serveAll := by
  rw [exec_scanSegmentDone, execScanSegmentDone, here]
  simp only [todo]
  rw [if_neg (by simp [scans, region, resident])]
  simp [found, List.isEmpty_iff]

/-! ### Records and tokens (R260, R262) -/

/-- Nothing holds up the completion of an operation that has ended. -/
structure FOp.Completing (o : FOp) (rg : Region) : Prop where
  whole : o.half = none
  ended : o.st = .done
  unpaused : o.paused = none
  atHome : o.remote = none
  untrapped : o.trapped = false
  counted : o.lost = 0
  unstopped : (rg.nodes.get (128 * o.blk + o.nidx) {}).stopped = none

section Complete
variable (free : o.Completing rg)
include free

omit resident in
/-- The record's dwords go first (R260). -/
theorem exec_fibreOpComplete_record {base : W64} (stage : o.stage = 0 ∨ o.stage = 1) (record : o.rec_ = some base) :
    exec (.fibreOpComplete id) s = .next (s.writeRec id o rg base) := by
  obtain ⟨whole, ended, unpaused, atHome, untrapped, counted, unstopped⟩ := free
  have same : { o with trapped := false } = o := by rw [← untrapped]
  rw [exec_fibreOpComplete, execFibreOpComplete, here]
  simp only [region]
  rw [if_neg (by simp [whole, ended, unpaused, atHome, unstopped]), if_neg (by simp [untrapped]),
    if_neg (by simp [counted])]
  rw [same]
  rcases stage with first | second
  · simp only [first, record]
  · simp only [second, record]

/-- When the record stands and the earlier operations of the node have completed, the node sends the tokens (R260). -/
theorem exec_fibreOpComplete_emits {d : Nd} (stands : o.stage = 2 ∨ o.rec_ = none)
    (unsaved : (rg.nodes.get (128 * o.blk + o.nidx) {}).saved = false)
    (first : ∀ e ∈ s.fops, ¬ (e.1 < id ∧ e.2.sameNode o = true ∧ e.2.half.isNone = true))
    (node : s.nodeAt o.rid o.blk o.nidx = some d) (room : d.room = true) :
    exec (.fibreOpComplete id) s =
      .next { (d.emitFop o).done with fops := (d.emitFop o).done.fops.del id } := by
  obtain ⟨whole, ended, unpaused, atHome, untrapped, counted, unstopped⟩ := free
  have noneBefore : s.fops.any (fun e => e.1 < id && e.2.sameNode o && e.2.half.isNone) = false :=
    List.any_eq_false.2 fun e mem => by simpa [and_assoc] using first e mem
  rw [exec_fibreOpComplete, execFibreOpComplete, here]
  simp only [region]
  rw [if_neg (by simp [whole, ended, unpaused, atHome, unstopped]), if_neg (by simp [untrapped]),
    if_neg (by simp [counted])]
  split
  · next first record => simp [first, record] at stands
  · next second record => simp [second, record] at stands
  · rw [if_neg (by simp [resident, unsaved, noneBefore]), node]
    simp only [room]
    rfl

end Complete
end Arrive

/-- A dword of the record of a placed residency is written where its address translates to: dword 1, and then dword 0 as a
release (R260, R324). -/
theorem writeRec_local {s : State} {id : Nat} {o : FOp} {rg : Region} {base : W64} {pa : Nat} {u : Bool}
    (placed : rg.place.isSome = true)
    (at_ : xlate s rg.core rg.ctx (if o.stage = 0 then base + 8 else base) .write = .ok (.loc pa u))
    (awake : s.quiesced pa = false) :
    s.writeRec id o rg base =
      (let cached := s.cache rg.core rg.ctx (if o.stage = 0 then base + 8 else base)
      let t := (if o.stage = 0 then cached else cached.bump o.rid).settle1 o.rid pa u
      let w := t.write (t.keyOf rg.ctx) pa (leBytes 8 (if o.stage = 0 then o.dw1 else o.dw0).toNat)
      (if u then w else w.setTag (sectorOf pa) (w.tagOf o.rid)).putFop id { o with stage := o.stage + 1 }) := by
  rw [State.writeRec]
  simp only [at_, placed]
  rw [if_neg (by simp [Target.local?, awake])]
  rcases Nat.eq_zero_or_pos o.stage with first | later
  · simp [first]
  · have second : o.stage ≠ 0 := Nat.ne_of_gt later
    simp [second]

end Sys2Proof.Machine
namespace Sys2Proof
open Machine

/-! ### A number listed twice -/

/-- An operation of position `num` on a fibre of no pool. -/
def poollessOp (num : Nat) : FOp :=
  { rid := 1, blk := 0, nidx := 0, num := num, kind := .scan, ctx := 0, addr := 2 ^ 56 }

/-- Number 7 stands for two operations: a look-up finds the staged one, and the other waits in the order of the same
fibre. Insertion keeps the keys rising, so that no step lists a number twice. -/
def twiceListed : State :=
  { State.reset with
    regions := [(1, { ctx := 0, st := .unarmed })]
    fops := [(7, poollessOp 0), (7, { poollessOp 1 with st := .waiting })] }

/-- Refutes O47, at a collection that lists a number twice: the clause of the refused operation asks nothing of the
other entries of its own number. One of them waits, is served first, and its result takes the place of the operation that
arrives. Where no entry waits the clause holds (`exec_fibreOpArrive_refused`); the statement's other clauses hold in every
state (`exec_fibreOpArrive_staged`, `exec_scanSegmentDone_reads`, `exec_fibreOpComplete_record` with `writeRec_local`,
`exec_fibreOpComplete_emits`). -/
theorem not_fibreEvents : ¬ Obligations.FibreEvents := by
  intro h
  have staged : ∀ e ∈ twiceListed.fops, ¬ (e.1 < 7 ∧ e.2.sameNode (poollessOp 0) = true ∧ e.2.st = .staged ∧
    e.2.noop = false) := by decide
  obtain ⟨arrival, -⟩ := h twiceListed 7 (poollessOp 0) { ctx := 0, st := .unarmed } rfl rfl rfl
  obtain ⟨-, refusal⟩ := arrival rfl rfl staged
  have claimed := refusal (by decide +kernel) rfl rfl rfl (by decide)
  have served := exec_fibreOpArrive_staged (s := twiceListed) (id := 7) (o := poollessOp 0)
    (rg := { ctx := 0, st := .unarmed }) rfl rfl rfl rfl rfl staged
  injection served.symm.trans claimed with same
  have position := congrArg (fun s => (s.fops.find 7).map FOp.num) same
  have waiting : ((({ twiceListed with nextId := twiceListed.nextId + 1 } : State).putFop 7
      { poollessOp 0 with order := twiceListed.nextId, st := .waiting }).serveAll.fops.find 7).map FOp.num = some 1 := by
    decide +kernel
  exact absurd (waiting.symm.trans position) (by decide +kernel)

end Sys2Proof
end

section
/-! The issue of Erg commands: acceptance in order, and refusals (10 R278, R279, R283 to R290). -/
namespace Sys2Proof.Machine

/-! ### Acceptance and refusal (R278, R279) -/

section Meaning
variable {v : Run} {d : Reg} {op : ErgOp}

theorem ergPut_full {desc : List W64} (full : 32 ≤ v.rg.ergq.entries.length) : v.ergPut d op desc = v.refuse d 1 :=
  if_pos full

section Foreign
variable (foreign : v.s.ownsErg v.r v.rg = false)
include foreign

/-- An issuer that does not own the array is refused before anything is read (R278). -/
theorem ergIssue_foreign {a : W64} : v.ergIssue d a op = v.refuse d 5 := by rw [Run.ergIssue, foreign]; rfl
theorem ergWords_foreign {l : List W64} : v.ergWords d op l = v.refuse d 5 := by rw [Run.ergWords, foreign]; rfl
theorem eeval_foreign {x : W64} {nsl pstr : Nat} : v.eeval d x nsl pstr = v.refuse d 5 := by
  rw [Run.eeval, foreign]; rfl

end Foreign

section Owner
variable (own : v.s.ownsErg v.r v.rg = true)
include own

theorem ergWords_own {l : List W64} : v.ergWords d op l = v.ergPut d op l := by rw [Run.ergWords, own]; rfl

/-- A range of cells that ends past the last is refused (R287). -/
theorem eeval_beyond {x : W64} {nsl pstr : Nat} (beyond : 4096 < fld x 0 12 + fld x 12 12 + 1) :
    v.eeval d x nsl pstr = v.refuse d 3 := by
  rw [Run.eeval, own]
  exact if_pos beyond

theorem eeval_within {x : W64} {nsl pstr : Nat} (within : fld x 0 12 + fld x 12 12 + 1 ≤ 4096) :
    v.eeval d x nsl pstr = v.ergPut d .eeval [w64 (fld x 0 12), w64 (fld x 12 12 + 1), w64 nsl, w64 pstr] := by
  rw [Run.eeval, own]
  exact if_neg (Nat.not_lt.2 within)

/-- A descriptor whose first dword is good is read whole and checked (R284). -/
theorem ergIssue_read {a h : W64} {desc : List W64} (first : v.readDws a 1 = .ok [h])
    (length : h.toNat % 256 = ergDlen op) (reserved : h.toNat / 4096 % 16 = 0) (high : h.toNat / 2 ^ 48 = 0)
    (whole : v.readDws a (ergDlen op) = .ok desc) :
    v.ergIssue d a op =
      if ergCode op v.rg.pm1 desc = 0 then v.ergPut d op desc else v.refuse d (ergCode op v.rg.pm1 desc) := by
  have good : (fld (dw [h] 0) 0 8 != ergDlen op || headBad (dw [h] 0)) = false := by
    rewrite [Bool.eq_false_iff, Ne, head_refused_iff]
    rintro (bad | bad | bad)
    · exact bad length
    · exact bad reserved
    · exact bad high
  simp only [Run.ergIssue, own, first, good, whole]
  cases code : ergCode op v.rg.pm1 desc <;> simp

end Owner
end Meaning

/-! ### The operands of EEVAL in one word (R287) -/

theorem fld_range_first (first cm1 : BitVec 12) : fld (w64 (first.toNat + 4096 * cm1.toNat)) 0 12 = first.toNat := by
  have small := first.isLt
  rw [fld_w64 _ (by decide)]
  omega

theorem fld_range_count (first cm1 : BitVec 12) : fld (w64 (first.toNat + 4096 * cm1.toNat)) 12 12 = cm1.toNat := by
  have small := first.isLt
  have small' := cm1.isLt
  rw [fld_w64 _ (by decide)]
  omega

/-! ### What an instruction of the queue does -/

section Issue
variable {s : State} {r pg : Nat} {rg : Region} {q : Seq} {g : Guard} {src : List Reg} {d : Reg} {n : Nat} {i : Instr}
  {k : Run → Except TrapRec State}

/-- What R279 says of a command of kind `op` with operands `desc`, issued by the instruction `i` of `n` words: it is accepted
with the queue's next number while fewer than 32 wait, and refused with 1 else. -/
def ErgPuts (s : State) (r pg : Nat) (rg : Region) (q : Seq) (d : Reg) (i : Instr) (n : Nat) (op : ErgOp)
    (desc : List W64) : Prop :=
  (rg.ergq.entries.length < 32 → exec i s = .next
    (((runAt s r pg rg q n).drained.s.updRg r (fun x => { x with ergq := {
      next := rg.ergq.next + 1
      entries := x.ergq.entries ++ [{ op := op, seq := rg.ergq.next, desc := desc, page := pg }] } })).setSeq r pg
      (({ past q n with stores := [] } : Seq).setG d (BitVec.ofNat 64 rg.ergq.next)))) ∧
  (32 ≤ rg.ergq.entries.length →
    exec i s = .next (s.setSeq r pg ((past q n).setG d (BitVec.ofNat 64 (2 ^ 63 + 1)))))

variable (able : Able s r pg rg q g src) (runs : exec i s = runSeq n g src s k)
include able runs

/-- An instruction whose meaning is a refusal writes the code and changes nothing else (R278, R279). -/
theorem exec_refused {c : Nat} (refused : k (runAt s r pg rg q n) = (runAt s r pg rg q n).refuse d c) :
    exec i s = .next (s.setSeq r pg ((past q n).setG d (BitVec.ofNat 64 (2 ^ 63 + c)))) :=
  runs.trans (runSeq_ok able (refused.trans (refuse_eq n c d)))

theorem ergPuts_of_runSeq {op : ErgOp} {desc : List W64}
    (puts : k (runAt s r pg rg q n) = (runAt s r pg rg q n).ergPut d op desc) : ErgPuts s r pg rg q d i n op desc :=
  ⟨fun room => runs.trans (runSeq_ok able (puts.trans (if_neg (Nat.not_le.2 room)))),
    fun full => exec_refused able runs (puts.trans (ergPut_full full))⟩

/-- An instruction of the owner whose meaning is the issue of the descriptor at `a` (R284). -/
theorem ergIssues_of_runSeq {op : ErgOp} {a : W64} (own : (runAt s r pg rg q n).s.ownsErg r rg = true)
    (issues : k (runAt s r pg rg q n) = (runAt s r pg rg q n).ergIssue d a op) {h : W64} {desc : List W64}
    (first : (runAt s r pg rg q n).readDws a 1 = .ok [h]) (length : h.toNat % 256 = ergDlen op)
    (reserved : h.toNat / 4096 % 16 = 0) (high : h.toNat / 2 ^ 48 = 0)
    (whole : (runAt s r pg rg q n).readDws a (ergDlen op) = .ok desc) :
    (ergCode op rg.pm1 desc = 0 → ErgPuts s r pg rg q d i n op desc) ∧
    (ergCode op rg.pm1 desc ≠ 0 → exec i s = .next (s.setSeq r pg ((past q n).setG d
      (BitVec.ofNat 64 (2 ^ 63 + ergCode op rg.pm1 desc))))) := by
  have read := issues.trans (ergIssue_read own first length reserved high whole)
  exact ⟨fun good => ergPuts_of_runSeq able runs (read.trans (if_pos good)),
    fun bad => exec_refused able runs (read.trans (if_neg bad))⟩

end Issue

end Sys2Proof.Machine

namespace Sys2Proof
open Machine

/-- Settles O33: each of the sixteen instructions means the issue of its descriptor or of its words. -/
theorem ergIssue : Obligations.ErgIssue := by
  intro s r pg rg q g d ra rb imm w t first cm1 able a1 a2 no yes put x y
  have ableA : Able s r pg rg q g [ra] := able_of_subset able (by simp)
  have able0 : Able s r pg rg q g [] := able_of_subset able (by simp)
  have low : fld a1 0 12 = x % 4096 := fld_zero a1 12
  have last : fld (w64 (first.toNat + 4096 * cm1.toNat)) 0 12 + fld (w64 (first.toNat + 4096 * cm1.toNat)) 12 12 + 1 = y := by
    rw [fld_range_first, fld_range_count]
  refine ⟨fun foreign1 foreign2 => ⟨fun i mem => ?short, fun i mem => ?long⟩, fun own1 own2 => ⟨fun e mem => ?descs,
    ?esel, ?eselSi, fun beyond => ?beyond, fun within => ?within, fun beyond => ?beyondSi, fun within => ?withinSi⟩⟩
  case short =>
    simp only [List.mem_cons, List.not_mem_nil, or_false] at mem
    rcases mem with rfl | rfl | rfl | rfl | rfl | rfl | rfl | rfl
    · exact exec_refused ableA (exec_eload g d ra s) (ergIssue_foreign foreign1)
    · exact exec_refused ableA (exec_ewire g d ra s) (ergIssue_foreign foreign1)
    · exact exec_refused ableA (exec_ethr g d ra s) (ergIssue_foreign foreign1)
    · exact exec_refused ableA (exec_exf g d ra s) (ergIssue_foreign foreign1)
    · exact exec_refused ableA (exec_epop g d ra s) (ergIssue_foreign foreign1)
    · exact exec_refused ableA (exec_exb g d ra s) (ergIssue_foreign foreign1)
    · exact exec_refused ableA (exec_esel g d ra s) (ergWords_foreign foreign1)
    · exact exec_refused able (exec_eeval g d ra rb s) (eeval_foreign foreign1)
  case long =>
    simp only [List.mem_cons, List.not_mem_nil, or_false] at mem
    rcases mem with rfl | rfl | rfl | rfl | rfl | rfl | rfl | rfl
    · exact exec_refused ableA (exec_eloadSi g d ra imm s) (ergIssue_foreign foreign2)
    · exact exec_refused ableA (exec_ewireSi g d ra imm s) (ergIssue_foreign foreign2)
    · exact exec_refused ableA (exec_ethrSi g d ra imm s) (ergIssue_foreign foreign2)
    · exact exec_refused ableA (exec_exfSi g d ra imm s) (ergIssue_foreign foreign2)
    · exact exec_refused ableA (exec_epopSi g d ra imm s) (ergIssue_foreign foreign2)
    · exact exec_refused ableA (exec_exbSi g d ra imm s) (ergIssue_foreign foreign2)
    · exact exec_refused able0 (exec_eselSi g d w t s) (ergWords_foreign foreign2)
    · exact exec_refused able0 (exec_eevalSi g d first cm1 s) (eeval_foreign foreign2)
  case descs =>
    simp only [List.mem_cons, List.not_mem_nil, or_false] at mem
    rcases mem with rfl | rfl | rfl | rfl | rfl | rfl | rfl | rfl | rfl | rfl | rfl | rfl
    · exact fun h desc => ergIssues_of_runSeq ableA (exec_eload g d ra s) own1 rfl
    · exact fun h desc => ergIssues_of_runSeq ableA (exec_eloadSi g d ra imm s) own2 rfl
    · exact fun h desc => ergIssues_of_runSeq ableA (exec_ewire g d ra s) own1 rfl
    · exact fun h desc => ergIssues_of_runSeq ableA (exec_ewireSi g d ra imm s) own2 rfl
    · exact fun h desc => ergIssues_of_runSeq ableA (exec_ethr g d ra s) own1 rfl
    · exact fun h desc => ergIssues_of_runSeq ableA (exec_ethrSi g d ra imm s) own2 rfl
    · exact fun h desc => ergIssues_of_runSeq ableA (exec_exf g d ra s) own1 rfl
    · exact fun h desc => ergIssues_of_runSeq ableA (exec_exfSi g d ra imm s) own2 rfl
    · exact fun h desc => ergIssues_of_runSeq ableA (exec_epop g d ra s) own1 rfl
    · exact fun h desc => ergIssues_of_runSeq ableA (exec_epopSi g d ra imm s) own2 rfl
    · exact fun h desc => ergIssues_of_runSeq ableA (exec_exb g d ra s) own1 rfl
    · exact fun h desc => ergIssues_of_runSeq ableA (exec_exbSi g d ra imm s) own2 rfl
  case esel =>
    have wiring : fld a1 0 2 = x % 4 := fld_zero a1 2
    rw [← wiring]
    exact ergPuts_of_runSeq ableA (exec_esel g d ra s) (ergWords_own own1)
  case eselSi => exact ergPuts_of_runSeq able0 (exec_eselSi g d w t s) (ergWords_own own2)
  case beyond => exact exec_refused able (exec_eeval g d ra rb s) (eeval_beyond own1 (low ▸ beyond))
  case within =>
    have stride : fld (q.getG rb) 0 13 = (q.getG rb).toNat % 8192 := fld_zero _ 13
    rw [← low, ← stride]
    exact ergPuts_of_runSeq able (exec_eeval g d ra rb s) (eeval_within own1 (low ▸ within))
  case beyondSi => exact exec_refused able0 (exec_eevalSi g d first cm1 s) (eeval_beyond own2 (last.symm ▸ beyond))
  case withinSi =>
    have puts := ergPuts_of_runSeq able0 (exec_eevalSi g d first cm1 s) (eeval_within own2 (Nat.le_trans (Nat.le_of_eq last) within))
    rw [fld_range_first, fld_range_count] at puts
    exact puts

end Sys2Proof
end

section
/-! The pipes of the Erg array: a command starts, has its effect, writes its record and leaves; the array is cleared, restored
and saved (10 R278, R280 to R282). -/
namespace Sys2Proof.Machine

theorem listUpd_append_length {α : Type} (pre post : List α) (x : α) (f : α → α) :
    listUpd (pre ++ x :: post) pre.length f = pre ++ f x :: post := by
  induction pre with
  | nil => rfl
  | cons y pre ih => exact congrArg (y :: ·) ih

/-! ### Commands by kind -/

/-- Only EPOP and EXB write bank bytes (R289, R290). -/
theorem ErgOp.writes_iff (op : ErgOp) : op.writes = true ↔ op = .epop ∨ op = .exb := by cases op <;> decide

/-- All commands but ESEL and EEVAL have a descriptor (R283). -/
theorem ErgOp.descs_iff (op : ErgOp) : op.descs = true ↔ op ≠ .esel ∧ op ≠ .eeval := by cases op <;> decide

/-- A command that writes bank bytes, or asks for a record, keeps its place at the head until its record stands (R282). -/
theorem ErgCmd.stays_iff (c : ErgCmd) : (c.op.writes || (c.op.descs && dCmpl c.desc)) = true ↔
    c.op = .epop ∨ c.op = .exb ∨ (c.op ≠ .esel ∧ c.op ≠ .eeval ∧ dCmpl c.desc = true) := by
  rw [Bool.or_eq_true, Bool.and_eq_true, ErgOp.writes_iff, ErgOp.descs_iff, or_assoc, and_assoc]

theorem ErgCmd.reads_of_leaves {c : ErgCmd} (leaves : ¬ (c.op.writes || (c.op.descs && dCmpl c.desc)) = true) :
    c.op.writes = false := by
  rw [Bool.or_eq_true, not_or] at leaves
  exact Bool.eq_false_iff.2 leaves.1

/-! ### The effect of a command on the banks it finds (R281) -/

section Effect
variable {ix : Nat} {rg : Region} {e : Erg} {c : ErgCmd}

/-- A command that writes no bank bytes leaves the region alone. -/
theorem ergEffect_rg (reads : c.op.writes = false) : (ergEffect ix rg e c).rg = rg := by rw [ergEffect, reads]; rfl

theorem ergEffect_esel (sel : c.op = .esel) :
    (ergEffect ix rg e c).e = { e with aw := (dw c.desc 0).toNat, at_ := (dw c.desc 1).toNat } := by
  simp [ergEffect, ErgWork.run, sel, ErgOp.writes]

/-- Where nothing was overwritten, an access sees the bank as it stands. -/
theorem bankSeen_of_bankOld_nil (alone : rg.bankOld = []) (erg : Bool) (t : Nat) : rg.bankSeen erg t ix = rg := by
  have none_ (f : Assoc Byte → OldByte → Assoc Byte) (b : Assoc Byte) : rg.bankOld.foldl f b = b := by
    rw [alone, List.foldl_nil]
  rw [Region.bankSeen, none_]

/-- Where nothing else wrote the banks meanwhile, a command has its effect on them as they stand. -/
theorem ergEffect_alone (alone : rg.bankOld = []) :
    ergEffect ix rg e c =
      let bare := ({ rg := rg, e := e } : ErgWork).run c
      { bare with rg := if c.op = .epop ∨ c.op = .exb then bare.rg else rg } := by
  simp only [ergEffect, bankSeen_of_bankOld_nil alone, alone, List.foldl_nil, c.op.writes_iff]
  split <;> rfl

end Effect

/-! ### The head of the queue -/

section Events
variable {s : State} {r : Nat} {rg : Region} {e : Erg} (array : s.ergOf r = some (rg, e))

theorem ergPop_of_head {c : ErgCmd} {rest : List ErgCmd} (head : rg.ergq.entries = c :: rest) :
    rg.ergPop = { rg with
      ergq := { rg.ergq with entries := rg.ergq.entries.tail }
      bankOld := rg.bankOld.filter (fun o =>
        if o.erg then rg.eqs.any (fun y => y.cmds.any (fun z => z.since ≤ o.at_)) else rest.any (·.started)) } := by
  simp only [Region.ergPop, head, List.tail_cons]

include array

/-- A pipe starts its first command that has not started, unless it is blocked (R280). -/
theorem ergCommandStart_eq {load : Bool} {pre post : List ErgCmd} {c : ErgCmd}
    (queue : rg.ergq.entries = pre ++ c :: post) (ahead : ∀ x ∈ pre, x.op.loads = load → x.started = true)
    (pipe : c.op.loads = load) (waits : c.started = false) (free : ergBlocked e pre c = false) :
    execErgCommandStart r load s = .next (s.setRg r { rg with
      ergq := { rg.ergq with entries := pre ++ { c with started := true, since := rg.bankStamp } :: post } }) := by
  have none_ : pre.findIdx? (fun c => c.op.loads = load && !c.started) = none := by
    rw [List.findIdx?_eq_none_iff]
    intro x mem
    by_cases same : x.op.loads = load
    · simp [ahead x mem same]
    · simp [same]
  have first : (pre ++ c :: post).findIdx? (fun c => c.op.loads = load && !c.started) = some pre.length := by
    simp [List.findIdx?_append, none_, List.findIdx?_cons, pipe, waits]
  simp only [execErgCommandStart, array, queue, first, List.getElem?_append_right (Nat.le_refl _),
    Nat.sub_self, List.getElem?_cons_zero, List.take_left, free, listUpd_append_length]
  rfl

section Head
variable {c : ErgCmd} {rest : List ErgCmd} (head : rg.ergq.entries = c :: rest) (started : c.started = true)
  (goes : c.paused = none) (remote : c.remote = none)
include head started goes remote

/-- The head command has its effect, and then stays or leaves; one that has had it writes its record, or leaves (R279,
R282). -/
theorem ergCommandComplete_eq :
    let w := ergEffect s.freeIx rg e c
    execErgCommandComplete r s = .next (c.word.elim
      ((s.setRg r (if c.op.writes || (c.op.descs && dCmpl c.desc) then w.rg.ergHead { c with word := some w.word }
        else w.rg.ergPop)).setErg rg.core w.e)
      (fun x => if dCmpl c.desc then s.ergRecord r rg c x else s.setRg r rg.ergPop)) := by
  have ready : ¬ (!c.started || c.paused.isSome || c.remote.isSome) = true := by simp [started, goes, remote]
  rw [execErgCommandComplete, array]
  dsimp only
  rw [head]
  dsimp only
  rw [if_neg ready]
  cases c.word <;> rfl

theorem ergCommandComplete_stays (word : c.word = none)
    (stays : (c.op.writes || (c.op.descs && dCmpl c.desc)) = true) :
    let w := ergEffect s.freeIx rg e c
    execErgCommandComplete r s =
      .next ((s.setRg r (w.rg.ergHead { c with word := some w.word })).setErg rg.core w.e) := by
  rw [ergCommandComplete_eq array head started goes remote, word, Option.elim_none, if_pos stays]

theorem ergCommandComplete_leaves (word : c.word = none)
    (leaves : ¬ (c.op.writes || (c.op.descs && dCmpl c.desc)) = true) :
    execErgCommandComplete r s = .next ((s.setRg r rg.ergPop).setErg rg.core (ergEffect s.freeIx rg e c).e) := by
  rw [ergCommandComplete_eq array head started goes remote, word, Option.elim_none, if_neg leaves,
    ergEffect_rg (ErgCmd.reads_of_leaves leaves)]

theorem ergCommandComplete_records {x : W64} (word : c.word = some x) (cmpl : dCmpl c.desc = true) :
    execErgCommandComplete r s = .next (s.ergRecord r rg c x) := by
  rw [ergCommandComplete_eq array head started goes remote, word, Option.elim_some, if_pos cmpl]

theorem ergCommandComplete_ends {x : W64} (word : c.word = some x) (bare : dCmpl c.desc = false) :
    execErgCommandComplete r s = .next (s.setRg r rg.ergPop) := by
  rw [ergCommandComplete_eq array head started goes remote, word, Option.elim_some, if_neg (Bool.eq_false_iff.1 bare)]

end Head
end Events

/-- A dword of the record is written where its address translates to: dword 1, and then the number as a release (R282,
R324). -/
theorem ergRecord_local {s : State} {r : Nat} {rg : Region} {c : ErgCmd} {x va : W64} {pa : Nat} {u : Bool}
    (there : (if c.half then dw c.desc 1 else dw c.desc 1 + 8) = va)
    (at_ : xlate s rg.core rg.ctx va .write = .ok (.loc pa u)) (awake : s.quiesced pa = false) :
    s.ergRecord r rg c x =
      (let cached := s.cache rg.core rg.ctx va
      let t := (if c.half then cached.bump r else cached).settle1 r pa u
      let w := t.write (t.keyOf rg.ctx) pa (leBytes 8 (if c.half then w64 c.seq else x).toNat)
      (if u then w else w.setTag (sectorOf pa) (w.tagOf r)).updRg r
        (fun rg => if c.half then rg.ergPop else rg.ergHead { c with half := true })) := by
  subst there
  rw [State.ergRecord]
  simp only [at_]
  exact if_neg (Bool.eq_false_iff.1 awake)

/-! ### The array of an owner (R278) -/

section Array
variable {t : State} {core r : Nat} {x : Region} {f : Erg} (at_ : (t.core core).erg = f) (owner : f.owner = some r)
  (region : t.rg? r = some x)

section Ready
include owner region

/-- An array that is ready is Owned, or is saved where its owner is being snapshotted. -/
theorem ergReady_eq : t.ergReady f = { f with st := if x.snap then .saving else .owned } := by
  rw [State.ergReady, owner, Option.bind_some, region]; rfl

include at_

theorem ergClearDone_eq (st : f.st = .clearing) :
    execErgClearDone core t = .next (t.setErg core { f with st := if x.snap then .saving else .owned }) := by
  rw [execErgClearDone, at_, ergReady_eq owner region]
  exact if_pos st

theorem ergRestoreDone_eq (st : f.st = .restoring) :
    execErgRestoreDone core t = .next (t.setErg core { f with st := if x.snap then .saving else .owned }) := by
  rw [execErgRestoreDone, at_, ergReady_eq owner region]
  exact if_pos st

end Ready

include at_ owner

theorem ergSaveDone_eq (st : f.st = .saving) (bad : Bool) :
    execErgSaveDone core bad t = .next ((t.setErg core {}).updRg r (fun y =>
      { y with ergImage := some { f with st := .free, owner := none }, imageBad := y.imageBad || bad || f.failed })) := by
  rw [execErgSaveDone, at_]
  dsimp only
  rw [if_neg (by simp [st]), owner]

end Array

end Sys2Proof.Machine

namespace Sys2Proof
open Machine

/-- Settles O46, event by event. -/
theorem ergEvents : Obligations.ErgEvents := by
  intro s r rg e array queue
  refine ⟨fun load pre post c is ahead pipe waits free => ergCommandStart_eq array is ahead pipe waits free,
    fun c rest head started goes remote => ?complete, fun t core r2 x f at_ owner region =>
      ⟨ergClearDone_eq at_ owner region, ergRestoreDone_eq at_ owner region, ergSaveDone_eq at_ owner⟩⟩
  case complete =>
    intro pop w bare recorded
    have left : rg.ergPop = pop rg := ergPop_of_head head
    refine ⟨fun alone => ?alone, fun sel word => ?sel, fun word notPop notXb noRecord => ?leaves,
      fun word record => ergCommandComplete_stays array head started goes remote word (c.stays_iff.2 record),
      fun x word noRecord => ?bare, fun x pa u word cmpl first at_ awake => ?first,
      fun x pa u word cmpl second at_ awake => ?second⟩
    case alone =>
      have is : w = { bare with rg := if c.op = .epop ∨ c.op = .exb then bare.rg else rg } := ergEffect_alone alone
      rw [is]
      exact ⟨rfl, rfl, rfl, rfl, rfl⟩
    case sel =>
      have leaves : ¬ (c.op.writes || (c.op.descs && dCmpl c.desc)) = true := by rw [ErgCmd.stays_iff]; simp [sel]
      rw [← left, ← ergEffect_esel (ix := s.freeIx) (rg := rg) sel]
      exact ergCommandComplete_leaves array head started goes remote word leaves
    case leaves =>
      have leaves : ¬ (c.op.writes || (c.op.descs && dCmpl c.desc)) = true := by
        rw [ErgCmd.stays_iff]
        rcases noRecord with sel | eval | none_
        · simp [sel]
        · simp [eval]
        · simp [notPop, notXb, none_]
      have kept : w.rg = rg := ergEffect_rg (ErgCmd.reads_of_leaves leaves)
      rw [kept, ← left]
      exact ergCommandComplete_leaves array head started goes remote word leaves
    case bare =>
      rw [← left]
      exact ergCommandComplete_ends array head started goes remote word noRecord
    case first =>
      rw [exec_ergCommandComplete, ergCommandComplete_records array head started goes remote word cmpl,
        ergRecord_local (by rw [first]; rfl) at_ awake, first]
      rfl
    case second =>
      rw [exec_ergCommandComplete, ergCommandComplete_records array head started goes remote word cmpl,
        ergRecord_local (by rw [second]; rfl) at_ awake, second]
      rfl

end Sys2Proof
end

section
/-! The Barchan tasks: the end of a task, the children of an epoch, and merges that are tried again (11 R312). -/
namespace Sys2Proof.Machine

/-- The last place of a range where a test holds. -/
theorem getLast?_filter_range {t : Nat → Bool} {n k : Nat} (inside : k < n) (holds : t k = true)
    (last : ∀ j, k < j → j < n → t j = false) : ((List.range n).filter t).getLast? = some k := by
  induction n with
  | zero => exact absurd inside (Nat.not_lt_zero k)
  | succ n ih =>
    rw [List.range_succ, List.filter_append]
    by_cases at_ : k = n
    · subst at_
      simp [holds]
    · have before : k < n := by omega
      simp [last n before (Nat.lt_succ_self n), ih before (fun j after within => last j after (by omega))]

theorem TaskState.settled_iff (x : TaskState) : x.settled = true ↔ x = .merged ∨ x = .discarded := by
  cases x <;> decide

/-! ### The Pending children of an epoch -/

theorem lastPending_none {e : Epoch} (none_ : ∀ c ∈ e.children, c.st ≠ .pending) : e.lastPending = none := by
  rw [Epoch.lastPending, List.getLast?_eq_none_iff, List.filter_eq_nil_iff]
  intro i mem
  have inside : i < e.children.length := List.mem_range.1 mem
  simp [inside, none_ _ (List.getElem_mem inside)]

theorem lastPending_some {e : Epoch} {k : Nat} {c : Child} (at_ : e.children[k]? = some c) (pending : c.st = .pending)
    (last : ∀ j x, k < j → e.children[j]? = some x → x.st ≠ .pending) : e.lastPending = some k := by
  obtain ⟨inside, -⟩ := List.getElem?_eq_some_iff.1 at_
  refine getLast?_filter_range inside (by simp [at_, pending]) (fun j after within => ?_)
  have other := last j _ after (List.getElem?_eq_getElem within)
  simp [within, other]

/-! ### What the instructions do -/

section Tasks
variable {s : State} {r pg : Nat} {rg : Region} {q : Seq} {g : Guard} {p : PReg} {d a : Reg}

@[simp] theorem drained_rg (v : Run) : v.drained.rg = v.rg := rfl
@[simp] theorem drained_lead (v : Run) : v.drained.lead = v.lead := rfl
theorem runAt_lead (s : State) (r pg : Nat) (rg : Region) (q : Seq) (n : Nat) :
    (runAt s r pg rg q n).lead = decide (pg = 0) := rfl
theorem drained_getG (v : Run) (a : Reg) : v.drained.q.getG a = v.q.getG a := rfl

theorem tsync_goes (lead : pg = 0) (noMerge : rg.task.epoch.fm = .none) :
    ¬ (!(runAt s r pg rg q 1).drained.lead || rg.task.epoch.fm != .none) = true := by
  simp [runAt_lead, lead, noMerge]

theorem tendChild_goes {c : Child} (lead : pg = 0) (at_ : rg.task.epoch.children[(q.getG a).toNat]? = some c)
    (taken : c.st = .taken) : ¬ (!(runAt s r pg rg q 1).drained.lead ||
    ((runAt s r pg rg q 1).drained.rg.task.epoch.children[((runAt s r pg rg q 1).drained.q.getG a).toNat]?).elim true
      (fun c => c.st != .taken)) = true := by
  rw [drained_getG, runAt_q, past_getG, drained_rg, runAt_rg, at_]
  simp [runAt_lead, lead, taken]

section End
variable (able : Able s r pg rg q g [])
include able

/-- A task with an open epoch does not end, and no page but the lead ends one (R312). -/
theorem tend_refused (cannot : pg ≠ 0 ∨ rg.task.epoch.children ≠ [] ∨ rg.task.epoch.fm ≠ .none) :
    let v := (runAt s r pg rg q 1).drained
    exec (.tend g p) s = .next (v.set (v.q.setP p false)) :=
  (exec_tend g p s).trans (runSeq_ok able (if_pos (by simpa [runAt_lead, or_assoc] using cannot)))

theorem tend_ends (lead : pg = 0) (closed : rg.task.epoch.children = []) (noMerge : rg.task.epoch.fm = .none) :
    let v := (runAt s r pg rg q 1).drained
    exec (.tend g p) s = .next (v.setIn (v.s.updRg r (fun x =>
      { x with task := { x.task with ended := x.task.ended || x.task.parent.isSome } })) (v.q.setP p true)) :=
  (exec_tend g p s).trans (runSeq_ok able (if_neg (by simp [runAt_lead, lead, closed, noMerge])))

theorem tsync_refused (cannot : pg ≠ 0 ∨ rg.task.epoch.fm ≠ .none) :
    let v := (runAt s r pg rg q 1).drained
    exec (.tsync g p) s = .next (v.set (v.q.setP p false)) :=
  (exec_tsync g p s).trans (runSeq_ok able (if_pos (by simpa [runAt_lead] using cannot)))

section Sync
variable (lead : pg = 0) (noMerge : rg.task.epoch.fm = .none)
include lead noMerge

/-- TSYNC of an epoch without children is an acquire of everything (R312). -/
theorem tsync_acquires (empty : rg.task.epoch.children = []) :
    let v := (runAt s r pg rg q 1).drained
    exec (.tsync g p) s = .next (v.setIn (v.s.acquireAll r) (v.q.setP p true)) :=
  (exec_tsync g p s).trans (runSeq_ok able
    ((if_neg (tsync_goes lead noMerge)).trans (if_pos (List.isEmpty_iff.2 empty))))

/-- TSYNC waits for the children: it is false while one is neither Merged nor Discarded (R312). -/
theorem tsync_waits (waits : ∃ c ∈ rg.task.epoch.children, c.st ≠ .merged ∧ c.st ≠ .discarded) :
    let v := (runAt s r pg rg q 1).drained
    exec (.tsync g p) s = .next (v.set (v.q.setP p false)) := by
  obtain ⟨c, mem, unsettled⟩ := waits
  have some_ : ¬ rg.task.epoch.children.isEmpty = true := fun none_ => by simp [List.isEmpty_iff.1 none_] at mem
  have any : rg.task.epoch.children.any (fun c => !c.st.settled) = true :=
    List.any_eq_true.2 ⟨c, mem, by simpa [Bool.eq_false_iff, TaskState.settled_iff] using unsettled⟩
  exact (exec_tsync g p s).trans (runSeq_ok able
    ((if_neg (tsync_goes lead noMerge)).trans ((if_neg some_).trans (if_pos any))))

/-- Once every child is settled TSYNC asks for the final merge (R312). -/
theorem tsync_merges (some_ : rg.task.epoch.children ≠ [])
    (settled : ∀ c ∈ rg.task.epoch.children, c.st = .merged ∨ c.st = .discarded) :
    let v := (runAt s r pg rg q 1).drained
    exec (.tsync g p) s = .next (v.setIn (v.s.updRg r (fun x => x.setEpoch { x.task.epoch with fm := .running }))
      (v.q.setP p false)) := by
  have all : ¬ rg.task.epoch.children.any (fun c => !c.st.settled) = true := by
    simp only [List.any_eq_true, Bool.not_eq_true']
    rintro ⟨c, mem, unsettled⟩
    exact Bool.eq_false_iff.1 unsettled ((TaskState.settled_iff c.st).2 (settled c mem))
  exact (exec_tsync g p s).trans (runSeq_ok able ((if_neg (tsync_goes lead noMerge)).trans
    ((if_neg (mt List.isEmpty_iff.1 some_)).trans (if_neg all))))

end Sync

/-- TSYNC.TAKE of an epoch with no Pending child is refused with 6 (R312). -/
theorem tsyncTake_refused (cannot : pg ≠ 0 ∨ ∀ c ∈ rg.task.epoch.children, c.st ≠ .pending) :
    let v := (runAt s r pg rg q 1).drained
    exec (.tsyncTake g d) s = .next (v.set (v.q.setG d (refused 6))) := by
  have none_ : (if (runAt s r pg rg q 1).drained.lead then rg.task.epoch.lastPending else none) = none := by
    by_cases lead : pg = 0
    · rw [lastPending_none (cannot.resolve_left (not_not.2 lead)), ite_self]
    · exact if_neg (by simp [runAt_lead, lead])
  refine (exec_tsyncTake g d s).trans (runSeq_ok able ?_)
  dsimp only [drained_rg, runAt_rg]
  rw [none_]
  rfl

/-- TSYNC.TAKE takes the last Pending child, its bank views in the parent's own banks (R312). -/
theorem tsyncTake_takes {k : Nat} {c : Child} (lead : pg = 0) (at_ : rg.task.epoch.children[k]? = some c)
    (pending : rg.task.epoch.lastPending = some k) :
    let v := (runAt s r pg rg q 1).drained
    exec (.tsyncTake g d) s = .next (v.setIn ((v.s.updChild r k (fun c => { c with st := .taken })).updRg r (fun x =>
      c.views.foldl (fun (x : Region) (w : Nat × View) => x.fillBank w.2) x)) (v.q.setG d (w64 k))) := by
  have some_ : (if (runAt s r pg rg q 1).drained.lead then rg.task.epoch.lastPending else none) = some k :=
    (if_pos (decide_eq_true lead)).trans pending
  refine (exec_tsyncTake g d s).trans (runSeq_ok able ?_)
  dsimp only [drained_rg, runAt_rg]
  rw [some_]
  dsimp only
  rw [at_]
  rfl

end End

section Child
variable (able : Able s r pg rg q g [a])
include able

/-- TEND.CHILD ends a Taken child only (R312). -/
theorem tendChild_refused
    (cannot : pg ≠ 0 ∨ ∀ c, rg.task.epoch.children[(q.getG a).toNat]? = some c → c.st ≠ .taken) :
    let v := (runAt s r pg rg q 1).drained
    exec (.tendChild g p a) s = .next (v.set (v.q.setP p false)) := by
  refine (exec_tendChild g p a s).trans (runSeq_ok able (if_pos ?_))
  rw [drained_lead, runAt_lead, drained_getG, runAt_q, past_getG, drained_rg, runAt_rg, Bool.or_eq_true]
  refine cannot.imp (fun other => by simp [other]) (fun none_ => ?_)
  cases at_ : rg.task.epoch.children[(q.getG a).toNat]? with
  | none => rfl
  | some c => simp [none_ c at_]

section Taken
variable {c : Child} (lead : pg = 0) (at_ : rg.task.epoch.children[(q.getG a).toNat]? = some c) (taken : c.st = .taken)
include lead at_ taken

theorem tendChild_ends (noRemote : q.remotes = []) :
    let v := (runAt s r pg rg q 1).drained
    exec (.tendChild g p a) s = .next
      (v.setIn (v.s.updChild r (q.getG a).toNat (fun c => { c with st := .ended })) (v.q.setP p true)) :=
  (exec_tendChild g p a s).trans (runSeq_ok able ((if_neg (tendChild_goes lead at_ taken)).trans
    (if_neg (by simp [Run.drained, past, noRemote]))))

/-- Remote accesses are awaited: the instruction executes again (R312). -/
theorem tendChild_awaits (remote : q.remotes ≠ []) :
    let v := (runAt s r pg rg q 1).drained
    exec (.tendChild g p a) s = .next (v.set { v.q with pc := q.pc, wait := some (.fenceSys q.remotes) }) :=
  (exec_tendChild g p a s).trans (runSeq_ok able ((if_neg (tendChild_goes lead at_ taken)).trans
    (if_pos (by simp [Run.drained, past, remote]))))

end Taken

end Child
end Tasks

/-! ### A merge that is tried again -/

theorem tresume_none {p : PReg} {t : W64} {skip : Bool} {v : Run} (none_ : v.drained.s.faultedMerge v.rg.ctx t = none) :
    v.tresume p t skip = v.drained.set (v.drained.q.setP p false) := by
  rw [Run.tresume]
  dsimp only [drained_rg]
  rw [none_]

/-- The merge goes on, and waits on no record of before (R441). -/
theorem tresume_some {p : PReg} {t : W64} {skip : Bool} {v : Run} {k : Nat} {x : Region} {m : Merge}
    (found : v.drained.s.faultedMerge v.rg.ctx t = some (k, x, m)) :
    v.tresume p t skip =
      let u := v.drained.s.updRg k (fun y => y.resumeMerge m skip)
      v.setIn (m.rec_.elim u (fun id => u.leave id (waiterOf k .merge { cause := 3 }))) (v.drained.q.setP p true) := by
  rw [Run.tresume]
  dsimp only [drained_rg]
  rw [found]
  rfl

end Sys2Proof.Machine

namespace Sys2Proof
open Machine

/-- Settles O35, instruction by instruction. -/
theorem taskControl : Obligations.TaskControl := by
  intro s r pg rg q g p d ra able v q1 e i res setFlag
  have able0 : Able s r pg rg q g [] := able_of_subset able (List.nil_subset _)
  refine ⟨tend_refused able0, tend_ends able0, tendChild_refused able, fun c lead at_ taken =>
      ⟨tendChild_ends able lead at_ taken, tendChild_awaits able lead at_ taken⟩,
    tsync_refused able0, tsync_acquires able0, tsync_waits able0, tsync_merges able0, tsyncTake_refused able0,
    fun k c lead at_ pending last => tsyncTake_takes able0 lead at_ (lastPending_some at_ pending last),
    fun none_ => ⟨?_, ?_⟩, fun k x m found => ?_⟩
  · exact (exec_tresume g p ra s).trans (runSeq_total able (tresume_none none_))
  · exact (exec_tresumeSkip g p ra s).trans (runSeq_total able (tresume_none none_))
  · intro go
    have resumes (skip : Bool) :
        (runAt s r pg rg q 1).tresume p (q.getG ra) skip = (go skip).setSeq r pg (q1.setP p true) := by
      rw [tresume_some found]
      cases rec_ : m.rec_ <;> simp only [go, rec_] <;> rfl
    exact ⟨(exec_tresume g p ra s).trans (runSeq_total able (resumes false)),
      (exec_tresumeSkip g p ra s).trans (runSeq_total able (resumes true))⟩

end Sys2Proof
end

section
/-! SPAWN, cause by cause, and the declaration of a view (11 R310, R311). -/
namespace Sys2Proof.Machine

theorem elim_zero_eq {α : Type} (o : Option α) (f : α → Nat) : o.elim 0 f = (o.map f).getD 0 := by cases o <;> rfl

/-! ### SPAWN (R310) -/

/-- The last of SPAWN: the places of the child's views, and the child. -/
def Run.spawnViews (v : Run) (p : PReg) (d : List W64) (vs : List (Nat × View)) : Except TrapRec State :=
  if 1024 < v.s.entriesOf v.rg.core +
      (vs.length + (vs.filter (fun (e : Nat × View) => (v.rg.task.epoch.accs.find e.1).isNone)).length) then v.spawnFail p 3
  else match makeViews v.s v.rg (bit (dw d 2) 23) (fld (dw d 2) 0 23) vs with
    | none => v.spawnFail p 3
    | some m => .ok (v.spawnChild p d m)

/-- SPAWN once its descriptor is found good: the causes that look at the epoch and at the entries of the core. -/
def Run.spawnGood (v : Run) (p : PReg) (d : List W64) (vs : List (Nat × View)) : Except TrapRec State :=
  if v.rg.task.epoch.fm != .none then v.spawnFail p 4
  else if 4096 ≤ v.rg.task.epoch.children.length || 63 ≤ v.rg.task.depth then v.spawnFail p 5
  else if 256 ≤ v.s.pendingOn v.rg.core none then v.spawnFail p 1
  else if ((v.s.ctx? v.rg.ctx).elim 0 (·.spq)) ≤ v.s.pendingOn v.rg.core (some v.rg.ctx) then v.spawnFail p 2
  else v.spawnViews p d vs

/-- A descriptor that SPAWN refuses before KDESC is read (R310, cause 6). -/
def Run.spawnBad (v : Run) (d : List W64) : Prop :=
  namedViews v.rg.task ((dw d 2).toNat / 2 ^ 48) = none ∨ v.pg ≠ 0 ∨ (dw d 2).toNat / 2 ^ 24 % 2 ^ 24 ≠ 0 ∨ dw d 3 ≠ 0

/-- The highest field of a word. -/
theorem fld_top (x : W64) : fld x 48 16 = x.toNat / 2 ^ 48 :=
  Nat.mod_eq_of_lt (Nat.div_lt_of_lt_mul x.isLt)

section Spawn
variable {v : Run} {p : PReg} {a : W64} {d : List W64}

theorem spawnBad_iff : (!v.lead || fld (dw d 2) 24 24 != 0 || dw d 3 != 0) = true ↔
    v.pg ≠ 0 ∨ (dw d 2).toNat / 2 ^ 24 % 2 ^ 24 ≠ 0 ∨ dw d 3 ≠ 0 := by
  simp [Run.lead, fld, or_assoc]

section Descriptor
variable (read : v.readDws a 4 = .ok d)
include read

theorem spawn_bad (bad : v.spawnBad d) : v.spawn p a = v.drained.spawnFail p 6 := by
  rw [Run.spawn, read]
  dsimp only
  rw [fld_top, drained_rg, drained_lead]
  cases named : namedViews v.rg.task ((dw d 2).toNat / 2 ^ 48) with
  | none => rfl
  | some vs => exact if_pos (spawnBad_iff.2 (bad.resolve_left (by rw [named]; exact nofun)))

/-- A descriptor that passes these tests has VBANK checked, for which KDESC may be read. -/
theorem spawn_checked {vb : Bool} {vs : List (Nat × View)} (good : ¬ v.spawnBad d)
    (named : namedViews v.rg.task ((dw d 2).toNat / 2 ^ 48) = some vs) (bank : v.drained.vbankBad d = .ok vb) :
    v.spawn p a = if vb then v.drained.spawnFail p 6 else v.drained.spawnGood p d vs := by
  rw [Run.spawn, read]
  dsimp only
  rw [fld_top, drained_rg, drained_lead, named]
  dsimp only
  rw [if_neg (fun bad => good (.inr (spawnBad_iff.1 bad))), bank]
  rfl

end Descriptor

section Good
variable {vs : List (Nat × View)}

section Epoch
variable (free : v.rg.task.epoch.fm = .none)
include free

theorem spawnGood_limit (limit : 4096 ≤ v.rg.task.epoch.children.length ∨ 63 ≤ v.rg.task.depth) :
    v.spawnGood p d vs = v.spawnFail p 5 := by
  rw [Run.spawnGood, if_neg (by simp [free]), if_pos (by simpa using limit)]

variable (few : v.rg.task.epoch.children.length < 4096) (shallow : v.rg.task.depth < 63)
include few shallow

theorem spawnGood_full (full : 256 ≤ v.s.pendingOn v.rg.core none) : v.spawnGood p d vs = v.spawnFail p 1 := by
  rw [Run.spawnGood, if_neg (by simp [free]), if_neg (by simp [few, shallow]), if_pos full]

variable (room : v.s.pendingOn v.rg.core none < 256)
include room

theorem spawnGood_quota
    (spent : ((v.s.ctx? v.rg.ctx).map (·.spq)).getD 0 ≤ v.s.pendingOn v.rg.core (some v.rg.ctx)) :
    v.spawnGood p d vs = v.spawnFail p 2 := by
  rw [Run.spawnGood, if_neg (by simp [free]), if_neg (by simp [few, shallow]), if_neg (Nat.not_le.2 room), elim_zero_eq,
    if_pos spent]

theorem spawnGood_views
    (within : v.s.pendingOn v.rg.core (some v.rg.ctx) < ((v.s.ctx? v.rg.ctx).map (·.spq)).getD 0) :
    v.spawnGood p d vs = v.spawnViews p d vs := by
  rw [Run.spawnGood, if_neg (by simp [free]), if_neg (by simp [few, shallow]), if_neg (Nat.not_le.2 room), elim_zero_eq,
    if_neg (Nat.not_le.2 within)]

end Epoch

section Views
variable (entries : v.s.entriesOf v.rg.core +
    (vs.length + (vs.filter (fun (e : Nat × View) => (v.rg.task.epoch.accs.find e.1).isNone)).length) ≤ 1024)
include entries

theorem spawnViews_none (noPlace : makeViews v.s v.rg (bit (dw d 2) 23) (fld (dw d 2) 0 23) vs = none) :
    v.spawnViews p d vs = v.spawnFail p 3 := by
  rw [Run.spawnViews, if_neg (Nat.not_lt.2 entries), noPlace]

theorem spawnViews_some {m : Making} (made : makeViews v.s v.rg (bit (dw d 2) 23) (fld (dw d 2) 0 23) vs = some m) :
    v.spawnViews p d vs = .ok (v.spawnChild p d m) := by
  rw [Run.spawnViews, if_neg (Nat.not_lt.2 entries), made]

end Views
end Good
end Spawn

/-! ### VDECL (R311) -/

/-- The number a view gets: the one given, or the lowest, where it is not in use. -/
def Run.viewNumber (v : Run) (vid : Option Nat) : Option Nat :=
  match vid with
  | some x => if (v.rg.task.views.find x).isSome then none else some x
  | none => (List.range 16).find? (fun x => (v.rg.task.views.find x).isNone)

/-- The declared view `w` is bound to number `x`. -/
def Run.bindView (v : Run) (rd : Reg) (s : State) (x : Nat) (w : View) : Except TrapRec State :=
  .ok (v.setIn (s.updRg v.r (fun rg => { rg with task := { rg.task with views := rg.task.views.put x w } }))
    (v.q.setG rd (w64 x)))

/-- The last of VDECL: an entry, and for a custom operator a page. -/
def Run.declareView (v : Run) (rd : Reg) (custom : Prop) [Decidable custom] (w : View) (x : Nat) : Except TrapRec State :=
  if 1024 ≤ v.s.entriesOf v.rg.core then v.refuse rd 4
  else if !decide custom then v.bindView rd v.s x w
  else match (if (v.s.ctx? v.rg.ctx).elim 0 (·.pageq) ≤ v.s.pagesOf v.rg.ctx then none
      else v.s.bestRun (List.range coreCount) 1) with
    | none => v.refuse rd 4
    | some (c, k) => v.bindView rd ((v.s.holdPage c k .reserved v.r v.rg).wakeCore c) x { w with page := some (c, k) }

/-- The view of a descriptor over a tile (R297). -/
def declaredView (l : List W64) (tile : W64) (blk : Option Block) : View :=
  { d0 := dw l 0, ident := dw l 1, cblk := dw l 2
    loc := if fld (dw l 0) 48 4 = 12 then .fibre tile else .flat tile, oper := blk }

section Number
variable {v : Run}

theorem viewNumber_none {vid : Option Nat} (taken : (∃ x, vid = some x ∧ (v.rg.task.views.find x).isSome = true) ∨
    (vid = none ∧ ∀ x < 16, (v.rg.task.views.find x).isSome = true)) : v.viewNumber vid = none := by
  rcases taken with ⟨x, rfl, used⟩ | ⟨rfl, used⟩
  · exact if_pos used
  · refine List.find?_eq_none.2 (fun x mem => ?_)
    rw [Option.isNone_iff_eq_none, ← Option.not_isSome_iff_eq_none, not_not]
    exact used x (List.mem_range.1 mem)

theorem viewNumber_some {vid : Option Nat} {x : Nat} (free : (vid = some x ∧ ¬ (v.rg.task.views.find x).isSome = true) ∨
    (vid = none ∧ x < 16 ∧ ¬ (v.rg.task.views.find x).isSome = true ∧
      ∀ y < x, (v.rg.task.views.find y).isSome = true)) : v.viewNumber vid = some x := by
  rcases free with ⟨rfl, unused⟩ | ⟨rfl, inside, unused, lower⟩
  · exact if_neg unused
  · refine List.find?_range_eq_some.2 ⟨by simpa using unused, List.mem_range.2 inside, fun y below => ?_⟩
    simp [lower y below]

end Number

theorem vdecl_fits {l : List W64} {blk : Option Block} (fits : fld (dw l 0) 48 4 ≠ 13 ∨ blk ≠ none) :
    ¬ (fld (dw l 0) 48 4 = 13 && blk.isNone) = true := by
  rw [Bool.and_eq_true, decide_eq_true_eq, Option.isNone_iff_eq_none, not_and_or]
  exact fits

section Declare
variable {v : Run} {rd : Reg} {a tile : W64} {vid : Option Nat}

theorem vdecl_foreign (notLead : v.pg ≠ 0) : v.vdecl rd a tile vid = v.refuse rd 5 :=
  if_pos (by simpa [Run.lead] using notLead)

section Lead
variable (lead : v.pg = 0)
include lead

theorem vdecl_open (open_ : v.rg.task.epoch.children ≠ [] ∨ v.rg.task.epoch.fm ≠ .none) :
    v.vdecl rd a tile vid = v.refuse rd 6 :=
  (if_neg (by simp [Run.lead, lead])).trans (if_pos (by simpa using open_))

variable (empty : v.rg.task.epoch.children = []) (free : v.rg.task.epoch.fm = .none)
include empty free

theorem vdecl_misaligned (bad : a.toNat % 8 ≠ 0) : v.vdecl rd a tile vid = v.refuse rd 2 :=
  (if_neg (by simp [Run.lead, lead])).trans ((if_neg (by simp [empty, free])).trans (if_pos (bne_iff_ne.2 bad)))

variable (aligned : a.toNat % 8 = 0) {l : List W64} (read : v.readDws a 4 = .ok l)
include aligned read

theorem vdecl_badDesc (bad : viewDescBad l = true ∨ v.vdeclDesc l tile = true) :
    v.vdecl rd a tile vid = v.refuse rd 2 := by
  unfold Run.vdecl
  dsimp only
  rw [if_neg (by simp [Run.lead, lead]), if_neg (by simp [empty, free]), if_neg (by simp [aligned]), read]
  exact if_pos (Bool.or_eq_true .. ▸ bad)

variable (good : viewDescBad l = false) (target : v.vdeclDesc l tile = false)
  {blk : Option Block} (operator : (fld (dw l 0) 48 4 ≠ 13 ∧ blk = none) ∨
    (fld (dw l 0) 48 4 = 13 ∧ v.operator (fld (dw l 0) 40 8) (dw l 2) = .ok blk))
include good target operator

theorem vdecl_read : v.vdecl rd a tile vid = if fld (dw l 0) 48 4 = 13 && blk.isNone then v.refuse rd 2
    else match v.viewNumber vid with
      | none => v.refuse rd 3
      | some x => v.declareView rd (fld (dw l 0) 48 4 = 13) (declaredView l tile blk) x := by
  have block : (if fld (dw l 0) 48 4 = 13 then v.operator (fld (dw l 0) 40 8) (dw l 2) else .ok none) = .ok blk := by
    rcases operator with ⟨plain, rfl⟩ | ⟨custom, is⟩
    · exact if_neg plain
    · exact (if_pos custom).trans is
  unfold Run.vdecl
  dsimp only
  rw [if_neg (by simp [Run.lead, lead]), if_neg (by simp [empty, free]), if_neg (by simp [aligned]), read]
  dsimp only
  rw [if_neg (by simp [good, target]), block]
  rfl

/-- An image that is no operator is refused (R311). -/
theorem vdecl_noOperator (custom : fld (dw l 0) 48 4 = 13) (none_ : blk = none) :
    v.vdecl rd a tile vid = v.refuse rd 2 :=
  (vdecl_read lead empty free aligned read good target operator).trans (if_pos (by simp [custom, none_]))

variable (fits : fld (dw l 0) 48 4 ≠ 13 ∨ blk ≠ none)
include fits

theorem vdecl_noNumber (taken : v.viewNumber vid = none) : v.vdecl rd a tile vid = v.refuse rd 3 :=
  (vdecl_read lead empty free aligned read good target operator).trans ((if_neg (vdecl_fits fits)).trans (by rw [taken]))

theorem vdecl_declares {x : Nat} (number : v.viewNumber vid = some x) : v.vdecl rd a tile vid =
    v.declareView rd (fld (dw l 0) 48 4 = 13) (declaredView l tile blk) x :=
  (vdecl_read lead empty free aligned read good target operator).trans ((if_neg (vdecl_fits fits)).trans (by rw [number]))

end Lead
end Declare

section Bind
variable {v : Run} {rd : Reg} {custom : Prop} [Decidable custom] {w : View} {x : Nat}

theorem declareView_full (full : 1024 ≤ v.s.entriesOf v.rg.core) : v.declareView rd custom w x = v.refuse rd 4 :=
  if_pos full

variable (room : v.s.entriesOf v.rg.core < 1024)
include room

theorem declareView_plain (plain : ¬ custom) : v.declareView rd custom w x = v.bindView rd v.s x w := by
  rw [Run.declareView, if_neg (Nat.not_le.2 room), if_pos (by simp [plain])]

variable (operator : custom)
include operator

theorem declareView_noPage (none_ : ((v.s.ctx? v.rg.ctx).map (·.pageq)).getD 0 ≤ v.s.pagesOf v.rg.ctx ∨
    v.s.bestRun (List.range coreCount) 1 = none) : v.declareView rd custom w x = v.refuse rd 4 := by
  rw [Run.declareView, if_neg (Nat.not_le.2 room), if_neg (by simp [operator]), elim_zero_eq]
  rcases none_ with spent | noRun
  · rw [if_pos spent]
  · rw [noRun, ite_self]

theorem declareView_page {c k : Nat} (within : v.s.pagesOf v.rg.ctx < ((v.s.ctx? v.rg.ctx).map (·.pageq)).getD 0)
    (run : v.s.bestRun (List.range coreCount) 1 = some (c, k)) : v.declareView rd custom w x =
      v.bindView rd ((v.s.holdPage c k .reserved v.r v.rg).wakeCore c) x { w with page := some (c, k) } := by
  rw [Run.declareView, if_neg (Nat.not_le.2 room), if_neg (by simp [operator]), elim_zero_eq,
    if_neg (Nat.not_le.2 within), run]

end Bind
end Sys2Proof.Machine

namespace Sys2Proof
open Machine

/-- Settles O34: SPAWN cause by cause, and VDECL refusal by refusal. -/
theorem spawnAndDeclare : Obligations.SpawnAndDeclare := by
  intro s r pg rg q g p d ra rb imm vid able t
  refine ⟨fun n a i form k arg w2 w3 read => ?spawn, fun n num i form => ?declare⟩
  case spawn =>
    intro v q1 fail bad0 quota
    have ableA : Able s r pg rg q g [ra] := able_of_subset able (by simp)
    have means {x : State} (gives : (runAt s r pg rg q n).spawn p a = .ok x) : exec i s = .next x := by
      rcases form with ⟨rfl, rfl, rfl⟩ | ⟨rfl, rfl, rfl⟩
      · exact (exec_spawn g p ra s).trans (runSeq_ok ableA gives)
      · exact (exec_spawnSi g p ra imm s).trans (runSeq_ok ableA gives)
    have fails {f : Nat} (gives : (runAt s r pg rg q n).spawn p a = v.spawnFail p f) : fail f := means gives
    refine ⟨fun bad => fails (spawn_bad read bad), fun vb good bank => ?_⟩
    obtain ⟨vs, named⟩ : ∃ vs, namedViews t (w2.toNat / 2 ^ 48) = some vs :=
      Option.ne_none_iff_exists'.1 (fun none_ => good (.inl none_))
    have checked := spawn_checked (p := p) read good named bank
    have passes (ok : ¬ vb = true) := checked.trans (if_neg ok)
    refine ⟨fun bad => fails (checked.trans (if_pos bad)),
      fun ok merging => fails ((passes ok).trans (if_pos (bne_iff_ne.2 merging))),
      fun ok free limit => fails ((passes ok).trans (spawnGood_limit free limit)), fun ok free few shallow =>
      ⟨fun full => fails ((passes ok).trans (spawnGood_full free few shallow full)),
        fun room spent => fails ((passes ok).trans (spawnGood_quota free few shallow room spent)),
        fun room within vs' named' => ?_⟩⟩
    obtain rfl : vs = vs' := Option.some.inj (named.symm.trans named')
    intro need made
    have views := (passes ok).trans (spawnGood_views free few shallow room within)
    have place : makeViews v.s rg (bit w2 23) (fld w2 0 23) vs = made := by rw [fld_zero]; rfl
    exact ⟨fun full => fails (views.trans (if_pos full)),
      fun entries none_ => fails (views.trans (spawnViews_none entries (place.trans none_))),
      fun entries m some_ => means (views.trans (spawnViews_some entries (place.trans some_)))⟩
  case declare =>
    intro v a tile no used
    have means {x : State} (gives : v.vdecl d a tile num = .ok x) : exec i s = .next x := by
      rcases form with ⟨rfl, rfl, rfl⟩ | ⟨rfl, rfl, rfl⟩
      · exact (exec_vdecl g d ra rb s).trans (runSeq_ok able gives)
      · exact (exec_vdeclSi g d ra rb vid s).trans (runSeq_ok able gives)
    have refuses {c : Nat} (gives : v.vdecl d a tile num = v.refuse d c) : no c := means (gives.trans (refuse_eq n c d))
    refine ⟨fun foreign => refuses (vdecl_foreign foreign), fun lead open_ => refuses (vdecl_open lead open_),
      fun lead empty free bad => refuses (vdecl_misaligned lead empty free bad), fun lead empty free aligned l read => ?_⟩
    intro op bind quota
    have code : fld (dw l 0) 48 4 = op := by rw [dw_zero]; rfl
    refine ⟨fun bad => refuses (vdecl_badDesc lead empty free aligned read bad), ?_⟩
    intro blk good target operator new
    have is : declaredView l tile blk = new := by rw [declaredView, code]; rfl
    rw [← code] at operator
    refine ⟨fun custom none_ => refuses (vdecl_noOperator lead empty free aligned read good target operator
      (code.trans custom) none_), fun fits => ?_⟩
    rw [← code] at fits
    refine ⟨fun taken => refuses (vdecl_noNumber lead empty free aligned read good target operator fits
      (viewNumber_none taken)), fun x unused => ?_⟩
    have declares : v.vdecl d a tile num = v.declareView d (op = 13) new x := by
      rw [vdecl_declares lead empty free aligned read good target operator fits (viewNumber_some unused), is]
      simp only [code]
    exact ⟨fun full => refuses (declares.trans (declareView_full full)),
      fun room plain => means (declares.trans (declareView_plain room plain)),
      fun room custom => ⟨fun none_ => refuses (declares.trans (declareView_noPage room custom none_)),
        fun c k within run => means (declares.trans (declareView_page room custom within run))⟩⟩

end Sys2Proof
end

section
/-! What TINFO reports of a task and of a child (11 R313). -/
namespace Sys2Proof.Machine

/-! ### The fields -/

theorem w64_toNat (x : W64) : w64 x.toNat = x := (BitVec.ofNat_toNat 64 x).trans (BitVec.setWidth_eq x)

/-- Where a view lies, as a number: banks stand at 2^62 (R313). -/
def View.addrNum (x : View) : Nat :=
  match x.loc with
  | .flat a => a.toNat
  | .fibre a => a.toNat
  | .bank a => 2 ^ 62 + a

theorem addr_eq (x : View) : x.addr = w64 x.addrNum := by
  unfold View.addr View.addrNum
  cases x.loc with
  | flat a => exact (w64_toNat _).symm
  | fibre a => exact (w64_toNat _).symm
  | bank a => rfl

theorem find_addr (l : Assoc View) (k : Nat) :
    (l.find k).elim 0 View.addr = w64 (((l.find k).map View.addrNum).getD 0) := by
  cases l.find k with
  | none => rfl
  | some x => exact addr_eq x

theorem find_number (l : Assoc View) (k : Nat) (f : View → Nat) :
    (l.find k).elim 0 (fun x => w64 (f x)) = w64 (((l.find k).map f).getD 0) := by
  cases l.find k <;> rfl

theorem settled_eq (x : TaskState) : x.settled = (x = .merged || x = .discarded) := by
  cases x <;> rfl

theorem settled_count (l : List Child) :
    (l.filter (fun c => c.st.settled)).length = (l.filter (fun c => c.st = .merged || c.st = .discarded)).length := by
  simp only [settled_eq]

/-! ### A child of an epoch -/

/-- What TINFO.CH reads of child `i`, whose own task has the epoch, the views and the merge given. -/
def Region.childRecord (rg : Region) (i : Nat) (c : Child) (epoch : Epoch) (views : Assoc View) (bad : Option Nat)
    (midx : Nat) : TaskView :=
  { tid := c.tid, index := w64 i, parent := rg.task.tid, depth := rg.task.depth + 1, epoch := epoch
    arg := c.arg, views := views, bad := bad, sfail := 0, st := c.st, midx := midx }

section Child
variable {s : State} {rg : Region} {i : Nat} {c : Child}

theorem childTask_beyond (beyond : rg.task.epoch.children.length ≤ i) : s.childTask rg i = none := by
  rw [State.childTask, List.getElem?_eq_none beyond]
  rfl

variable (at_ : rg.task.epoch.children[i]? = some c)
include at_

/-- A child that does not run stands as its record in the epoch. -/
theorem childTask_still (still : c.st ≠ .running) :
    s.childTask rg i = some (rg.childRecord i c {} c.views none c.midx) := by
  have views : s.childViews c = c.views := by
    unfold State.childViews
    split
    · next runs _ => exact absurd runs still
    · rfl
  rw [State.childTask, at_, Option.map_some, if_neg still, views]
  rfl

/-- A child that runs is read from its residency. -/
theorem childTask_running {k : Nat} {y : Region} (runs : c.st = .running) (placed : c.rid = some k)
    (region : s.rg? k = some y) : s.childTask rg i = some (rg.childRecord i c y.task.epoch
      (c.views.map (fun z => (z.1, (y.task.views.find z.1).getD z.2))) y.task.badView y.task.midx) := by
  have found : c.rid.bind s.rg? = some y := by rw [placed, Option.bind_some, region]
  have views : s.childViews c = c.views.map (fun z => (z.1, (y.task.views.find z.1).getD z.2)) := by
    rw [State.childViews, runs, found]
  rw [State.childTask, at_, Option.map_some, if_pos runs, found, views]
  rfl

end Child

/-! ### TINFO.CH -/

section Read
variable {v : Run} {d : Reg} {i : W64} {f w : Nat}

/-- SFAIL and the reserved fields are refused (R313). -/
theorem tinfoCh_refused (bad : f = 9 ∨ 12 ≤ f) : v.tinfoCh d i f w = v.set (v.q.setG d (refused 3)) := by
  rw [Run.tinfoCh, if_pos (by simpa using bad)]

section Good
variable (notSfail : f ≠ 9) (known : f < 12)
include notSfail known

theorem tinfoCh_beyond (beyond : v.rg.task.epoch.children.length ≤ i.toNat) :
    v.tinfoCh d i f w = v.set (v.q.setG d (refused 6)) := by
  rw [Run.tinfoCh, if_neg (by simp [notSfail, known]), childTask_beyond beyond]

theorem tinfoCh_reads {t : TaskView} (child : v.s.childTask v.rg i.toNat = some t) :
    v.tinfoCh d i f w = v.set (v.q.setG d (t.field f w)) := by
  rw [Run.tinfoCh, if_neg (by simp [notSfail, known]), child]

end Good
end Read
end Sys2Proof.Machine

namespace Sys2Proof
open Machine

/-- Settles O36: the fields one by one, of the issuer's task and of a child. -/
theorem taskInformation : Obligations.TaskInformation := by
  intro s r pg rg q g d ra rb f w able out t vstat vaddr own x k
  have able0 : Able s r pg rg q g [] := able_of_subset able (by simp)
  have ableA : Able s r pg rg q g [ra] := able_of_subset able (by simp)
  have ableB : Able s r pg rg q g [rb] := able_of_subset able (by simp)
  have field : fld (q.getG rb) 0 5 = x := fld_zero _ 5
  have address (l : Assoc View) (k : Nat) : (l.find k).elim 0 View.addr = BitVec.ofNat 64 (vaddr l k) := find_addr l k
  have owns (n a b : Nat) :
      (runAt s r pg rg q n).set ((past q n).setG d (rg.ownTask.field a b)) =
        s.setSeq r pg ((past q n).setG d (BitVec.ofNat 64 (own a b))) := by
    have same : rg.ownTask.field a b = BitVec.ofNat 64 (own a b) := by
      match a with
      | 0 | 2 | 3 | 4 | 9 | 10 | 11 => rfl
      | 1 =>
        show t.parent.elim (refused 6) (fun p => w64 p.2) = BitVec.ofNat 64 ((t.parent.map (·.2)).getD (2 ^ 63 + 6))
        cases t.parent <;> rfl
      | 5 => exact congrArg w64 (settled_count _)
      | 6 =>
        show (if t.parent.isSome then t.arg else 0) = BitVec.ofNat 64 (if t.parent.isSome then t.arg.toNat else 0)
        split
        · exact (w64_toNat _).symm
        · rfl
      | 7 => exact address t.views b
      | 8 => exact find_number t.views b _
      | _ + 12 => rfl
    rw [same, runAt_set]
  refine ⟨(exec_tinfo g d rb s).trans (runSeq_total ableB ?_),
    (exec_tinfoSi g d f w s).trans (runSeq_total able0 (owns 2 _ _)), fun n a b i form => ?_⟩
  · rw [← field]
    exact owns 1 _ _
  have means {t : State} (gives : (runAt s r pg rg q n).tinfoCh d (q.getG ra) a b = t) : exec i s = .next t := by
    rcases form with ⟨rfl, rfl, rfl, rfl⟩ | ⟨rfl, rfl, rfl, rfl⟩
    · rw [← field] at gives
      exact (exec_tinfoCh g d ra rb s).trans (runSeq_total able gives)
    · exact (exec_tinfoChSi g d ra f w s).trans (runSeq_total ableA gives)
  refine ⟨fun bad => means ((tinfoCh_refused bad).trans (runAt_set ..)),
    fun notSfail known beyond => means ((tinfoCh_beyond notSfail known beyond).trans (runAt_set ..)), ?_⟩
  intro notSfail known c at_ reads
  have child (epoch : Epoch) (views : Assoc View) (bad : Option Nat) (midx : Nat)
      (found : (runAt s r pg rg q n).s.childTask rg (q.getG ra).toNat =
        some (rg.childRecord (q.getG ra).toNat c epoch views bad midx)) : reads epoch views bad midx := by
    refine means ((tinfoCh_reads notSfail known found).trans ((runAt_set ..).trans ?_))
    congr 2
    match a with
    | 0 | 1 | 2 | 3 | 4 | 10 | 11 => rfl
    | 5 => exact congrArg w64 (settled_count _)
    | 6 => exact (w64_toNat _).symm
    | 7 => exact address views b
    | 8 => exact find_number views b _
    | 9 => exact absurd rfl notSfail
    | _ + 12 => omega
  exact ⟨fun still => child _ _ _ _ (childTask_still at_ still),
    fun k y runs placed region => child _ _ _ _ (childTask_running at_ runs placed region)⟩

end Sys2Proof
end

section
/-! View merges event by event, and the placement of a child (11 R295, R298, R301 to R303, R306; 15 R373). -/
namespace Sys2Proof.Machine

/-! ### A merge starts and completes (R301, R303) -/

section Merge
variable {s : State} {r : Nat} {rg : Region} (region : s.rg? r = some rg) (resident : rg.resident = true)
include region resident

section Start
variable (free : rg.task.epoch.merge = none)
include free

/-- The first unsettled child starts to merge once it has ended. -/
theorem viewMergeStart_child {i : Nat} {c : Child} (turn : rg.task.epoch.turn = some (i, c)) (ended : c.st = .ended) :
    execViewMergeStart r s = .next (s.setRg r (rg.setEpoch { rg.task.epoch with
      children := listUpd rg.task.epoch.children i (fun c => { c with st := .merging })
      merge := some { src := some i, v := nextView c.views 0 } })) := by
  rw [execViewMergeStart, region]
  dsimp only
  rw [if_neg (by simp [free, resident]), turn]
  exact if_neg (by simp [ended])

/-- With no child left the final merge starts, where it was asked for. -/
theorem viewMergeStart_final (turn : rg.task.epoch.turn = none) (asked : rg.task.epoch.fm = .running) :
    execViewMergeStart r s = .next (s.setRg r (rg.setEpoch { rg.task.epoch with
      merge := some { src := none, v := nextView rg.task.epoch.accs 0 } })) := by
  rw [execViewMergeStart, region]
  dsimp only
  rw [if_neg (by simp [free, resident]), turn]
  exact if_neg (by simp [asked])

end Start

/-- The epoch after a merge: the child is Merged and its views are free; a final merge closes it (R295, R303). -/
def Epoch.merged (e : Epoch) : Option Nat → Epoch
  | some i => { e with merge := none, children := listUpd e.children i (fun c => { c with st := .merged, views := [] }) }
  | none => {}

theorem viewMergeComplete_eq {m : Merge} (merge : rg.task.epoch.merge = some m) (goes : m.faulted = false)
    (answered : m.remote = none) (done_ : m.v = viewsDone) :
    execViewMergeComplete r s =
      .next ((s.bump r).updRg r (fun x => (x.setEpoch (rg.task.epoch.merged m.src)).taskWake)) := by
  rw [execViewMergeComplete, region]
  dsimp only
  rw [merge]
  dsimp only
  rw [if_neg (by simp [goes, answered, resident, done_])]
  cases m.src <;> rfl

end Merge

/-! ### An element of a bank view (R298, R302) -/

theorem mergeAt_eq_some {s : State} {r : Nat} {w : Mw} (here : s.mergeAt r = some w) :
    w.s = s ∧ w.r = r ∧ s.rg? r = some w.rg := by
  unfold State.mergeAt at here
  split at here
  · cases here
  · next rg region =>
    split at here
    · cases here
    · split at here
      · cases here
      · split at here
        · obtain rfl := Option.some.inj here
          exact ⟨rfl, rfl, region⟩
        · cases here

section Element
variable {w : Mw}

theorem read_bank {target : Bool} {v : View} {i a : Nat} {src : Region} (side : (if target then w.x else w.v) = v)
    (loc : v.loc = .bank a) (holder : w.s.rg? (w.bankOf target) = some src) (sound : src.bankBad (a + i * v.z) v.z = false) :
    w.read target i = .ok (leNat (bankPeek src.bank (a + i * v.z) v.z), w) := by
  rw [Mw.read, side]
  dsimp only
  rw [loc]
  dsimp only
  rw [holder]
  exact if_neg (Bool.eq_false_iff.1 sound)

theorem put_bank {b val : Nat} {f : Flags} (loc : w.x.loc = .bank b) :
    w.put val f = (({ w with
      s := w.s.updRg w.r (fun x => x.bankWrite (b + w.m.x * w.x.z) (leBytes w.x.z val))
      m := { w.m with owe := f, x := w.m.x + 1, gave := w.m.gave.tail } } : Mw).raise f).settle := by
  rw [Mw.put, Mw.write]
  dsimp only
  rw [loc]

/-- An element is combined by the operator of its target and written back, and its status bits are raised. -/
theorem combineOne_bank {a b : Nat} {src dst : Region} (loc : w.v.loc = .bank a) (into : w.x.loc = .bank b)
    (holder : w.s.rg? (w.bankOf false) = some src) (region : w.s.rg? w.r = some dst)
    (sound : src.bankBad (a + w.m.x * w.v.z) w.v.z = false) (whole : dst.bankBad (b + w.m.x * w.x.z) w.x.z = false) :
    let y := combine w.x.fmt w.x.op (leNat (bankPeek dst.bank (b + w.m.x * w.x.z) w.x.z))
      (leNat (bankPeek src.bank (a + w.m.x * w.v.z) w.v.z))
    w.combineOne = (({ w with
      s := w.s.updRg w.r (fun x => x.bankWrite (b + w.m.x * w.x.z) (leBytes w.x.z y.1))
      m := { w.m with owe := y.2, x := w.m.x + 1, gave := w.m.gave.tail } } : Mw).raise y.2).settle := by
  have new := read_bank (target := false) (i := w.m.x) rfl loc holder sound
  have old := read_bank (target := true) (i := w.m.x) rfl into region whole
  rw [Mw.combineOne, new]
  dsimp only
  rw [old]
  exact put_bank into

/-- An element is left, and the target's operator is none of fibres and not a custom one. -/
theorem viewMergeElement_combines {s : State} {r : Nat} (here : s.mergeAt r = some w) (plain : w.x.op < 12)
    (left : w.m.x < w.v.count) : execViewMergeElement r s = .next w.combineOne := by
  rw [execViewMergeElement, here]
  dsimp only
  rw [if_neg (by simp [left])]
  split
  · omega
  · omega
  · rfl

end Element

/-! ### The placement of a child (R296, R306, R373) -/

section Place
variable {s : State} {r i : Nat} {rg : Region} {c : Child} {x : Ctx} (region : s.rg? r = some rg)
  (at_ : rg.task.epoch.children[i]? = some c) (context : s.ctx? rg.ctx = some x) (pending : c.st = .pending)
  (active : x.st = .active) (settled : x.becoming = none)
include region at_ context pending active settled

theorem childPlaced_refused {code ix : Nat} (bad : readResidency (devRead s rg.ctx) c.kdesc = .error (code, ix)) :
    execChildPlaced r i s =
      .next (s.refuseChild rg.ctx r i (readRra (devRead s rg.ctx) c.kdesc) code ix) := by
  rw [execChildPlaced, region]
  dsimp only
  rw [at_, context]
  dsimp only
  rw [if_neg (by simp [pending, active, settled]), bad]

theorem childPlaced_loads {d : List W64} {core first : Nat} (good : readResidency (devRead s rg.ctx) c.kdesc = .ok d) :
    let nr := { childRegion rg r i c d (s.nextId + 1) with st := .loading }
    let w := s.boundsOf (s.launchOf 64 rg)
    let s1 : State := { s with
      nextId := s.nextId + 2
      regions := s.regions.put s.nextId nr
      groups := s.groups.put (s.nextId + 1) { st := .loading, members := [s.nextId], from_ := none, since := s.freeIx } }
    s.bestRun (s.coresFor w.aff nr.erg w.set) (nr.pm1 + 1) = some (core, first) →
    s.pagesOf rg.ctx + nr.pm1 + 1 ≤ x.pageq → s.slotsOf rg.ctx < x.slots →
    execChildPlaced r i s = .next ((s1.takePlace s.nextId core first w.ctr true).updChild r i
      (fun y => { y with st := .running, rid := some s.nextId })) := by
  intro nr w s1 run pages slots
  rw [execChildPlaced, region]
  dsimp only
  rw [at_, context]
  dsimp only
  rw [if_neg (by simp [pending, active, settled]), good]
  dsimp only
  rw [run]
  exact if_neg (by
    rw [Bool.or_eq_true, decide_eq_true_eq, decide_eq_true_eq]
    exact not_or.2 ⟨Nat.not_lt.2 pages, Nat.not_le.2 slots⟩)

end Place
end Sys2Proof.Machine

namespace Sys2Proof
open Machine Statements

/-- The part of O48 on merges. -/
theorem viewMergeEvents : Statements.ViewMergeEvents := by
  intro s r rg region resident e
  refine ⟨fun i c free turn ended => viewMergeStart_child region resident free turn ended,
    fun free turn asked => viewMergeStart_final region resident free turn asked, ?_, fun m merge goes answered done_ => ?_⟩
  · intro w a b src here loc into plain left holder sound whole old new y
    obtain ⟨rfl, rfl, region'⟩ := mergeAt_eq_some here
    exact (viewMergeElement_combines here plain left).trans
      (congrArg Host.Outcome.next (combineOne_bank loc into holder region sound whole))
  · have completes := viewMergeComplete_eq region resident merge goes answered done_
    exact ⟨fun i child => by rw [child] at completes; exact completes,
      fun final => by rw [final] at completes; exact completes⟩

/-- The part of O48 on the placement of children. -/
theorem childPlacement : Statements.ChildPlacement := by
  intro s r i rg c x region at_ context pending active settled discarded refused
  exact ⟨fun code ix bad => childPlaced_refused region at_ context pending active settled bad,
    fun d core first good => childPlaced_loads region at_ context pending active settled good⟩

/-- Settles O48: view merges, and the placement of children. -/
theorem viewsAndChildren : Obligations.ViewsAndChildren := ⟨viewMergeEvents, childPlacement⟩

end Sys2Proof
end

/-! ### Memory keeps its form: what leaves memory alone

Memory changes only where bytes are stored (`State.poke`) and at a reset. What the other operations of the model leave in
memory is said once for each of them, in the order of the model; the operations that store keep its form (below). -/
namespace Sys2Proof.Machine

/-- A fold of changes that leave memory alone leaves it alone. -/
@[simp] theorem foldl_mem {α : Type} (l : List α) (f : State → α → State) (s : State)
    (leaves : ∀ s x, (f s x).mem = s.mem) : (l.foldl f s).mem = s.mem := by
  induction l generalizing s with
  | nil => rfl
  | cons x l ih => rw [List.foldl_cons, ih, leaves]

@[simp] theorem foldl_nd_mem {α : Type} (l : List α) (f : Nd → α → Nd) (d : Nd)
    (leaves : ∀ d x, (f d x).s.mem = d.s.mem) : (l.foldl f d).s.mem = d.s.mem := by
  induction l generalizing d with
  | nil => rfl
  | cons x l ih => rw [List.foldl_cons, ih, leaves]

/-- Where a node's position is taken, memory is `mem` after it. -/
def Leaves (mem : List Host.Cell) : Option Nd → Prop
  | none => True
  | some d => d.s.mem = mem

@[simp] theorem leaves_none (mem : List Host.Cell) : Leaves mem none := trivial
@[simp] theorem leaves_some (mem : List Host.Cell) (d : Nd) : Leaves mem (some d) ↔ d.s.mem = mem := Iff.rfl

theorem leaves_map {α : Type} {mem : List Host.Cell} (o : Option α) {f : α → Nd} (leaves : ∀ x, (f x).s.mem = mem) :
    Leaves mem (o.map f) := by
  cases o with
  | none => trivial
  | some x => exact leaves x

theorem Leaves.of_eq {mem : List Host.Cell} {o : Option Nd} {d : Nd} (leaves : Leaves mem o) (took : o = some d) :
    d.s.mem = mem := by
  subst took; exact leaves

/-- A node at work is seen in the state it works in. -/
theorem State.nodeAt_s {s : State} {r b n : Nat} {d : Nd} (here : s.nodeAt r b n = some d) : d.s = s := by
  unfold State.nodeAt at here
  split at here
  · cases here
  · split at here
    · cases here
    · cases here; rfl

@[simp] theorem State.report_mem (s : State) (r : TeleRec) : (s.report r).mem = s.mem := by rfl
@[simp] theorem State.remember_mem (s : State) (a n : Nat) : (s.remember a n).mem = s.mem := by rfl
@[simp] theorem State.pokeBad_mem (s : State) (a n : Nat) : (s.pokeBad a n).mem = s.mem := by rfl
@[simp] theorem State.notify_mem (s : State) (sec : Nat) : (s.notify sec).mem = s.mem := by rfl
@[simp] theorem State.wakePort_mem (s : State) : s.wakePort.mem = s.mem := by unfold State.wakePort; split <;> rfl
@[simp] theorem State.rouse_mem (s : State) (sec : Nat) : (s.rouse sec).mem = s.mem := by rfl
@[simp] theorem State.touched_mem (s : State) (sec : Nat) : (s.touched sec).mem = s.mem := by rfl
@[simp] theorem State.setTag_mem (s : State) (sec : Nat) (t : RaceTag) : (s.setTag sec t).mem = s.mem := by rfl
@[simp] theorem State.setFmt_mem (s : State) (sec : Nat) (fmt sca scb : Byte) :
    (s.setFmt sec fmt sca scb).mem = s.mem := by rfl
@[simp] theorem State.rouseWalk_mem (s : State) (c : Nat) (va : W64) (l : Leaf) :
    (s.rouseWalk c va l).mem = s.mem := by
  unfold State.rouseWalk; split <;> simp
@[simp] theorem State.rouseVa_mem (s : State) (c : Nat) (va : W64) (n : Nat) : (s.rouseVa c va n).mem = s.mem :=
  foldl_mem _ _ _ fun s p => by split <;> simp
@[simp] theorem State.cache_mem (s : State) (core c : Nat) (va : W64) : (s.cache core c va).mem = s.mem :=
  Machine.cache_mem ..
@[simp] theorem State.setCount_mem (s : State) (core l : Nat) (c : BitVec 12) :
    (s.setCount core l c).mem = s.mem := by rfl
@[simp] theorem State.bump_mem (s : State) (r : Nat) : (s.bump r).mem = s.mem := by unfold State.bump; split <;> rfl
@[simp] theorem State.acquireAll_mem (s : State) (r : Nat) : (s.acquireAll r).mem = s.mem := by
  unfold State.acquireAll; split <;> rfl
@[simp] theorem State.acquire_mem (s : State) (r : Nat) (t : RaceTag) : (s.acquire r t).mem = s.mem := by
  unfold State.acquire; (repeat' split) <;> simp
@[simp] theorem State.takeWid_mem (s : State) (r : Nat) : (s.takeWid r).mem = s.mem := by
  unfold State.takeWid; split <;> simp
theorem State.push_mem {s t : State} {qn : Nat} {rec_ : List W64} {n : W64} (pushed : s.push qn rec_ = some (t, n)) :
    t.mem = s.mem := by
  unfold State.push at pushed
  split at pushed
  · cases pushed
  · split at pushed
    · cases pushed
    · cases pushed; rfl
@[simp] theorem State.faultRecord_mem (s : State) (c : Nat) (rec_ : List W64) :
    (s.faultRecord c rec_).1.mem = s.mem := by
  unfold State.faultRecord
  split
  · rfl
  · split
    · next pushed => exact State.push_mem pushed
    · simp
@[simp] theorem State.joinRec_mem (s : State) (f : FaultRec) : (s.joinRec f).mem = s.mem := by
  dsimp only [State.joinRec]; (repeat' split) <;> simp
@[simp] theorem State.pause_mem (s : State) (r : Nat) (rg : Region) (va : W64) (f : XFault) (k : AccK) (src : Src)
    (t : TrapRec) : (s.pause r rg va f k src t).1.mem = s.mem := by
  unfold State.pause
  split
  · simp
  · exact s.faultRecord_mem ..
@[simp] theorem State.leave_mem (s : State) (id : Nat) (w : Nat × W64 × W64 × W64) : (s.leave id w).mem = s.mem := by
  unfold State.leave; split <;> rfl
@[simp] theorem State.updSeq_mem (s : State) (r pg : Nat) (f : Seq → Seq) : (s.updSeq r pg f).mem = s.mem := by
  unfold State.updSeq; split <;> simp
@[simp] theorem State.doubleTrap_mem (s : State) (r pg : Nat) (q : Seq) (t : TrapRec) :
    (s.doubleTrap r pg q t).mem = s.mem := Machine.doubleTrap_mem s r pg q t
@[simp] theorem State.trap_mem (s : State) (r pg : Nat) (epc : W64) (t : TrapRec) :
    (s.trap r pg epc t).mem = s.mem := by
  unfold State.trap; (repeat' split) <;> simp
@[simp] theorem State.raise_mem (s : State) (r : Nat) (t : TrapRec) (src : Src) : (s.raise r t src).mem = s.mem := by
  dsimp only [State.raise]; (repeat' split) <;> simp
@[simp] theorem State.mgmtIn_mem (s : State) : s.mgmtIn.mem = s.mem := by rfl
@[simp] theorem State.mgmtTrap_mem (s : State) (t : TrapRec) : (s.mgmtTrap t).mem = s.mem := by simp [State.mgmtTrap]
@[simp] theorem State.raiseOn_mem (s : State) (r pg : Nat) (t : TrapRec) (src : Src) :
    (s.raiseOn r pg t src).mem = s.mem := by
  unfold State.raiseOn; (repeat' split) <;> simp
@[simp] theorem Run.set_mem (v : Run) (q : Seq) : (v.set q).mem = v.s.mem := by simp [Run.set]
@[simp] theorem Run.setIn_mem (v : Run) (s : State) (q : Seq) : (v.setIn s q).mem = s.mem := by simp [Run.setIn]
@[simp] theorem State.countRepairs_mem (s : State) (n : Nat) : (s.countRepairs n).mem = s.mem := by
  unfold State.countRepairs; split <;> rfl
@[simp] theorem Nd.upd_mem (d : Nd) (f : NodeSt → NodeSt) : (d.upd f).s.mem = d.s.mem := by rfl
@[simp] theorem Nd.setX_mem (d : Nd) (x : NodeX) : (d.setX x).s.mem = d.s.mem := by rfl
@[simp] theorem Nd.raise_mem (d : Nd) (f : Flags) : (d.raise f).s.mem = d.s.mem := by rfl
@[simp] theorem Nd.done_memory (d : Nd) : d.done.mem = d.s.mem := d.done_mem
@[simp] theorem Nd.reload_mem (d : Nd) (s : State) : (d.reload s).s.mem = s.mem := by rfl
@[simp] theorem Nd.pop_mem (d : Nd) (i : Nat) : (d.pop i).s.mem = d.s.mem := by rfl
@[simp] theorem Nd.consume_mem (d : Nd) (l : List Nat) : (d.consume l).s.mem = d.s.mem := by simp [Nd.consume]
@[simp] theorem Nd.sendOn_mem (d : Nd) (mr : BitVec 4) (t : Token) (k : Nat) : (d.sendOn mr t k).s.mem = d.s.mem := by
  dsimp only [Nd.sendOn]; (repeat' split) <;> simp
@[simp] theorem Nd.sendTo_mem (d : Nd) (l : List Nat) (t : Token) : (d.sendTo l t).s.mem = d.s.mem := by
  simp [Nd.sendTo]
@[simp] theorem Nd.emitMr_mem (d : Nd) (mr : BitVec 4) (t : Token) : (d.emitMr mr t).s.mem = d.s.mem := by
  simp [Nd.emitMr]
@[simp] theorem Nd.emit_mem (d : Nd) (t : Token) : (d.emit t).s.mem = d.s.mem := by simp [Nd.emit]
@[simp] theorem Nd.finish_mem (d : Nd) : d.finish.s.mem = d.s.mem := by simp [Nd.finish]
@[simp] theorem Nd.trap_mem (d : Nd) (cause : Nat) (eaddr einfo : W64) :
    (d.trap cause eaddr einfo).s.mem = d.s.mem := by
  simp [Nd.trap]
@[simp] theorem Nd.surplus_mem (d : Nd) (i : Nat) : (d.surplus i).s.mem = d.s.mem := by
  unfold Nd.surplus; split <;> simp
@[simp] theorem Nd.fired_mem (d0 d : Nd) : (d0.fired d).s.mem = d.s.mem := by unfold Nd.fired; split <;> rfl
@[simp] theorem Nd.emitRun_mem (d : Nd) (l : List Token) (mk : BitVec 4) : (d.emitRun l mk).s.mem = d.s.mem := by
  simp [Nd.emitRun]
@[simp] theorem Nd.setSx_mem (d : Nd) (x : Sx) : (d.setSx x).s.mem = d.s.mem := by rfl
@[simp] theorem Nd.sxTake_mem (d : Nd) (x : Sx) (i : Nat) (t : Token) : (d.sxTake x i t).s.mem = d.s.mem := by rfl
@[simp] theorem Nd.sxDrop_mem (d : Nd) (x : Sx) (i : Nat) (t : Token) : (d.sxDrop x i t).s.mem = d.s.mem := by
  dsimp only [Nd.sxDrop]; (repeat' split) <;> simp
@[simp] theorem Nd.sxPair_mem (d : Nd) (x : Sx) (m : BitVec 4) : (d.sxPair x m).s.mem = d.s.mem := by
  unfold Nd.sxPair; split <;> simp
@[simp] theorem Nd.sunPut_mem (d : Nd) (x : Sx) (t : Token) : (d.sunPut x t).1.s.mem = d.s.mem := by
  unfold Nd.sunPut; split <;> simp
@[simp] theorem Nd.sunTake_mem (d : Nd) (x : Sx) (i : Nat) (t : Token) (k : Int) :
    (d.sunTake x i t k).s.mem = d.s.mem :=
  d.sunPut_mem (x.setKey i k) t
@[simp] theorem Nd.topOut_mem (d : Nd) (l : List (Token × W32)) (mk : BitVec 4) :
    (d.topOut l mk).s.mem = d.s.mem := by
  simp [Nd.topOut]
@[simp] theorem Nd.shufOut_mem (d : Nd) (l : List Token) : (d.shufOut l).s.mem = d.s.mem := by simp [Nd.shufOut]
@[simp] theorem Nd.cntStep_mem (d : Nd) (mk : BitVec 4) (bub : Bool) (c t : Nat) (bound : Option Nat) (it : Nat) :
    (d.cntStep mk bub c t bound it).s.mem = d.s.mem := by
  simp [Nd.cntStep]
@[simp] theorem Nd.updBar_mem (d : Nd) (bid : Nat) (f : BarUnit → BarUnit) :
    (d.updBar bid f).s.mem = d.s.mem := by rfl
@[simp] theorem Run.cached_mem (v : Run) (va : W64) : (v.cached va).mem = v.s.mem := by simp [Run.cached]
@[simp] theorem State.sendRemote_mem (s : State) (x : Remote) : (s.sendRemote x).1.mem = s.mem := s.wakePort_mem
@[simp] theorem Run.await_mem (v : Run) (x : Remote) (w : Nat → SeqWait) : (v.await x w).mem = v.s.mem := by
  simp [Run.await]
@[simp] theorem Eng.done_mem (e : Eng) : e.done.mem = e.s.mem := by rfl
@[simp] theorem Eng.finish_s (e : Eng) (st : Nat) : (e.finish st).s = e.s := by rfl
@[simp] theorem Eng.formatFault_mem (e : Eng) (va : W64) : (e.formatFault va).mem = e.s.mem := by
  simp [Eng.formatFault]
@[simp] theorem Nd.updPos_mem (d : Nd) (i : Nat) (f : MemPos → MemPos) : (d.updPos i f).s.mem = d.s.mem := by rfl
@[simp] theorem Nd.flushPos_mem (n : Nat) (d : Nd) : (Nd.flushPos n d).s.mem = d.s.mem := by
  induction n generalizing d with
  | zero => rfl
  | succ n ih => dsimp only [Nd.flushPos]; (repeat' split) <;> simp [ih]
@[simp] theorem Nd.flushed_mem (d : Nd) : d.flushed.s.mem = d.s.mem := by simp [Nd.flushed]
@[simp] theorem Nd.skipped_mem (d : Nd) : d.skipped.s.mem = d.s.mem := by unfold Nd.skipped; split <;> simp
@[simp] theorem Nd.unitDone_mem (d : Nd) (i : Nat) (p : MemPos) (part : Nat) (bad : Bool) :
    (d.unitDone i p part bad).s.mem = d.s.mem := by rfl
@[simp] theorem Nd.drainDone_mem (d : Nd) (i : Nat) : (d.drainDone i).s.mem = d.s.mem := by
  dsimp only [Nd.drainDone]; (repeat' split) <;> simp
@[simp] theorem Nd.atBank_mem (d : Nd) (i : Nat) (p : MemPos) (a : Nat) : (d.atBank i p a).s.mem = d.s.mem := by
  dsimp only [Nd.atBank]; (repeat' split) <;> simp
@[simp] theorem Nd.recTag_mem (d : Nd) (p : MemPos) (pa : Nat) (s : State) : (d.recTag p pa s).mem = s.mem := by
  unfold Nd.recTag; split <;> rfl
@[simp] theorem Nd.toRemote_mem (d : Nd) (i : Nat) (p : MemPos) (rn : BitVec 16) (ch : Nat) (rod : Bool) (a
    : W64) : (d.toRemote i p rn ch rod a).s.mem = d.s.mem := by
  unfold Nd.toRemote; split <;> simp
@[simp] theorem Nd.answerPos_mem (d : Nd) (num : Nat) (x : W64) : (d.answerPos num x).s.mem = d.s.mem := by
  dsimp only [Nd.answerPos]; (repeat' split) <;> simp
@[simp] theorem State.pass_mem (s : State) (core n : Nat) : (s.pass core n).mem = s.mem := by rfl
@[simp] theorem State.tick_mem (s : State) (t : Turn) : (s.tick t).mem = s.mem := by unfold State.tick; split <;> rfl
@[simp] theorem State.notifySeg_mem (s : State) (c : Nat) (a : W64) (p : Pool) (g : FSeg) :
    (s.notifySeg c a p g).mem = s.mem := by
  simp [State.notifySeg]
@[simp] theorem State.setChain_mem (s : State) (c : Nat) (a : W64) (segs : List FSeg) (wrote : List Nat) :
    (s.setChain c a segs wrote).mem = s.mem := by
  dsimp only [State.setChain]; (repeat' split) <;> simp
@[simp] theorem State.putFop_mem (s : State) (id : Nat) (o : FOp) : (s.putFop id o).mem = s.mem := by rfl
@[simp] theorem State.endScan_mem (s : State) (id : Nat) (o : FOp) : (s.endScan id o).mem = s.mem := by
  dsimp only [State.endScan]; (repeat' split) <;> simp
@[simp] theorem State.endFop_mem (s : State) (id : Nat) (o : FOp) (status : Nat) :
    (s.endFop id o status).mem = s.mem := by
  unfold State.endFop; (repeat' split) <;> rfl
@[simp] theorem State.startFop_mem (s : State) (id : Nat) (o : FOp) : (s.startFop id o).mem = s.mem := by
  dsimp only [State.startFop]; (repeat' split) <;> simp
@[simp] theorem State.serveFibre_mem (n key : Nat) (s : State) : (State.serveFibre n key s).mem = s.mem := by
  induction n generalizing s with
  | zero => rfl
  | succ n ih => unfold State.serveFibre; (repeat' split) <;> simp [ih]
@[simp] theorem State.serve_mem (s : State) (key : Nat) : (s.serve key).mem = s.mem := by simp [State.serve]
@[simp] theorem State.serveAll_mem (s : State) : s.serveAll.mem = s.mem := by simp [State.serveAll]
@[simp] theorem State.trapFop_mem (s : State) (id : Nat) (o : FOp) (cause : Nat) (va info : W64) :
    (s.trapFop id o cause va info).mem = s.mem := by
  unfold State.trapFop
  split
  · rfl
  · next here => split <;> simp [State.nodeAt_s here]
@[simp] theorem Nd.emitFop_mem (d : Nd) (o : FOp) : (d.emitFop o).s.mem = d.s.mem := by simp [Nd.emitFop]
@[simp] theorem State.countLost_mem (s : State) (id : Nat) (o : FOp) : (s.countLost id o).mem = s.mem := by
  unfold State.countLost; (repeat' split) <;> simp
@[simp] theorem State.refill_mem (s : State) (c : Nat) : (s.refill c).mem = s.mem := by
  unfold State.refill
  split
  · rfl
  · split
    · rfl
    · split
      · rfl
      · split
        · rfl
        · next pushed => simpa using State.push_mem pushed
@[simp] theorem Run.cfgCode_mem (v : Run) (d : Reg) (c : Nat) : (v.cfgCode d c).mem = v.s.mem := by
  simp [Run.cfgCode]
@[simp] theorem Run.bound_mem (v : Run) (p : PReg) (b n x : Nat) : (v.bound p b n x).mem = v.s.mem := by
  dsimp only [Run.bound]; (repeat' split) <;> simp
@[simp] theorem Run.portw_mem (v : Run) (eos : Bool) (p : PReg) (n : Nat) (x : W64) :
    (v.portw eos p n x).mem = v.s.mem := by
  dsimp only [Run.portw]; (repeat' split) <;> simp
@[simp] theorem Run.portr_mem (v : Run) (f : PReg) (d : Reg) (n : Nat) : (v.portr f d n).mem = v.s.mem := by
  dsimp only [Run.portr]; (repeat' split) <;> simp
@[simp] theorem State.dropTraps_mem (s : State) (r : Nat) : (s.dropTraps r).mem = s.mem := by
  unfold State.dropTraps; split <;> simp
@[simp] theorem State.setPage_mem (s : State) (core p : Nat) (x : Page) : (s.setPage core p x).mem = s.mem := by rfl
@[simp] theorem State.setRun_mem (s : State) (core first n : Nat) (f : Page → Page) :
    (s.setRun core first n f).mem = s.mem := by
  simp [State.setRun]
@[simp] theorem State.freePages_mem (s : State) (core first n : Nat) : (s.freePages core first n).mem = s.mem := by
  simp [State.freePages]
@[simp] theorem State.holdPage_mem (s : State) (core p : Nat) (st : PageSt) (r : Nat) (rg : Region) :
    (s.holdPage core p st r rg).mem = s.mem := by rfl
@[simp] theorem State.dropMove_mem (s : State) (p : Nat → Bool) : (s.dropMove p).mem = s.mem := by
  unfold State.dropMove; (repeat' split) <;> simp
@[simp] theorem State.spoilMove_mem (s : State) : s.spoilMove.mem = s.mem := by
  unfold State.spoilMove; (repeat' split) <;> simp
@[simp] theorem State.askRemap_mem (s : State) (core page pos : Nat) (wear : Bool) :
    (s.askRemap core page pos wear).mem = s.mem := by
  dsimp only [State.askRemap]; (repeat' split) <;> simp
@[simp] theorem State.wakeCore_mem (s : State) (core : Nat) : (s.wakeCore core).mem = s.mem := by
  unfold State.wakeCore; split <;> rfl
@[simp] theorem State.takePlace_mem (s : State) (r core first : Nat) (ctr : Bool) (fresh : Bool) :
    (s.takePlace r core first ctr fresh).mem = s.mem := by
  unfold State.takePlace; (repeat' split) <;> simp
@[simp] theorem State.leavePlace_mem (s : State) (r : Nat) : (s.leavePlace r).mem = s.mem := by
  dsimp only [State.leavePlace]; (repeat' split) <;> simp
@[simp] theorem State.startMember_mem (s : State) (r : Nat) (im : Image) : (s.startMember r im).mem = s.mem := by
  unfold State.startMember; split <;> rfl
@[simp] theorem State.freeOpers_mem (s : State) (rg : Region) : (s.freeOpers rg).mem = s.mem :=
  foldl_mem _ _ _ fun s e => by (repeat' split) <;> simp
@[simp] theorem State.updChild_mem (s : State) (r i : Nat) (f : Child → Child) :
    (s.updChild r i f).mem = s.mem := by rfl
@[simp] theorem State.childRetired_mem (s : State) (rg : Region) : (s.childRetired rg).mem = s.mem := by
  unfold State.childRetired; split <;> rfl
@[simp] theorem State.groupRetired_mem (s : State) (gid : Nat) : (s.groupRetired gid).mem = s.mem := by
  unfold State.groupRetired; (repeat' split) <;> rfl
@[simp] theorem Run.placeFence_mem (v : Run) (p : PReg) (m : Byte) (f : Nat → EqEntry) :
    (v.placeFence p m f).mem = v.s.mem := by
  unfold Run.placeFence; split <;> simp
@[simp] theorem State.arrive_mem (s : State) (pa : Nat) (old : W64) (t : RaceTag) :
    (s.arrive pa old t).mem = s.mem := by rfl
@[simp] theorem Eng.retire_mem (e : Eng) : e.retire.mem = e.s.mem := by rfl
@[simp] theorem Nd.putFop_mem (d : Nd) (o : FOp) : (d.putFop o).s.mem = d.s.mem := by rfl
@[simp] theorem Nd.fibPass_mem (d : Nd) (mks : BitVec 4) : (d.fibPass mks).s.mem = d.s.mem := by
  unfold Nd.fibPass; split <;> simp
@[simp] theorem Nd.unskip_mem (d : Nd) : d.unskip.s.mem = d.s.mem := by unfold Nd.unskip; split <;> rfl
@[simp] theorem Nd.startOp_mem (d : Nd) (o : FOp) : (d.startOp o).s.mem = d.s.mem := by rfl
@[simp] theorem Run.csrWrite_mem (v : Run) (n : Csr) (m x : W64) : (v.csrWrite n m x).mem = v.s.mem := by
  unfold Run.csrWrite; split <;> simp
@[simp] theorem Nd.setMm_mem (d : Nd) (x : MmX) : (d.setMm x).s.mem = d.s.mem := by rfl
@[simp] theorem Nd.setAg_mem (d : Nd) (g : AccGroup) : (d.setAg g).s.mem = d.s.mem := by rfl
@[simp] theorem Nd.promote_mem (d : Nd) (x : MmX) (ea eb : W64) : (d.promote x ea eb).s.mem = d.s.mem := by
  unfold Nd.promote; split <;> rfl
@[simp] theorem Nd.endTile_mem (d : Nd) (x : MmX) (a b : TileSlot) : (d.endTile x a b).s.mem = d.s.mem := by
  dsimp only [Nd.endTile]; (repeat' split) <;> simp
@[simp] theorem Nd.startTile_mem (d : Nd) (ra rb : List Token) : (d.startTile ra rb).s.mem = d.s.mem := by
  dsimp only [Nd.startTile]; (repeat' split) <;> simp
@[simp] theorem Nd.setGroupEmpty_mem (d : Nd) : d.setGroupEmpty.s.mem = d.s.mem := by rfl
@[simp] theorem Nd.pivCount_mem (d : Nd) (segs : Nat) : (d.pivCount segs).s.mem = d.s.mem := by rfl
@[simp] theorem Nd.pivEnd_mem (d : Nd) (segs : Nat) (set : W64 → W64) : (d.pivEnd segs set).s.mem = d.s.mem := by
  simp [Nd.pivEnd]
@[simp] theorem State.freeClones_mem (s : State) (r : Nat) : (s.freeClones r).mem = s.mem := by
  unfold State.freeClones; split <;> simp
@[simp] theorem State.stopRegion_mem (s : State) (r : Nat) : (s.stopRegion r).mem = s.mem := by
  unfold State.stopRegion; (repeat' split) <;> simp
@[simp] theorem State.badRec_mem (s : State) (qn : Nat) (q : Queue) : (s.badRec qn q).mem = s.mem := by rfl
@[simp] theorem State.readHead_mem (s : State) (qn : Nat) (q : Queue) : (s.readHead qn q).mem = s.mem := by
  unfold State.readHead
  split
  · rfl
  · split
    · split
      · rfl
      · cases q.readHost s <;> simp
    · (repeat' split) <;> simp
@[simp] theorem State.readHeads_mem (s : State) : s.readHeads.mem = s.mem := foldl_mem _ _ _ fun s e => by simp
@[simp] theorem State.age_mem (s : State) (chosen : Rank) : (s.age chosen).mem = s.mem :=
  foldl_mem _ _ _ fun s x => by (repeat' split) <;> rfl
@[simp] theorem State.makeRoom_mem (s : State) (l : List (Nat × Nat × Nat)) : (s.makeRoom l).mem = s.mem := by
  simp [State.makeRoom]
@[simp] theorem State.leaveHead_mem (s : State) (qn : Nat) (t : Started) : (s.leaveHead qn t).mem = s.mem := by
  unfold State.leaveHead; split <;> rfl
@[simp] theorem State.reply_mem (s : State) (m : Msg) (st : Nat) (res : List W64) :
    (s.reply m st res).mem = s.mem := by rfl
@[simp] theorem State.ok_mem (s : State) (m : Msg) : (s.ok m).mem = s.mem := by rfl
@[simp] theorem State.countRefused_mem (s : State) : s.countRefused.mem = s.mem := by rfl
@[simp] theorem State.otherOp_mem (s : State) (m : Msg) : (s.otherOp m).mem = s.mem := by
  unfold State.otherOp; split <;> rfl
@[simp] theorem State.setPort_mem (s : State) (n : Nat) (p : Port) : (s.setPort n p).mem = s.mem := by rfl
@[simp] theorem State.setErg_mem (s : State) (core : Nat) (e : Erg) : (s.setErg core e).mem = s.mem := by rfl
@[simp] theorem State.watchClear_mem (s : State) (core sec : Nat) : (s.watchClear core sec).mem = s.mem := by rfl
@[simp] theorem State.register_mem (s : State) (core sec : Nat) : (s.register core sec).mem = s.mem := by
  simp [State.register]
@[simp] theorem Run.tinfoCh_mem (v : Run) (d : Reg) (i : W64) (f w : Nat) : (v.tinfoCh d i f w).mem = v.s.mem := by
  simp [Run.tinfoCh]
@[simp] theorem Mw.done_mem (w : Mw) : w.done.mem = w.s.mem := by rfl
@[simp] theorem State.mergeFault_mem (s : State) (r : Nat) (m : Merge) (kind : Nat) (addr : W64) :
    (s.mergeFault r m kind addr).mem = s.mem := by
  unfold State.mergeFault; split <;> simp
@[simp] theorem Mw.restOper_mem (w : Mw) : w.restOper.s.mem = w.s.mem := by
  unfold Mw.restOper; (repeat' split) <;> simp
@[simp] theorem Mw.fault_mem (w : Mw) (kind : Nat) (addr : W64) : (w.fault kind addr).mem = w.s.mem := by
  simp [Mw.fault]
@[simp] theorem Mw.settle_mem (w : Mw) : w.settle.mem = w.s.mem := by unfold Mw.settle; split <;> rfl
@[simp] theorem Mw.raise_mem (w : Mw) (f : Flags) : (w.raise f).s.mem = w.s.mem := by rfl
@[simp] theorem Mw.fibre_mem (w : Mw) : w.fibre.mem = w.s.mem := by
  dsimp only [Mw.fibre]; (repeat' split) <;> simp
@[simp] theorem State.mergeAck_mem (s : State) (r : Nat) : (s.mergeAck r).mem = s.mem := by
  dsimp only [State.mergeAck]; (repeat' split) <;> simp
@[simp] theorem Mw.again_mem (w : Mw) (id : Nat) : (w.again id).mem = w.s.mem := by
  unfold Mw.again; split <;> simp
@[simp] theorem Mw.findPage_mem (w : Mw) : w.findPage.mem = w.s.mem := by
  unfold Mw.findPage; (repeat' split) <;> simp
@[simp] theorem Mw.openOper_mem (w : Mw) : w.openOper.mem = w.s.mem := by
  unfold Mw.openOper; (repeat' split) <;> simp
@[simp] theorem Mw.closeOper_mem (w : Mw) (id : Nat) : (w.closeOper id).s.mem = w.s.mem := by
  dsimp only [Mw.closeOper]; (repeat' split) <;> simp
@[simp] theorem State.mergeLost_mem (s : State) (r : Nat) (va : W64) : (s.mergeLost r va).mem = s.mem := by
  unfold State.mergeLost; (repeat' split) <;> simp
@[simp] theorem State.seqReply_mem (s : State) (id : Nat) (x : Remote) : (s.seqReply id x).mem = s.mem := by
  unfold State.seqReply; (repeat' split) <;> simp
@[simp] theorem State.storeLost_mem (s : State) (x : Remote) (t : TrapRec) (src : Src) :
    (s.storeLost x t src).mem = s.mem := by
  unfold State.storeLost; split <;> simp
@[simp] theorem State.dropRemote_mem (s : State) (id : Nat) : (s.dropRemote id).mem = s.mem := by rfl
@[simp] theorem State.fopReply_mem (s : State) (id : Nat) (x : Remote) : (s.fopReply id x).mem = s.mem := by
  dsimp only [State.fopReply]; (repeat' split) <;> simp
@[simp] theorem State.ergReply_mem (s : State) (id : Nat) (x : Remote) : (s.ergReply id x).mem = s.mem := by rfl
@[simp] theorem State.updGroup_mem (s : State) (gid : Nat) (f : Group → Group) :
    (s.updGroup gid f).mem = s.mem := by rfl
@[simp] theorem State.unplaceChild_mem (s : State) (r : Nat) (rg : Region) : (s.unplaceChild r rg).mem = s.mem := by
  unfold State.unplaceChild; split <;> rfl
@[simp] theorem State.abandonPlace_mem (s : State) (gid : Nat) (g : Group) : (s.abandonPlace gid g).mem = s.mem := by
  unfold State.abandonPlace; (repeat' split) <;> simp
@[simp] theorem State.withdrawOpers_mem (s : State) (r : Nat) (rg : Region) : (s.withdrawOpers r rg).mem = s.mem :=
  foldl_mem _ _ _ fun s p => by dsimp only; split <;> simp
@[simp] theorem State.wakeRegion_mem (s : State) (r : Nat) : (s.wakeRegion r).mem = s.mem := by
  simp [State.wakeRegion]
@[simp] theorem State.notePage_mem (s : State) (core p : Nat) : (s.notePage core p).mem = s.mem := by
  dsimp only [State.notePage]; (repeat' split) <;> simp
@[simp] theorem State.noteLink_mem (s : State) (n : Nat) (p : Port) : (s.noteLink n p).mem = s.mem := by
  dsimp only [State.noteLink]; (repeat' split) <;> simp
@[simp] theorem State.observed_mem (s : State) : s.observed.mem = s.mem := by simp [State.observed]
@[simp] theorem State.newCtx_mem (s : State) (c : Nat) (d : List W64) : (s.newCtx c d).mem = s.mem := by rfl
@[simp] theorem State.refillAll_mem (s : State) (c n : Nat) : (s.refillAll c n).mem = s.mem := by
  induction n generalizing s with
  | zero => rfl
  | succ n ih => simp [State.refillAll, ih]
@[simp] theorem State.zeroKeys_mem (s : State) (p : Nat → Bool) : (s.zeroKeys p).mem = s.mem := by rfl
@[simp] theorem State.rmaRefuse_mem (s : State) : s.rmaRefuse.mem = s.mem := by rfl
@[simp] theorem State.drop_mem (s : State) : s.drop.mem = s.mem := by rfl
@[simp] theorem State.dropPending_mem (s : State) (qn : Nat) (q : Queue) : (s.dropPending qn q).mem = s.mem := by rfl
@[simp] theorem State.activate_mem (s : State) (qn : Nat) (q : Queue) (t : W64) :
    (s.activate qn q t).mem = s.mem := by
  unfold State.activate; (repeat' split) <;> simp
@[simp] theorem State.warm_mem (s : State) : s.warm.mem = s.mem := by rfl
@[simp] theorem State.sleepUnits_mem (s : State) : s.sleepUnits.mem = s.mem := by rfl
@[simp] theorem State.corrected_mem (s : State) (n : Nat) : (s.corrected n).mem = s.mem := by
  unfold State.corrected; split <;> rfl
@[simp] theorem State.delayed_mem (s : State) (stack : Nat) : (s.delayed stack).mem = s.mem := by
  unfold State.delayed; split <;> rfl
@[simp] theorem State.pushAll_mem (s : State) (q : Nat) (l : List (List W64)) : (s.pushAll q l).mem = s.mem :=
  foldl_mem _ _ _ fun s x => by
    split
    · next pushed => exact State.push_mem pushed
    · rfl
@[simp] theorem State.reportStall_mem (s : State) (r : Nat) (rg : Region) : (s.reportStall r rg).mem = s.mem := by
  dsimp only [State.reportStall]; (repeat' split) <;> simp
@[simp] theorem State.began_mem (s : State) (t : Turn) : (s.began t).mem = s.mem := by simp [State.began]
@[simp] theorem State.badWord_mem (s : State) (r word : Nat) : (s.badWord r word).mem = s.mem := by rfl

/-! #### Positions of nodes -/

@[simp] theorem Nd.surplusOf_leaves {d : Nd} {mem : List Host.Cell} (kept : d.s.mem = mem) (l : List Nat) :
    Leaves mem (d.surplusOf l) := by
  subst kept; unfold Nd.surplusOf; (repeat' split) <;> simp
/-- The pairing rule leaves memory where the work on the tokens does (R189). -/
theorem Nd.pairStep_leaves (d : Nd) (req : List Nat) (work : Nd → List Token → Option Nd)
    (works : ∀ ts, Leaves d.s.mem (work d ts)) : Leaves d.s.mem (d.pairStep req work) := by
  unfold Nd.pairStep; dsimp only; (repeat' split) <;> simp [works]

section Positions
variable {d : Nd} {mem : List Host.Cell} (kept : d.s.mem = mem)
include kept

@[simp] theorem Nd.ingr_leaves : Leaves mem d.ingr := by subst kept; dsimp only [Nd.ingr]; (repeat' split) <;> simp
@[simp] theorem Nd.egr_leaves : Leaves mem d.egr := by subst kept; dsimp only [Nd.egr]; (repeat' split) <;> simp
@[simp] theorem Nd.const_leaves : Leaves mem d.const := by
  subst kept; dsimp only [Nd.const]; (repeat' split) <;> simp
@[simp] theorem Nd.elem_leaves (f : Nd → List Token → Nat × Flags) : Leaves mem (d.elem f) := by
  subst kept
  exact d.pairStep_leaves _ _ fun ts => by simp
@[simp] theorem Nd.intNode_leaves : Leaves mem d.intNode := by subst kept; simp [Nd.intNode]
@[simp] theorem Nd.cmpNode_leaves : Leaves mem d.cmpNode := by subst kept; simp [Nd.cmpNode]
@[simp] theorem Nd.selNode_leaves : Leaves mem d.selNode := by subst kept; simp [Nd.selNode]
@[simp] theorem Nd.fltNode_leaves : Leaves mem d.fltNode := by subst kept; simp [Nd.fltNode]
@[simp] theorem Nd.fcmpNode_leaves : Leaves mem d.fcmpNode := by subst kept; simp [Nd.fcmpNode]
@[simp] theorem Nd.specialNode_leaves : Leaves mem d.specialNode := by subst kept; simp [Nd.specialNode]
@[simp] theorem Nd.cvtNode_leaves : Leaves mem d.cvtNode := by subst kept; simp [Nd.cvtNode]
@[simp] theorem Nd.unpk3_leaves : Leaves mem d.unpk3 := by
  subst kept
  exact d.pairStep_leaves _ _ fun ts => by dsimp only; (repeat' split) <;> simp
@[simp] theorem Nd.bmand_leaves : Leaves mem d.bmand := by
  subst kept
  exact d.pairStep_leaves _ _ fun ts => by simp
@[simp] theorem Nd.pfxpop_leaves : Leaves mem d.pfxpop := by
  subst kept
  exact d.pairStep_leaves _ _ fun ts => by dsimp only; (repeat' split) <;> simp
@[simp] theorem Nd.six_leaves : Leaves mem d.six := by subst kept; dsimp only [Nd.six]; (repeat' split) <;> simp
@[simp] theorem Nd.sun_leaves : Leaves mem d.sun := by subst kept; dsimp only [Nd.sun]; (repeat' split) <;> simp
@[simp] theorem Nd.topk_leaves : Leaves mem d.topk := by subst kept; dsimp only [Nd.topk]; (repeat' split) <;> simp
@[simp] theorem Nd.shuf_leaves : Leaves mem d.shuf := by subst kept; dsimp only [Nd.shuf]; (repeat' split) <;> simp
@[simp] theorem Nd.cnt_leaves : Leaves mem d.cnt := by subst kept; dsimp only [Nd.cnt]; (repeat' split) <;> simp
@[simp] theorem Nd.agen_leaves : Leaves mem d.agen := by subst kept; unfold Nd.agen; (repeat' split) <;> simp
@[simp] theorem Nd.join_leaves : Leaves mem d.join := by
  subst kept
  exact d.pairStep_leaves _ _ fun ts => by simp
@[simp] theorem Nd.split_leaves : Leaves mem d.split := by
  subst kept
  exact d.pairStep_leaves _ _ fun ts => by simp
@[simp] theorem Nd.merge_leaves : Leaves mem d.merge := by
  subst kept; dsimp only [Nd.merge]; (repeat' split) <;> simp
@[simp] theorem Nd.steer_leaves : Leaves mem d.steer := by
  subst kept
  exact d.pairStep_leaves _ _ fun ts => by dsimp only; (repeat' split) <;> simp
@[simp] theorem Nd.bartok_leaves : Leaves mem d.bartok := by
  subst kept; dsimp only [Nd.bartok]; (repeat' split) <;> simp
@[simp] theorem Nd.stnTile_leaves : Leaves mem d.stnTile := by
  subst kept
  unfold Nd.stnTile
  dsimp only
  split
  · exact d.pairStep_leaves _ _ fun ts => trivial
  · exact d.pairStep_leaves _ _ fun ts => by (repeat' split) <;> simp
@[simp] theorem Nd.reln_leaves : Leaves mem d.reln := by
  subst kept
  unfold Nd.reln
  exact d.pairStep_leaves _ _ fun ts => by simp
@[simp] theorem Nd.trapPos_leaves (i : Nat) (cause : Nat) (eaddr einfo : W64) :
    Leaves mem (d.trapPos i cause eaddr einfo) := by
  subst kept; unfold Nd.trapPos; split <;> simp
@[simp] theorem Nd.fibTrap_leaves (addrs : List W64) : Leaves mem (d.fibTrap addrs) := by
  subst kept
  unfold Nd.fibTrap
  dsimp only
  split
  · simp
  · exact leaves_map _ fun a => by simp
@[simp] theorem Nd.fibNode_leaves : Leaves mem d.fibNode := by
  subst kept
  unfold Nd.fibNode
  dsimp only
  split
  · simp
  · refine d.pairStep_leaves _ _ fun ts => ?_
    split
    · simp
    · split
      · next trapped => split <;> simp [(Nd.fibTrap_leaves rfl _).of_eq trapped]
      · split <;> simp
@[simp] theorem Nd.fibStream_leaves : Leaves mem d.fibStream := by
  subst kept
  unfold Nd.fibStream
  split
  lift_lets
  extract_lets as_ ap bs bp rest segm close ts seg' d'
  have rest_ : Leaves d.s.mem rest := by unfold rest; (repeat' split) <;> simp
  have close_ : ∀ {e : Nd} l a, e.s.mem = d.s.mem → Leaves d.s.mem (close e l a) := fun l a kept => by
    simp [close, kept]
  have taken : d'.s.mem = d.s.mem := by simp [d']
  clear_value rest close d'
  (repeat' split) <;> simp_all
  exact (Nd.fibTrap_leaves rfl _).of_eq (‹_ ∧ d.fibTrap _ = _›).2
@[simp] theorem Nd.begin_leaves : Leaves mem d.begin := by
  subst kept
  unfold Nd.begin
  split
  · simp
  · split
    · split
      · exact leaves_map _ fun i => by simp
      · trivial
    · dsimp only
      split
      · trivial
      · split
        · trivial
        · next paired =>
          have leaves := (d.pairStep_leaves _ _ fun ts => by split <;> simp).of_eq paired
          split <;> simpa using leaves
@[simp] theorem Nd.stn_leaves : Leaves mem d.stn := by subst kept; unfold Nd.stn; split <;> simp
@[simp] theorem Nd.finter_leaves : Leaves mem d.finter := by subst kept; unfold Nd.finter; split <;> simp
@[simp] theorem Nd.mm_leaves : Leaves mem d.mm := by subst kept; dsimp only [Nd.mm]; (repeat' split) <;> simp
@[simp] theorem Nd.acc_leaves : Leaves mem d.acc := by
  subst kept
  exact d.pairStep_leaves _ _ fun ts => by dsimp only; split <;> simp
@[simp] theorem Nd.drainMem_leaves : Leaves mem d.drainMem := by
  subst kept
  unfold Nd.drainMem
  split
  · simp
  · exact d.pairStep_leaves _ _ fun ts => by dsimp only; (repeat' split) <;> simp
@[simp] theorem Nd.drainTok_leaves : Leaves mem d.drainTok := by
  subst kept
  unfold Nd.drainTok
  split
  · dsimp only; (repeat' split) <;> simp
  · exact d.pairStep_leaves _ _ fun ts => by dsimp only; (repeat' split) <;> simp
@[simp] theorem Nd.drain_leaves : Leaves mem d.drain := by subst kept; unfold Nd.drain; split <;> simp
@[simp] theorem Nd.pivStart_leaves (segs : Nat) : Leaves mem (d.pivStart segs) := by
  subst kept; dsimp only [Nd.pivStart]; (repeat' split) <;> simp
@[simp] theorem Nd.pivdiv_leaves : Leaves mem d.pivdiv := by
  subst kept
  unfold Nd.pivdiv
  dsimp only
  split
  · split
    · exact leaves_map _ fun i => by simp
    · simp
  · (repeat' split) <;> simp
@[simp] theorem Nd.residEnd_leaves (m : Nat) (any : Bool) (mk : BitVec 4) : Leaves mem (d.residEnd m any mk) := by
  subst kept; unfold Nd.residEnd; (repeat' split) <;> simp
@[simp] theorem Nd.resid_leaves : Leaves mem d.resid := by
  subst kept; dsimp only [Nd.resid]; (repeat' split) <;> simp
@[simp] theorem Nd.fire_leaves : Leaves mem d.fire := by subst kept; dsimp only [Nd.fire]; (repeat' split) <;> simp

end Positions

/-- A firing leaves memory when each of its positions does. -/
theorem Nd.loop_mem {f : Nd → Option Nd} (leaves : ∀ d, Leaves d.s.mem (f d)) (d0 : Nd) (n : Nat) (d : Nd) :
    (Nd.loop d0 n f d).s.mem = d.s.mem := by
  induction n generalizing d with
  | zero => rfl
  | succ n ih =>
    unfold Nd.loop
    split
    · rfl
    · split
      · rfl
      · next d' went =>
        have kept : d'.s.mem = d.s.mem := by simpa [went] using leaves d
        split
        · rw [ih, kept]
        · rfl

/-- A node takes the outcome of its remote access (R390, R420). -/
@[simp] theorem State.nodeReply_mem (s : State) (id : Nat) (x : Remote) : (s.nodeReply id x).mem = s.mem := by
  unfold State.nodeReply
  split
  · simp
  · next here =>
    have at_ := State.nodeAt_s here
    split
    · simp [at_]
    · split
      · simp [at_]
      · split
        · simp
        · split
          · rfl
          · split
            · rfl
            · next trapped => simp [(Nd.trapPos_leaves rfl _ _ _ _).of_eq trapped, at_]

end Sys2Proof.Machine

/-! ### Memory keeps its form: what stores

Each operation that stores is said to keep the form of memory, in the order of the model. -/
namespace Sys2Proof
open Machine

/-- A state is safe by its memory alone. -/
@[simp] theorem safe_iff (s : State) : Safe s ↔ Memory.wf s.mem = true := Iff.rfl

variable {s : State} (safe : Safe s)

theorem Safe.of_mem {t : State} (safe : Safe s) (same : t.mem = s.mem) : Safe t := by
  rw [Safe, same]; exact safe

theorem foldl_safe {α : Type} {f : State → α → State} (keeps : ∀ s x, Safe s → Safe (f s x)) (l : List α) {s : State}
    (safe : Safe s) : Safe (l.foldl f s) := by
  induction l generalizing s with
  | nil => exact safe
  | cons x l ih => exact ih (keeps s x safe)

section
include safe

@[simp] theorem Safe.write (key : MemKey) (a : Nat) (l : List Byte) : Safe (s.write key a l) := write_wf s key a l safe
@[simp] theorem Safe.writeBad (key : MemKey) (a n : Nat) : Safe (s.writeBad key a n) := writeBad_wf s key a n safe

@[simp] theorem Safe.perform (r : Nat) (st : PendStore) : Safe (s.perform r st) := by
  dsimp only [State.perform]; (repeat' split) <;> simp_all
@[simp] theorem Safe.performAll (r : Nat) (l : List PendStore) : Safe (s.performAll r l) := by
  induction l generalizing s with
  | nil => exact safe
  | cons st l ih => exact ih (safe.perform r st)
@[simp] theorem Safe.drain (r pg : Nat) : Safe (s.drain r pg) := by
  unfold State.drain; split <;> simp_all

@[simp] theorem Safe.mgmtOut : Safe s.mgmtOut := safe.drain 0 0
@[simp] theorem Safe.settleSec (r sec : Nat) : Safe (s.settleSec r sec) :=
  foldl_safe (fun s e safe => foldl_safe (fun s pg safe => by (repeat' split) <;> simp [safe]) _ safe) _ safe
@[simp] theorem Safe.settle1 (r pa : Nat) (uchk : Bool) : Safe (s.settle1 r pa uchk) := by
  unfold State.settle1; split <;> simp [safe]
@[simp] theorem Safe.drainAll (r n : Nat) : Safe (s.drainAll r n) := by
  induction n with
  | zero => exact safe
  | succ n ih => exact ih.drain r n

/-! #### Stores of the device -/

@[simp] theorem Safe.devStore (x : DevStore) : Safe (s.devStore x) :=
  foldl_safe (fun s p safe => by dsimp only; (repeat' split) <;> simp [safe]) _ safe
@[simp] theorem Safe.devRelease (x : DevStore) : Safe (s.devRelease x) := by
  unfold State.devRelease; split <;> simp [safe]
@[simp] theorem Safe.payOwed (who n : Nat) : Safe (s.payOwed who n) := by
  induction n generalizing s with
  | zero => exact safe
  | succ n ih =>
    unfold State.payOwed
    split
    · exact safe
    · split
      · exact safe
      · refine ih (Safe.devStore ?_ _)
        exact safe
@[simp] theorem Safe.storeDone (qn : Nat) : Safe (s.storeDone qn) := by
  unfold State.storeDone; (repeat' split) <;> simp [safe]
theorem Safe.takeRec {qn : Nat} {l : List W64} {t : State} (took : s.takeRec qn = some (l, t)) : Safe t := by
  unfold State.takeRec at took
  (repeat' split at took) <;> cases took
  simp [safe]
@[simp] theorem Safe.storeRetireTail (r c : Nat) (rra : W64) (l : List W64) : Safe (s.storeRetireTail r c rra l) :=
  safe.devStore _
@[simp] theorem Safe.storeRetireHead (r c : Nat) (rra : W64) (l : List W64) : Safe (s.storeRetireHead r c rra l) :=
  safe.devRelease _
@[simp] theorem Safe.storeRetire (r : Nat) (rg : Region) (l : List W64) : Safe (s.storeRetire r rg l) := by
  unfold State.storeRetire; (repeat' split) <;> simp [safe]
@[simp] theorem Safe.retire (r status code idx : Nat) : Safe (s.retire r status code idx) := by
  unfold State.retire; (repeat' split) <;> simp [safe]
@[simp] theorem Safe.fillFlat (c : Nat) (w : View) (va : Nat) : Safe (s.fillFlat c w va) :=
  foldl_safe (fun s p safe => by (repeat' split) <;> simp [safe]) _ (safe.devStore _)
theorem Safe.newView {c core : Nat} {w x : View} {taken : List (Nat × Nat)} {ks : List Nat} {j : Nat} {t : State}
    (made : s.newView c core w taken ks j = some (x, t)) : Safe t := by
  unfold State.newView at made
  dsimp only at made
  (repeat' split at made) <;> cases made
  · simp [safe]
  · simp [safe]
@[simp] theorem Safe.stop (c : Nat) (st : CtxState) (why : StopWhy) : Safe (s.stop c st why) := by
  unfold State.stop
  split
  · exact safe
  · exact foldl_safe (fun s x safe => safe.devStore x) _ (by simp [safe])
@[simp] theorem Safe.lose (c : Nat) (why : StopWhy) : Safe (s.lose c why) := by
  unfold State.lose; (repeat' split) <;> simp [safe]
@[simp] theorem Safe.reportDone (qn : Nat) (q : Queue) (seq : Nat) : Safe (s.reportDone qn q seq) := by
  dsimp only [State.reportDone]; split <;> simp [safe]
@[simp] theorem Safe.recStage (qn seq : Nat) : Safe (s.recStage qn seq) := by
  dsimp only [State.recStage]; (repeat' split) <;> simp [safe]
@[simp] theorem Safe.endHead (qn : Nat) (t : Started) : Safe (s.endHead qn t) :=
  (((safe.of_mem (by simp)).recStage ..).recStage ..).recStage ..
@[simp] theorem Safe.launch (qn : Nat) (q : Queue) (r : QRec) : Safe (s.launch qn q r) := by
  dsimp only [State.launch]
  split
  · simp [safe]
  · split
    · simp [safe]
    · exact safe.of_mem (foldl_mem _ _ _ fun s e => rfl)
@[simp] theorem Safe.startRecord (qn : Nat) (q : Queue) (r : QRec) : Safe (s.startRecord qn q r) := by
  dsimp only [State.startRecord]; (repeat' split) <;> simp [safe]
@[simp] theorem Safe.flush (qn n : Nat) : Safe (s.flush qn n) := by
  induction n generalizing s with
  | zero => exact safe
  | succ n ih =>
    unfold State.flush
    split
    · exact safe
    · dsimp only
      split
      · exact ih (safe.endHead ..)
      · exact ih (Safe.endHead (safe.of_mem (by simp)) ..)
@[simp] theorem Safe.refuseChild (c r i : Nat) (rra : W64) (code idx : Nat) :
    Safe (s.refuseChild c r i rra code idx) := by
  dsimp only [State.refuseChild]; split <;> simp [safe]
@[simp] theorem Safe.outWrite (c : Nat) (l : List OutPiece) (data : List Byte) (tag : Byte × Byte × Byte)
    (wid : BitVec 12) :
    Safe (s.outWrite c l data tag wid) :=
  foldl_safe (fun s p safe => by dsimp only; (repeat' split) <;> simp [safe]) _ safe

/-! #### Records of Seif and Erg, atomics, replies and snapshots -/

@[simp] theorem Safe.writeRec (id : Nat) (o : FOp) (rg : Region) (base : W64) : Safe (s.writeRec id o rg base) := by
  dsimp only [State.writeRec]; (repeat' split) <;> simp [safe]
@[simp] theorem Safe.ergRecord (r : Nat) (rg : Region) (c : ErgCmd) (w : W64) : Safe (s.ergRecord r rg c w) := by
  dsimp only [State.ergRecord]; (repeat' split) <;> simp [safe]
@[simp] theorem Safe.amoAt (r c pa n : Nat) (release uchk writes : Bool) (new : Nat) :
    Safe (s.amoAt r c pa n release uchk writes new) := by
  dsimp only [State.amoAt]; (repeat' split) <;> simp [safe]
@[simp] theorem Safe.deliver (id : Nat) : Safe (s.deliver id) := by
  dsimp only [State.deliver]; (repeat' split) <;> simp [safe]
@[simp] theorem Safe.deliverAll (r : Nat) : Safe (s.deliverAll r) :=
  foldl_safe (fun s e safe => by split <;> simp [safe]) _ safe
@[simp] theorem Safe.beginSnap (r : Nat) (why : Preempt) : Safe (s.beginSnap r why) := by
  unfold State.beginSnap
  split
  · exact safe
  · exact Safe.drainAll (foldl_safe (fun s p safe => by split <;> simp [safe]) _ safe) ..
@[simp] theorem Safe.resumeMember (r : Nat) : Safe (s.resumeMember r) := by
  dsimp only [State.resumeMember]; (repeat' split) <;> simp [safe]

/-! #### Fetching -/

@[simp] theorem Safe.fetchAfter (r pg : Nat) (rg : Region) (q : Seq) : Safe (s.fetchAfter r pg rg q) := by
  dsimp only [State.fetchAfter]; (repeat' split) <;> simp [safe]
@[simp] theorem Safe.fetch (r pg : Nat) (rg : Region) (q : Seq) : Safe (s.fetch r pg rg q).1 := by
  dsimp only [State.fetch]; (repeat' split) <;> simp [safe]
end
end Sys2Proof

/-! ### Memory keeps its form: instructions of a sequencer -/
namespace Sys2Proof.Machine
open Sys2Proof

/-- The outcome of a turn keeps the form of memory. -/
def SafeOut : Out → Prop
  | .next s => Safe s
  | _ => True

/-- The effect of an instruction, where it has one, keeps the form of memory. -/
def SafeTry : Except TrapRec State → Prop
  | .ok s => Safe s
  | .error _ => True

@[simp] theorem safeOut_next (s : State) : SafeOut (.next s) ↔ Safe s := Iff.rfl
@[simp] theorem safeOut_fault (f : Fault) : SafeOut (.fault f) := trivial
@[simp] theorem safeOut_refused (r : Refusal) : SafeOut (.refused r) := trivial
@[simp] theorem safeTry_ok (s : State) : SafeTry (.ok s) ↔ Safe s := Iff.rfl
@[simp] theorem safeTry_error (t : TrapRec) : SafeTry (.error t) := trivial

/-- A sequencer's instruction keeps the form of memory where its effect does; a trap, a false guard and a repair leave
memory alone. -/
theorem runSeq_safe {len : Nat} {g : Guard} {src : List Reg} {s : State} {k : Run → Except TrapRec State}
    (safe : Safe s)
    (keeps : ∀ v : Run, Safe v.s → SafeTry (k v)) : SafeOut (runSeq len g src s k) := by
  unfold runSeq
  split
  · split
    · trivial
    · split
      · trivial
      · dsimp only
        split
        · simpa using safe
        · split
          · simpa using safe
          · split
            · next done_ => exact (congrArg SafeTry done_).mp (keeps _ (by simpa using safe))
            · split <;> simpa using safe
  · trivial

theorem runRegs_safe {len : Nat} {g : Guard} {src : List Reg} {s : State} {k : Seq → Seq} (safe : Safe s) :
    SafeOut (runRegs len g src s k) :=
  runSeq_safe safe fun v safe => by simpa using safe

/-- What a BARTEST acquires where its phase has passed: the tag of the object and those of the arrivals (R402). -/
def Run.barAcquire (v : Run) (ph : W64) (pa : Nat) (uchk : Bool) (old : W64) (s : State) : State :=
  if !barPassed ph old then s
  else ((if uchk then {} else (s.sideAt (sectorOf pa)).tag) :: s.arrived pa ph).foldl (fun s t => s.acquire v.r t) s

theorem Run.barAcquire_mem (v : Run) (ph : W64) (pa : Nat) (uchk : Bool) (old : W64) (s : State) :
    (v.barAcquire ph pa uchk old s).mem = s.mem := by
  unfold Run.barAcquire
  split
  · rfl
  · exact foldl_mem _ _ _ fun s t => s.acquire_mem ..

section Runs
variable {v : Run} (safe : Safe v.s)
include safe

@[simp] theorem Run.drained_safe : Safe v.drained.s := safe.drain ..
@[simp] theorem Run.settled_safe (va : W64) (n : Nat) : Safe (v.settled va n).s := by
  unfold Run.settled; split <;> simp [safe]
theorem Run.putStore_safe {va : W64} {l : List Byte} {rel sys raw : Bool} {w : Run}
    (put : v.putStore va l rel sys raw = .ok w) : Safe w.s := by
  unfold Run.putStore at put
  split at put
  · cases put
  · split at put
    · cases put
    · cases put; simp [safe]
  · cases put
    dsimp only
    split <;> simp [safe]
@[simp] theorem Run.store_safe (va : W64) (l : List Byte) : Safe (v.store va l) := by
  have settled := Run.settled_safe safe va l.length
  dsimp only [Run.store]
  split
  · split <;> simpa using settled
  · next put => simpa using Run.putStore_safe settled put
theorem snapFrom_safe (base : W64) (i : Nat) (l : List W64) : Safe (snapFrom base i l v).1.s := by
  induction l generalizing i v with
  | nil => exact safe
  | cons x l ih =>
    have settled := Run.settled_safe safe (base + w64 (8 * i)) 8
    dsimp only [snapFrom]
    split
    · exact settled
    · next put => exact ih (Run.putStore_safe settled put) _

@[simp] theorem Run.bound_safe (p : PReg) (b n x : Nat) : Safe (v.bound p b n x) := by simpa using safe
@[simp] theorem Run.doRun_safe (p : PReg) (trips : List Nat) : Safe (v.doRun p trips) := by
  dsimp only [Run.doRun]; split <;> simp [safe]
@[simp] theorem Run.accept_safe (d : Reg) (eq : Nat) (op : EngOp) (desc : List W64) : Safe (v.accept d eq op desc) := by
  simp [Run.accept, safe]
@[simp] theorem Run.refuse_safe (d : Reg) (code : Nat) : SafeTry (v.refuse d code) := by simp [Run.refuse, safe]
@[simp] theorem Run.cfgCode_safe (d : Reg) (code : Nat) : Safe (v.cfgCode d code) := by simp [Run.cfgCode, safe]
@[simp] theorem Run.cfgAt_safe (d : Reg) (va : W64) (lp : Option (W64 × Nat × Nat)) : SafeTry (v.cfgAt d va lp) := by
  unfold Run.cfgAt; (repeat' split) <;> simp [safe]
@[simp] theorem Run.cfg_safe (d : Reg) (va : W64) : SafeTry (v.cfg d va) := by
  unfold Run.cfg; (repeat' split) <;> simp [safe]
@[simp] theorem Run.cfgList_safe (d : Reg) (va : W64) : SafeTry (v.cfgList d va) := by
  unfold Run.cfgList; (repeat' split) <;> simp [safe]
@[simp] theorem Run.cfgstep_safe (d : Reg) (step : Int) : SafeTry (v.cfgstep d step) := by
  dsimp only [Run.cfgstep]; (repeat' split) <;> simp [safe]
@[simp] theorem Run.pin_safe (d : Reg) (base len : W64) : SafeTry (v.pin d base len) := by
  dsimp only [Run.pin]; (repeat' split) <;> simp [safe]
@[simp] theorem Run.unpin_safe (d : Reg) (base len : W64) : SafeTry (v.unpin d base len) := by
  dsimp only [Run.unpin]; (repeat' split) <;> simp [safe]
@[simp] theorem Run.placeCmd_safe (d : Reg) (q : BitVec 3) (op : EngOp) (base len : W64) :
    SafeTry (v.placeCmd d q op base len) := by
  unfold Run.placeCmd; (repeat' split) <;> simp [safe]
@[simp] theorem Run.issue_safe (d : Reg) (a : W64) (op : EngOp) : SafeTry (v.issue d a op) := by
  unfold Run.issue; (repeat' split) <;> simp [safe]
@[simp] theorem Run.ergPut_safe (d : Reg) (op : ErgOp) (desc : List W64) : SafeTry (v.ergPut d op desc) := by
  dsimp only [Run.ergPut]; split <;> simp [safe]
@[simp] theorem Run.ergIssue_safe (d : Reg) (a : W64) (op : ErgOp) : SafeTry (v.ergIssue d a op) := by
  unfold Run.ergIssue; (repeat' split) <;> simp [safe]
@[simp] theorem Run.ergWords_safe (d : Reg) (op : ErgOp) (l : List W64) : SafeTry (v.ergWords d op l) := by
  unfold Run.ergWords; split <;> simp [safe]
@[simp] theorem Run.eeval_safe (d : Reg) (x : W64) (nsl pstr : Nat) : SafeTry (v.eeval d x nsl pstr) := by
  unfold Run.eeval; (repeat' split) <;> simp [safe]
@[simp] theorem Run.jump_safe (t : W64) (q : Seq) : SafeTry (v.jump t q) := by
  unfold Run.jump; split <;> simp [safe]
@[simp] theorem Run.testseq_safe (p : PReg) (ea val : W64) (len : Nat) : SafeTry (v.testseq p ea val len) := by
  dsimp only [Run.testseq]; (repeat' split) <;> simp [safe]

theorem Run.dwStep_safe (a : W64) (k : AccK) (rel : Option (W64 → Bool)) (f : W64 → Seq → DwStep)
    {acq : Nat → Bool → W64 → State → State} (w : Nat → SeqWait)
    (leaves : ∀ pa uchk old s, (acq pa uchk old s).mem = s.mem) : SafeTry (v.dwStep a k rel f acq w) := by
  have drained := Run.drained_safe safe
  dsimp only [Run.dwStep]
  (repeat' split) <;> simp [drained, leaves]
@[simp] theorem Run.chaint_safe (p : PReg) (a x : W64) (len : Nat) : SafeTry (v.chaint p a x len) :=
  v.dwStep_safe safe _ _ _ _ _ fun _ _ _ _ => rfl
@[simp] theorem Run.barinit_safe (p : PReg) (a n : W64) (len : Nat) : SafeTry (v.barinit p a n len) :=
  v.dwStep_safe safe _ _ _ _ _ fun _ _ _ _ => rfl
@[simp] theorem Run.bararr_safe (d : Reg) (a : W64) (len : Nat) : SafeTry (v.bararr d a len) :=
  v.dwStep_safe safe _ _ _ _ _ fun _ _ _ _ => by split <;> rfl
@[simp] theorem Run.bartest_safe (p : PReg) (a ph : W64) (len : Nat) : SafeTry (v.bartest p a ph len) :=
  v.dwStep_safe (acq := v.barAcquire ph) safe _ _ _ _ _ (v.barAcquire_mem ph)
@[simp] theorem Run.qpush_safe (d : Reg) (n : Nat) (a : W64) : SafeTry (v.qpush d n a) := by
  have drained := Run.drained_safe safe
  dsimp only [Run.qpush]
  (repeat' split) <;> simp [drained]
  next pushed => simpa [State.push_mem pushed] using drained
@[simp] theorem Run.qpop_safe (p : PReg) (n : Nat) (a : W64) (len : Nat) : SafeTry (v.qpop p n a len) := by
  have drained := Run.drained_safe safe
  dsimp only [Run.qpop]
  split
  · trivial
  · split
    · trivial
    · split
      · simp [drained]
      · split
        · simp [drained]
        · next taken =>
          have kept := drained.takeRec taken
          split <;> simp [kept]
@[simp] theorem Run.qseq_safe (issued : Bool) (d : Reg) (n : Nat) : SafeTry (v.qseq issued d n) := by
  unfold Run.qseq; split <;> simp [safe]
@[simp] theorem Run.vdecl_safe (rd : Reg) (a t : W64) (vid : Option Nat) : SafeTry (v.vdecl rd a t vid) := by
  dsimp only [Run.vdecl]; (repeat' split) <;> simp [safe]
@[simp] theorem Run.tresume_safe (p : PReg) (t : W64) (skip : Bool) : Safe (v.tresume p t skip) := by
  have drained := Run.drained_safe safe
  dsimp only [Run.tresume]
  split
  · simp [drained]
  · next m _ => cases m.rec_ <;> simpa using drained
@[simp] theorem Run.spawnFail_safe (p : PReg) (f : Nat) : SafeTry (v.spawnFail p f) := by simp [Run.spawnFail, safe]
end Runs

end Sys2Proof.Machine

/-! ### Memory keeps its form: engines -/
namespace Sys2Proof.Machine
open Sys2Proof

/-- An element of an engine command at work: the state it has reached and the one it goes back to keep the form of memory. -/
structure EngSafe (e : Eng) : Prop where
  now : Safe e.s
  before : Safe e.base

/-- What an engine's move comes to keeps the form of memory; `eng` says which engine is still at work. -/
def MoveSafe {α : Type} (eng : α → Eng) : EngM α → Prop
  | .ok x => EngSafe (eng x)
  | .error s => Safe s

@[simp] theorem moveSafe_ok {α : Type} (eng : α → Eng) (x : α) : MoveSafe eng (.ok x) ↔ EngSafe (eng x) := Iff.rfl
@[simp] theorem moveSafe_error {α : Type} (eng : α → Eng) (s : State) : MoveSafe eng (.error s) ↔ Safe s := Iff.rfl

theorem MoveSafe.of_ok {α : Type} {eng : α → Eng} {m : EngM α} {x : α} (safe : MoveSafe eng m) (moved : m = .ok x) :
    EngSafe (eng x) := by subst moved; exact safe
theorem MoveSafe.of_error {α : Type} {eng : α → Eng} {m : EngM α} {s : State} (safe : MoveSafe eng m)
    (ended : m = .error s) : Safe s := by subst ended; exact safe

/-- An engine in another state of the machine. -/
theorem EngSafe.state {e e' : Eng} (safe : EngSafe e) (now : Safe e'.s) (before : e'.base = e.base) : EngSafe e' :=
  ⟨now, before ▸ safe.before⟩

theorem EngSafe.same {e e' : Eng} (safe : EngSafe e) (now : e'.s.mem = e.s.mem := by rfl)
    (before : e'.base = e.base := by rfl) : EngSafe e' :=
  ⟨safe.now.of_mem now, before ▸ safe.before⟩

@[simp] theorem engSafe_ite (c : Prop) [Decidable c] (e e' : Eng) :
    EngSafe (if c then e else e') ↔ if c then EngSafe e else EngSafe e' := by split <;> rfl

/-! #### What an engine does without memory -/

section Plain
variable (e : Eng)

theorem engSafe_same {e e' : Eng} (now : e'.s.mem = e.s.mem) (before : e'.base = e.base) : EngSafe e' ↔ EngSafe e :=
  ⟨fun safe => ⟨safe.now.of_mem now.symm, before ▸ safe.before⟩,
    fun safe => ⟨safe.now.of_mem now, before ▸ safe.before⟩⟩

@[simp] theorem engSafe_cmd (c : Cmd) : EngSafe ⟨e.r, e.q, e.rg, c, e.s, e.base⟩ ↔ EngSafe e := engSafe_same rfl rfl
@[simp] theorem Eng.finish_safe (st : Nat) : EngSafe (e.finish st) ↔ EngSafe e := engSafe_same rfl rfl
@[simp] theorem Eng.note_safe (st : Nat) : EngSafe (e.note st) ↔ EngSafe e := engSafe_same rfl rfl
@[simp] theorem Eng.upd_safe (f : Region → Region) : EngSafe (e.upd f) ↔ EngSafe e := engSafe_same rfl rfl
@[simp] theorem Eng.take_safe (p : Nat) : EngSafe (e.take p) ↔ EngSafe e := engSafe_same rfl rfl
@[simp] theorem Eng.takeEos_safe (p : Nat) : EngSafe (e.takeEos p) ↔ EngSafe e := engSafe_same rfl rfl
@[simp] theorem Eng.counted_safe (n b : Nat) : EngSafe (e.counted n b) ↔ EngSafe e := engSafe_same rfl rfl
@[simp] theorem Eng.dropped_safe (n st : Nat) : EngSafe (e.dropped n st) ↔ EngSafe e := engSafe_same rfl rfl
@[simp] theorem Eng.nextRow_safe : EngSafe e.nextRow ↔ EngSafe e := engSafe_same rfl rfl
@[simp] theorem Eng.owe_safe (sb : Nat) (n : Nat × Nat) : EngSafe (e.owe sb n) ↔ EngSafe e := engSafe_same rfl rfl
@[simp] theorem Eng.paid_safe (sb : Nat) : EngSafe (e.paid sb) ↔ EngSafe e := engSafe_same rfl rfl
@[simp] theorem Eng.arrived_safe (sb : Nat) : EngSafe (e.arrived sb) ↔ EngSafe e := engSafe_same rfl rfl
@[simp] theorem Eng.arrive_safe (a : W64) (l : List Byte) (n : Nat × Nat) : EngSafe (e.arrive a l n) ↔ EngSafe e :=
  engSafe_same rfl rfl
@[simp] theorem Eng.filledUp_safe : EngSafe e.filledUp ↔ EngSafe e := engSafe_same rfl rfl
@[simp] theorem Eng.saveOld_safe (a : W64) (read : Nat) (l : List (Byte × Bool)) :
    EngSafe (e.saveOld a read l) ↔ EngSafe e := engSafe_same rfl rfl
@[simp] theorem Eng.nextUnit_safe : EngSafe e.nextUnit ↔ EngSafe e := by unfold Eng.nextUnit; split <;> simp
@[simp] theorem Eng.start_safe : EngSafe e.start ↔ EngSafe e := by unfold Eng.start; split <;> simp
@[simp] theorem Eng.tagSector_safe (sb : W64) (l : List (Byte × Bool)) (tag : TagW) :
    EngSafe (e.tagSector sb l tag) ↔ EngSafe e := by
  unfold Eng.tagSector; split
  · exact engSafe_same rfl rfl
  · rfl
@[simp] theorem Eng.mcastOut_safe (j : Nat) (l : List Token) : EngSafe (e.mcastOut j l) ↔ EngSafe e := by
  dsimp only [Eng.mcastOut]; (repeat' split) <;> exact engSafe_same rfl rfl
end Plain

section Moves
variable {e : Eng} (safe : EngSafe e)
include safe

/-! #### Reading -/

theorem Eng.target_safe (va : W64) (k : AccK) : MoveSafe (·.2) (e.target va k) := by
  unfold Eng.target
  dsimp only
  (repeat' split) <;> simp [safe.now, safe.before]
  exact ⟨by simpa using safe.now, safe.before⟩
theorem Eng.readFlat_safe (va : W64) (n : Nat) : MoveSafe (·.2) (e.readFlat va n) := by
  unfold Eng.readFlat
  split
  · next ended => exact (Eng.target_safe safe _ _).of_error ended
  · next found => simpa using (Eng.target_safe safe _ _).of_ok found
  · next found =>
    have e1 := (Eng.target_safe safe _ _).of_ok found
    split
    · split
      · simpa using e1
      · exact e1.state e1.now rfl
    · simpa using e1.now
theorem Eng.read_safe (bank : Bool) (va : W64) (n : Nat) : MoveSafe (·.2) (e.read bank va n) := by
  unfold Eng.read
  split
  · split
    · exact safe
    · exact safe.now
  · exact Eng.readFlat_safe safe va n
theorem Eng.checkFmt_safe (va : W64) (k : AccK) (decl : Nat) : MoveSafe id (e.checkFmt va k decl) := by
  unfold Eng.checkFmt
  split
  · next ended => exact (Eng.target_safe safe _ _).of_error ended
  · next found =>
    have e1 := (Eng.target_safe safe _ _).of_ok found
    split
    · exact e1
    · simpa using e1.now
  · next found => exact (Eng.target_safe safe _ _).of_ok found
/-- The format check that a flat typed access makes first. -/
theorem Eng.maybeCheck_safe (c : Prop) [Decidable c] (va : W64) (k : AccK) (decl : Nat) :
    MoveSafe id (if c then .ok e else e.checkFmt va k decl) := by
  split
  · exact safe
  · exact Eng.checkFmt_safe safe ..

theorem Eng.lineToks_safe (a : W64) : MoveSafe id (e.lineToks a) := by
  unfold Eng.lineToks
  dsimp only
  split
  · simpa using safe.now
  · simpa using safe.now
  · split <;> simpa using safe
theorem Eng.sloadLine_safe : MoveSafe id e.sloadLine := by
  unfold Eng.sloadLine
  dsimp only
  split
  · exact Eng.lineToks_safe safe _
  · split
    · next ended => exact (Eng.read_safe safe _ _ _).of_error ended
    · next got =>
      have e1 := (Eng.read_safe safe _ _ _).of_ok got
      split
      · exact e1.now
      · simpa using e1
theorem Eng.sload_safe : MoveSafe id e.sload := by
  unfold Eng.sload
  dsimp only
  split
  · exact safe
  · split
    · simpa using safe
    · split
      · split <;> simpa using safe
      · split
        · exact Eng.sloadLine_safe safe
        · split
          · next ended => exact (Eng.maybeCheck_safe safe _ _ _ _).of_error ended
          · next checked =>
            have e1 := (Eng.maybeCheck_safe safe _ _ _ _).of_ok checked
            split
            · next ended => exact (Eng.read_safe e1 _ _ _).of_error ended
            · next got =>
              have e2 := (Eng.read_safe e1 _ _ _).of_ok got
              split
              · exact e2.now
              · split <;> split <;> simpa using e2


/-! #### Writing -/

theorem Eng.writeFlat_safe (va : W64) (l : List Byte) (bad : Bool) (tag : TagW) :
    MoveSafe id (e.writeFlat va l bad tag) := by
  unfold Eng.writeFlat
  split
  · next ended => exact (Eng.target_safe safe _ _).of_error ended
  · next found =>
    have e1 := (Eng.target_safe safe _ _).of_ok found
    have now := e1.now
    refine e1.state ?_ rfl
    (repeat' split) <;> simp [now]
  · next found =>
    have e1 := (Eng.target_safe safe _ _).of_ok found
    exact e1.state (by simpa using e1.now) rfl
theorem Eng.write_safe (bank : Bool) (va : W64) (l : List Byte) (bad : Bool) (tag : TagW) :
    MoveSafe id (e.write bank va l bad tag) := by
  unfold Eng.write
  split
  · split
    · simpa using safe
    · simpa using safe.now
  · exact Eng.writeFlat_safe safe ..
omit safe in
/-- Moves in a row: each goes on from the engine that the one before left. -/
theorem moves_safe {α : Type} {f : EngM Eng → α → EngM Eng} (ended : ∀ s a, f (.error s) a = .error s)
    (moves : ∀ e a, EngSafe e → MoveSafe id (f (.ok e) a)) (l : List α) {m : EngM Eng} (safe : MoveSafe id m) :
    MoveSafe id (l.foldl f m) := by
  induction l generalizing m with
  | nil => exact safe
  | cons a l ih =>
    refine ih ?_
    cases m with
    | error s => rw [ended]; exact safe
    | ok e => exact moves e a safe
theorem Eng.putBytes_safe (bank : Bool) (a : W64) (l : List (Byte × Bool)) (tag : TagW) :
    MoveSafe id (e.putBytes bank a l tag) := by
  unfold Eng.putBytes
  dsimp only
  split
  · exact Eng.write_safe safe ..
  · split
    · split
      · next ended => exact (Eng.write_safe safe ..).of_error ended
      · next put => simpa using (Eng.write_safe safe ..).of_ok put
    · split
      · exact moves_safe (fun _ _ => rfl) (fun e a safe => Eng.writeFlat_safe safe ..) _ (by simpa using safe)
      · split
        · next ended => exact (Eng.writeFlat_safe safe ..).of_error ended
        · next put _ =>
          have e1 := (Eng.writeFlat_safe safe ..).of_ok put
          exact e1.same (foldl_mem _ _ _ fun s x => s.pokeBad_mem ..) rfl
        · next put _ => simpa using (Eng.writeFlat_safe safe ..).of_ok put
theorem Eng.unitOf_safe (bank : Bool) (f : Nat) (a : W64) (ts : List Token) :
    MoveSafe (·.2) (e.unitOf bank f a ts) := by
  unfold Eng.unitOf
  split
  · exact safe
  · split
    · exact safe
    · split
      · next ended => exact (Eng.read_safe safe ..).of_error ended
      · next got =>
        have e1 := (Eng.read_safe safe ..).of_ok got
        split
        · split <;> exact e1.now.of_mem rfl
        · exact e1
omit safe in
theorem countIf_safe {m : EngM Eng} (safe : MoveSafe id m) (n : Nat × Nat) : MoveSafe id (countIf n m) := by
  unfold countIf
  split
  · exact safe
  · simpa using safe
theorem Eng.writeRuns_safe (l : Assoc (Byte × Bool)) : MoveSafe id (e.writeRuns l) :=
  moves_safe (fun _ _ => rfl) (fun _ _ safe => Eng.writeFlat_safe safe ..) _ safe
theorem Eng.writeCut_safe (sb : Nat) : MoveSafe id (e.writeCut sb) := by
  unfold Eng.writeCut
  split
  · next ended => exact (Eng.checkFmt_safe safe ..).of_error ended
  · next checked =>
    have e1 := (Eng.checkFmt_safe safe ..).of_ok checked
    split
    · next ended => exact (Eng.writeRuns_safe e1 _).of_error ended
    · next put => simpa using (Eng.writeRuns_safe e1 _).of_ok put
theorem Eng.writeDue_safe (sb k : Nat) : MoveSafe id (e.writeDue sb k) := by
  unfold Eng.writeDue
  dsimp only
  split
  · next ended => exact (Eng.writeRuns_safe safe _).of_error ended
  · next put =>
    have e1 := (Eng.writeRuns_safe safe _).of_ok put
    split
    · simpa using e1
    · split <;> simpa using e1
theorem Eng.putNow_safe (bank : Bool) (a : W64) (l : List Byte) (n : Nat × Nat) :
    MoveSafe id (e.putNow bank a l n) := by
  unfold Eng.putNow
  split
  · exact safe
  · split
    · exact countIf_safe (Eng.write_safe safe ..) n
    · split
      · next ended => exact (Eng.checkFmt_safe safe ..).of_error ended
      · next checked => exact countIf_safe (Eng.writeFlat_safe ((Eng.checkFmt_safe safe ..).of_ok checked) ..) n
theorem Eng.putUnit_safe (bank : Bool) (a : W64) (l : List Byte) (n : Nat × Nat) :
    MoveSafe id (e.putUnit bank a l n) := by
  unfold Eng.putUnit
  split
  · exact Eng.putNow_safe safe ..
  · dsimp only
    split <;> simpa using safe
theorem Eng.noteIf_safe (c : Prop) [Decidable c] (st : Nat) : EngSafe (if c then e.note st else e) := by
  split <;> simpa using safe
theorem Eng.noteUnless_safe (c : Prop) [Decidable c] (st : Nat) : EngSafe (if c then e else e.note st) := by
  split <;> simpa using safe
theorem Eng.tagIf_safe (c : Prop) [Decidable c] (sb : W64) (l : List (Byte × Bool)) (tag : TagW) :
    EngSafe (if c then e.tagSector sb l tag else e) := by
  split <;> simpa using safe
theorem Eng.putLine_safe (bank : Bool) : MoveSafe id (e.putLine bank) := by
  unfold Eng.putLine
  dsimp only
  have noted := Eng.noteIf_safe safe (e.c.toks.any (·.psn) = true) 3
  generalize (if e.c.toks.any (·.psn) = true then e.note 3 else e) = e at noted ⊢
  split
  · simpa using noted.now
  · split
    · next ended => exact (Eng.putBytes_safe noted ..).of_error ended
    · next put =>
      have e1 := (Eng.putBytes_safe noted ..).of_ok put
      split
      · exact (Eng.tagIf_safe e1 ..).same
      · exact (Eng.tagIf_safe e1 ..).same
theorem Eng.putElem_safe (t : Token) : MoveSafe id (e.putElem t) := by
  unfold Eng.putElem
  dsimp only
  have noted := Eng.noteIf_safe safe (t.psn = true) 3
  generalize (if t.psn = true then e.note 3 else e) = e at noted ⊢
  split
  · simpa using noted
  · split
    · split
      · simpa using noted
      · split
        · next ended => exact (Eng.unitOf_safe noted ..).of_error ended
        · next unit =>
          have e1 := (Eng.unitOf_safe noted ..).of_ok unit
          split
          · next ended => exact (Eng.putUnit_safe e1 ..).of_error ended
          · next put => simpa using (Eng.putUnit_safe e1 ..).of_ok put
    · split
      · next ended => exact (Eng.putUnit_safe noted ..).of_error ended
      · next put => simpa using (Eng.putUnit_safe noted ..).of_ok put
theorem Eng.flush_safe {m : EngM Eng} (left : e.flush = some m) : MoveSafe id m := by
  unfold Eng.flush at left
  dsimp only at left
  split at left
  · injection left with left
    subst left
    split
    · next ended => exact (Eng.read_safe safe ..).of_error ended
    · next got =>
      have e1 := (Eng.read_safe safe ..).of_ok got
      split
      · simpa using e1.now
      · split
        · next ended =>
          split at ended
          · exact (Eng.putNow_safe e1 ..).of_error ended
          · cases ended
        · next put =>
          split at put
          · simpa using (Eng.putNow_safe e1 ..).of_ok put
          · cases put; simpa using e1
  · split at left
    · cases left
    · injection left with left
      subst left
      exact Eng.writeCut_safe safe _
theorem Eng.putTaken_safe (t : Token) (p : Nat) :
    MoveSafe id (match e.putElem t with
      | .error s => .error s
      | .ok e => .ok (e.take p)) := by
  split
  · next ended => exact (Eng.putElem_safe safe t).of_error ended
  · next put => simpa using (Eng.putElem_safe safe t).of_ok put
theorem Eng.sstore_safe : MoveSafe id e.sstore := by
  unfold Eng.sstore
  dsimp only
  split
  · exact Eng.writeDue_safe safe ..
  · split
    · exact Eng.putLine_safe safe _
    · split
      · split
        · simpa using safe
        · exact Eng.putElem_safe safe _
      · split
        · split <;> simpa using safe
        · split
          · (repeat' split) <;> simpa using safe
          · split
            · split
              · simpa using safe
              · split
                · next left => exact Eng.flush_safe safe left
                · simpa using safe
            · split
              · split
                · simpa using safe
                · split
                  · simpa using safe
                  · split
                    · exact Eng.putElem_safe safe _
                    · exact Eng.putTaken_safe safe ..
              · exact Eng.putTaken_safe safe ..

/-! #### Copies and tables -/

theorem Eng.fill_safe (bank : Bool) (src : W64) (n : Nat) : MoveSafe id (e.fill bank src n) := by
  unfold Eng.fill
  dsimp only
  split
  · next ended => exact (Eng.read_safe safe ..).of_error ended
  · next got =>
    have e1 := (Eng.read_safe safe ..).of_ok got
    split
    · simpa using e1.now
    · simpa using e1
theorem Eng.putPart_safe (a : W64) (l : List (Byte × Bool)) : MoveSafe (·.2) (e.putPart a l) := by
  unfold Eng.putPart
  dsimp only
  split
  · exact safe
  · split
    · next ended => exact (Eng.putBytes_safe safe ..).of_error ended
    · next put => exact (Eng.putBytes_safe safe ..).of_ok put
theorem Eng.copy_safe : MoveSafe id e.copy := by
  unfold Eng.copy
  dsimp only
  split
  · simpa using safe
  · split
    · exact Eng.fill_safe safe ..
    · split
      · next ended =>
        split at ended
        · split at ended
          · next put => cases ended; exact (Eng.putBytes_safe safe ..).of_error put
          · cases ended
        · exact (Eng.putPart_safe safe ..).of_error ended
      · next put =>
        split at put
        · split at put
          · cases put
          · next put1 => cases put; exact ((Eng.putBytes_safe safe ..).of_ok put1).same
        · exact ((Eng.putPart_safe safe ..).of_ok put).same
theorem Eng.emit_safe (b : Byte) : MoveSafe id (e.emit b) := by
  unfold Eng.emit
  dsimp only
  split
  · exact safe
  · split
    · split
      · simpa using safe
      · split
        · next ended => exact (Eng.write_safe safe ..).of_error ended
        · next put => simpa using (Eng.write_safe safe ..).of_ok put
    · split
      · next ended => exact (Eng.write_safe safe ..).of_error ended
      · next put => simpa using (Eng.write_safe safe ..).of_ok put
theorem Eng.decode_safe : MoveSafe id e.decode := by
  unfold Eng.decode
  dsimp only
  split
  · simpa using safe
  · split
    · split
      · next ended => exact (Eng.emit_safe safe _).of_error ended
      · next put => simpa using (Eng.emit_safe safe _).of_ok put
    · split
      · split
        · next ended => exact (Eng.read_safe safe ..).of_error ended
        · next got =>
          have e1 := (Eng.read_safe safe ..).of_ok got
          split
          · simpa using e1.now
          · simpa using e1
      · (repeat' split) <;> simpa using safe
theorem Eng.cpy_safe : MoveSafe id e.cpy := by
  unfold Eng.cpy
  split
  · exact Eng.decode_safe safe
  · exact Eng.copy_safe safe
theorem Eng.etbl_safe : MoveSafe id e.etbl := by
  unfold Eng.etbl
  dsimp only
  split
  · simpa using safe
  · split
    · next ended => exact (Eng.readFlat_safe safe ..).of_error ended
    · next got =>
      have e1 := (Eng.readFlat_safe safe ..).of_ok got
      split
      · simpa using e1.now
      · split <;> simpa using e1
theorem Eng.xpose_safe : MoveSafe id e.xpose := by
  unfold Eng.xpose
  dsimp only
  split
  · simpa using safe
  · split
    · split
      · next ended => exact (Eng.read_safe safe ..).of_error ended
      · next got =>
        have e1 := (Eng.read_safe safe ..).of_ok got
        split
        · simpa using e1.now
        · simpa using e1
    · split
      · next ended => exact (Eng.putBytes_safe safe ..).of_error ended
      · next put =>
        have e1 := (Eng.putBytes_safe safe ..).of_ok put
        split
        · simpa using e1
        · have e2 := fun n sb l tag => (Eng.tagSector_safe _ sb l tag).mpr ((Eng.counted_safe _ 0 n).mpr e1)
          (repeat' split) <;> exact (e2 ..).same

/-! #### Gather, scatter, multicast, placement -/

theorem Eng.index_safe : MoveSafe id e.index := by
  unfold Eng.index
  dsimp only
  split
  · next ended => exact (Eng.read_safe safe ..).of_error ended
  · next got =>
    have e1 := (Eng.read_safe safe ..).of_ok got
    (repeat' split) <;> simpa using e1
theorem Eng.tableUnit_safe : MoveSafe (·.2) e.tableUnit := by
  unfold Eng.tableUnit
  dsimp only
  split
  · exact safe
  · split
    · exact safe
    · split
      · next ended => exact (Eng.maybeCheck_safe safe ..).of_error ended
      · next checked =>
        have e1 := (Eng.maybeCheck_safe safe ..).of_ok checked
        split
        · next ended => exact (Eng.readFlat_safe e1 ..).of_error ended
        · next got =>
          have e2 := (Eng.readFlat_safe e1 ..).of_ok got
          split
          · simpa using e2
          · simp only [moveSafe_ok]
            split <;> simpa using e2
theorem Eng.gather_safe : MoveSafe id e.gather := by
  unfold Eng.gather
  dsimp only
  split
  · exact safe
  · split
    · split <;> simpa using safe
    · split
      · simpa using safe
      · split
        · exact Eng.index_safe safe
        · split
          · next ended => exact (Eng.tableUnit_safe safe).of_error ended
          · next got =>
            have e1 := (Eng.tableUnit_safe safe).of_ok got
            split
            · simpa using e1
            · split
              · simpa using e1
              · split
                · next ended => exact (Eng.write_safe e1 ..).of_error ended
                · next put => simpa using (Eng.write_safe e1 ..).of_ok put
theorem Eng.apply_safe (l : List Byte) (k : Nat) : MoveSafe id (e.apply l k) := by
  unfold Eng.apply
  dsimp only
  split
  · next ended => exact (Eng.maybeCheck_safe safe ..).of_error ended
  · next checked =>
    have e1 := (Eng.maybeCheck_safe safe ..).of_ok checked
    split
    · split
      · next ended => exact (Eng.writeFlat_safe e1 ..).of_error ended
      · next put => simpa using (Eng.writeFlat_safe e1 ..).of_ok put
    · split
      · next ended => exact (Eng.target_safe e1 _ _).of_error ended
      · next found =>
        have e2 := (Eng.target_safe e1 _ _).of_ok found
        exact e2.same (State.sendRemote_mem ..) rfl
      · next found =>
        have e2 := (Eng.target_safe e1 _ _).of_ok found
        split
        · simpa using e2
        · exact e2.state ((e2.now.write ..).of_mem rfl) rfl
/-- A unit of a row is applied, and the engine goes on to the next. -/
theorem Eng.applyNext_safe (l : List Byte) (k : Nat) :
    MoveSafe id (match e.apply l k with
      | .error s => .error s
      | .ok e => .ok e.nextUnit) := by
  split
  · next ended => exact (Eng.apply_safe safe ..).of_error ended
  · next put => simpa using (Eng.apply_safe safe ..).of_ok put
theorem Eng.scatter_safe : MoveSafe id e.scatter := by
  unfold Eng.scatter
  dsimp only
  split
  · simpa using safe
  · split
    · split
      · exact safe
      · split
        · split <;> simpa using safe
        · simpa using safe
    · split
      · exact Eng.index_safe safe
      · split
        · simpa using safe
        · split
          · split
            · simpa using safe
            · split
              · next ended => exact (Eng.unitOf_safe (Eng.noteUnless_safe safe ..) ..).of_error ended
              · next unit => exact Eng.applyNext_safe ((Eng.unitOf_safe (Eng.noteUnless_safe safe ..) ..).of_ok unit) ..
          · split
            · next ended => exact (Eng.read_safe safe ..).of_error ended
            · next got =>
              have e1 := (Eng.read_safe safe ..).of_ok got
              split
              · simpa using e1
              · split
                · simpa using e1
                · exact Eng.applyNext_safe e1 ..
theorem Eng.mcastAll_safe (l : List (Nat × List Token)) :
    EngSafe (l.foldl (fun (e : Eng) (b : Nat × List Token) => e.mcastOut b.1 b.2) e) := by
  induction l generalizing e with
  | nil => exact safe
  | cons b l ih => exact ih (by simpa using safe)
theorem Eng.mcast_safe : MoveSafe id e.mcast := by
  unfold Eng.mcast
  dsimp only
  have sent := Eng.mcastAll_safe safe e.c.mbuf
  split
  · rw [moveSafe_ok]; split
    · exact sent.same
    · exact sent
  · (repeat' split) <;> simpa using sent
theorem Eng.place_safe : MoveSafe id e.place := by
  unfold Eng.place
  dsimp only
  split
  · simpa using safe
  · split
    · next ended => exact (Eng.target_safe safe _ _).of_error ended
    · next found => simpa using (Eng.target_safe safe _ _).of_ok found

/-! #### Chains, and the element at hand -/

theorem Eng.chainDw_safe (a : W64) {k : Eng → W64 → EngM Eng} (goesOn : ∀ e x, EngSafe e → MoveSafe id (k e x)) :
    MoveSafe id (e.chainDw a k) := by
  unfold Eng.chainDw
  split
  · simpa using safe.now
  · split
    · next ended => exact (Eng.readFlat_safe safe ..).of_error ended
    · next got =>
      have e1 := (Eng.readFlat_safe safe ..).of_ok got
      split
      · simpa using e1.now
      · split
        · simpa using e1.now
        · exact goesOn _ _ e1
theorem Eng.chainNext_safe (l : W64) : MoveSafe id (e.chainNext l) :=
  Eng.chainDw_safe safe l fun e x safe => by (repeat' split) <;> simpa using safe
theorem Eng.chain_safe : MoveSafe id e.chain := by
  unfold Eng.chain
  split
  · simpa using safe
  · split
    · exact safe
    · split
      · exact Eng.chainNext_safe safe _
      · exact Eng.chainDw_safe safe _ fun e x safe => by dsimp only; (repeat' split) <;> simpa using safe
theorem Eng.settleRemote_safe : EngSafe e.settleRemote := by
  unfold Eng.settleRemote
  have start : EngSafe { e with c := { e.c with sent := [] } } := by simpa using safe
  generalize ({ e with c := { e.c with sent := [] } } : Eng) = e0 at start
  induction e.c.sent generalizing e0 with
  | nil => exact start
  | cons id l ih =>
    refine ih _ ?_
    dsimp only
    split
    · exact start
    · have taken : EngSafe { e0 with s := { e0.s with remotes := e0.s.remotes.del id } } := start.state start.now rfl
      (repeat' split) <;> simpa using taken
theorem Eng.move_safe : MoveSafe id e.move := by
  unfold Eng.move
  split
  · exact Eng.sload_safe safe
  · exact Eng.sstore_safe safe
  · exact Eng.cpy_safe safe
  · exact Eng.etbl_safe safe
  · exact Eng.xpose_safe safe
  · exact Eng.gather_safe safe
  · exact Eng.scatter_safe safe
  · exact Eng.mcast_safe safe
  · exact Eng.chain_safe safe
  · exact Eng.place_safe safe
  · exact Eng.place_safe safe
omit safe in
theorem EngM.run_safe {m : EngM Eng} (safe : MoveSafe id m) : SafeOut (EngM.run m) := by
  cases m with
  | ok e => simpa [EngM.run] using safe.now
  | error s => exact safe
theorem Eng.element_safe : SafeOut e.element := by
  unfold Eng.element
  split
  · exact safe.now
  · dsimp only
    have settled := Eng.settleRemote_safe safe
    split
    · simpa using settled.now
    · exact EngM.run_safe (Eng.move_safe settled)
theorem Eng.complete_safe : Safe e.complete := by
  have now := safe.now
  unfold Eng.complete
  dsimp only
  generalize (if e.c.link.isSome = true then e.c.outer else e.c.desc) = d
  split
  · simpa using now
  · split
    · split <;> simp [now]
      exact now.of_mem rfl
    · split
      · exact safe.before
      · split <;> simp [now]
    · simpa using now
end Moves

theorem State.engAt_safe {s : State} {r q : Nat} {e : Eng} (safe : Safe s) (at_ : s.engAt r q = some e) :
    EngSafe e := by
  unfold State.engAt at at_
  split at at_
  · cases at_
  · split at at_
    · cases at_
    · obtain ⟨c, -, rfl⟩ := Option.map_eq_some_iff.mp at_
      exact ⟨safe, safe⟩
end Sys2Proof.Machine

/-! ### Memory keeps its form: nodes, merges and children -/
namespace Sys2Proof.Machine
open Sys2Proof

/-! #### What a node performs -/

/-- Where a node's position goes on, the node's state keeps the form of memory. -/
def SafeNd : Option Nd → Prop
  | none => True
  | some d => Safe d.s

/-- A check of a position keeps the form of memory; `nd` says which node goes on. -/
def ReachSafe {α : Type} (goesOn : α → Prop) : Except (Option Nd) α → Prop
  | .ok x => goesOn x
  | .error o => SafeNd o

@[simp] theorem safeNd_none : SafeNd none := trivial
@[simp] theorem safeNd_some (d : Nd) : SafeNd (some d) ↔ Safe d.s := Iff.rfl
@[simp] theorem reachSafe_ok {α : Type} (goesOn : α → Prop) (x : α) : ReachSafe goesOn (.ok x) ↔ goesOn x := Iff.rfl
@[simp] theorem reachSafe_error {α : Type} (goesOn : α → Prop) (o : Option Nd) :
    ReachSafe goesOn (.error o) ↔ SafeNd o :=
  Iff.rfl

theorem ReachSafe.of_ok {α : Type} {goesOn : α → Prop} {m : Except (Option Nd) α} {x : α} (safe : ReachSafe goesOn m)
    (reached : m = .ok x) : goesOn x := by subst reached; exact safe
theorem ReachSafe.of_error {α : Type} {goesOn : α → Prop} {m : Except (Option Nd) α} {o : Option Nd}
    (safe : ReachSafe goesOn m) (ended : m = .error o) : SafeNd o := by subst ended; exact safe

theorem ReachSafe.map {α β : Type} {P : α → Prop} {Q : β → Prop} {m : Except (Option Nd) α} (safe : ReachSafe P m)
    {f : α → β} (goesOn : ∀ x, P x → Q (f x)) : ReachSafe Q (m.map f) := by
  cases m with
  | ok x => exact goesOn x safe
  | error o => exact safe

theorem Leaves.safeNd {mem : List Host.Cell} {o : Option Nd} (leaves : Leaves mem o) (safe : Memory.wf mem = true) :
    SafeNd o := by
  cases o with
  | none => trivial
  | some d => rw [safeNd_some, safe_iff, (leaves_some mem d).mp leaves]; exact safe

section Nodes
variable {d : Nd} (safe : Safe d.s)
include safe

theorem Nd.trapPos_safe (i cause : Nat) (eaddr einfo : W64) : SafeNd (d.trapPos i cause eaddr einfo) :=
  (Nd.trapPos_leaves rfl ..).safeNd safe
theorem Nd.placeAt_safe (i : Nat) (p : MemPos) (va : W64) : ReachSafe (fun x => Safe x.2.s) (d.placeAt i p va) := by
  unfold Nd.placeAt
  dsimp only
  split
  · split
    · exact Nd.trapPos_safe safe ..
    · exact safe
  · split
    · split
      · exact Nd.trapPos_safe safe ..
      · simp [safe]
    · rw [reachSafe_ok]; split <;> simp [safe]
    · simp [safe]
theorem Nd.checkAt_safe (i : Nat) (p : MemPos) (va : W64) (x : MemPlace) :
    ReachSafe (fun _ => True) (d.checkAt i p va x) := by
  unfold Nd.checkAt
  dsimp only
  (repeat' split) <;> simp [Nd.trapPos_safe safe]
theorem Nd.placesOf_safe (i : Nat) (p : MemPos) (n k : Nat) :
    ReachSafe (fun x => Safe x.2.s) (Nd.placesOf i p n k d) := by
  induction n generalizing k d with
  | zero => exact safe
  | succ n ih =>
    dsimp only [Nd.placesOf]
    split
    · next ended => exact (Nd.placeAt_safe safe ..).of_error ended
    · next placed =>
      have s1 := (Nd.placeAt_safe safe ..).of_ok placed
      split
      · next ended => exact (Nd.checkAt_safe s1 ..).of_error ended
      · split
        · next ended => exact (ih s1 _).of_error ended
        · next placed =>
          have s2 := (ih s1 _).of_ok placed
          exact s2
theorem Nd.reach_safe (i : Nat) (p : MemPos) : ReachSafe (fun x => Safe x.2.s) (d.reach i p) := by
  unfold Nd.reach
  split
  · exact Nd.trapPos_safe safe ..
  · exact Nd.placesOf_safe safe ..
theorem Nd.atHome_safe (i : Nat) (p : MemPos) (pa : Nat) (uchk : Bool) : Safe (d.atHome i p pa uchk).s := by
  unfold Nd.atHome
  dsimp only
  split
  · split <;> simp [safe]
  · (repeat' split) <;> simp [safe]
  all_goals (repeat' split) <;> simp [safe]
/-- The place at hand of a position whose access has begun, checked once more. -/
theorem Nd.recheck_safe (i : Nat) (p : MemPos) (va : W64) (x : MemPlace) :
    ReachSafe (fun y => Safe y.2.s) ((d.checkAt i p va x).map (fun _ => (p.places, d))) :=
  (Nd.checkAt_safe safe i p va x).map fun _ _ => safe
theorem Nd.performPos_safe (i : Nat) : SafeNd (d.performPos i) := by
  unfold Nd.performPos
  split
  · trivial
  · split
    · trivial
    · dsimp only
      split
      · next ended =>
        split at ended
        · exact (Nd.reach_safe safe ..).of_error ended
        · split at ended
          · cases ended; trivial
          · exact (Nd.recheck_safe safe ..).of_error ended
      · next reached =>
        have s1 := by
          split at reached
          · exact (Nd.reach_safe safe ..).of_ok reached
          · split at reached
            · cases reached
            · exact (Nd.recheck_safe safe ..).of_ok reached
        dsimp only at s1
        split
        · trivial
        · simpa using s1
        · simpa using Nd.atHome_safe s1 ..
        · simpa using s1
omit safe in
theorem Nd.loop_leaves {d : Nd} {n : Nat} {f : Nd → Option Nd} (leaves : ∀ d, Leaves d.s.mem (f d)) (d0 : Nd) :
    (d0.fired (Nd.loop d0 n f d)).done.mem = d.s.mem := by
  rw [Nd.done_memory, Nd.fired_mem, Nd.loop_mem leaves]
end Nodes

theorem runNode_safe {v : NodeV} {s : State} {f : Nd → Option Nd} (safe : Safe s) (leaves : ∀ d, Leaves d.s.mem (f d)) :
    SafeOut (runNode v s f) := by
  unfold runNode
  split
  · split
    · trivial
    · split
      · trivial
      · exact safe.of_mem (Nd.loop_leaves leaves _)
  · trivial

/-! #### View merges -/

/-- An element's access that goes on, or ends the merge's turn, keeps the form of memory. -/
def MergeSafe {α : Type} (mw : α → Mw) : MergeM α → Prop
  | .ok x => Safe (mw x).s
  | .error s => Safe s

@[simp] theorem mergeSafe_ok {α : Type} (mw : α → Mw) (x : α) : MergeSafe mw (.ok x) ↔ Safe (mw x).s := Iff.rfl
@[simp] theorem mergeSafe_error {α : Type} (mw : α → Mw) (s : State) : MergeSafe mw (.error s) ↔ Safe s := Iff.rfl

theorem MergeSafe.of_ok {α : Type} {mw : α → Mw} {m : MergeM α} {x : α} (safe : MergeSafe mw m) (went : m = .ok x) :
    Safe (mw x).s := by subst went; exact safe
theorem MergeSafe.of_error {α : Type} {mw : α → Mw} {m : MergeM α} {s : State} (safe : MergeSafe mw m)
    (ended : m = .error s) : Safe s := by subst ended; exact safe

section Merges
variable {w : Mw} (safe : Safe w.s)
include safe

theorem Mw.target_safe (va : W64) (k : AccK) : MergeSafe (·.2) (w.target va k) := by
  unfold Mw.target
  split
  · split <;> simpa using safe
  · split <;> simpa using safe
theorem Mw.read_safe (target : Bool) (i : Nat) : MergeSafe (·.2) (w.read target i) := by
  unfold Mw.read
  dsimp only
  split
  · (repeat' split) <;> simpa using safe
  · split
    · next ended => exact (Mw.target_safe safe _ _).of_error ended
    · next found =>
      have s1 := (Mw.target_safe safe _ _).of_ok found
      (repeat' split) <;> simpa using s1
    · next found =>
      have s1 := (Mw.target_safe safe _ _).of_ok found
      (repeat' split) <;> simpa using s1
  · simpa using safe
theorem Mw.write_safe (val : Nat) : MergeSafe id (w.write val) := by
  unfold Mw.write
  dsimp only
  split
  · simpa using safe
  · split
    · next ended => exact (Mw.target_safe safe _ _).of_error ended
    · next found =>
      have s1 := (Mw.target_safe safe _ _).of_ok found
      simp [s1]
    · next found =>
      have s1 := (Mw.target_safe safe _ _).of_ok found
      simpa using s1
  · simpa using safe
@[simp] theorem Mw.put_safe (val : Nat) (f : Flags) : Safe (w.put val f) := by
  unfold Mw.put
  have owing : Safe ({ w with m := { w.m with owe := f } } : Mw).s := safe
  split
  · next ended => exact (Mw.write_safe owing _).of_error ended
  · next put => simpa using (Mw.write_safe owing _).of_ok put
@[simp] theorem Mw.combineOne_safe : Safe w.combineOne := by
  unfold Mw.combineOne
  split
  · next ended => exact (Mw.read_safe safe ..).of_error ended
  · next got =>
    have s1 := (Mw.read_safe safe ..).of_ok got
    split
    · next ended => exact (Mw.read_safe s1 ..).of_error ended
    · next got => exact Mw.put_safe ((Mw.read_safe s1 ..).of_ok got) ..
theorem Mw.feedOper_safe (cr : Region) (id : Nat) : Safe (w.feedOper cr id) := by
  unfold Mw.feedOper
  dsimp only
  split
  · simpa using safe
  · split
    · simpa using safe
    · split
      · simpa using safe
      · split
        · next ended =>
          split
          · exact (Mw.read_safe safe ..).of_error ended
          · simpa using safe
        · next got =>
          have s1 := (Mw.read_safe safe ..).of_ok got
          split
          · next ended =>
            split
            · exact (Mw.read_safe s1 ..).of_error ended
            · simpa using safe
          · next got => simpa using (Mw.read_safe s1 ..).of_ok got
@[simp] theorem Mw.custom_safe : Safe w.custom := by
  unfold Mw.custom
  dsimp only
  split
  · split <;> simpa using safe
  · split
    · simpa using safe
    · split
      · simpa using safe
      · split
        · simpa using safe
        · split
          · split
            · exact Mw.feedOper_safe safe ..
            · split <;> simpa using safe
          · (repeat' split) <;> simp [safe]
end Merges

theorem State.mergeAt_s {s : State} {r : Nat} {w : Mw} (at_ : s.mergeAt r = some w) : w.s = s := by
  unfold State.mergeAt at at_
  (repeat' split at at_) <;> cases at_
  rfl

/-! #### Children -/

theorem Making.own_safe {m n : Making} (safe : Safe m.s) {rg : Region} {dune v : Nat} {w : View}
    (made : m.own rg dune v w = some n) : Safe n.s := by
  unfold Making.own at made
  dsimp only at made
  split at made
  all_goals
    split at made
    · cases made; exact safe
    · split at made
      · cases made
      · next found => cases made; exact safe.newView found
theorem Making.acc_safe {m n : Making} (safe : Safe m.s) {rg : Region} {v : Nat} {w : View}
    (made : m.acc rg v w = some n) : Safe n.s := by
  unfold Making.acc at made
  split at made
  · cases made; exact safe
  · split at made
    · cases made
    · next found => cases made; exact safe.newView found
/-- Views made one after the other. -/
theorem makings_safe {α : Type} {f : Making → α → Option Making} (makes : ∀ m n a, Safe m.s → f m a = some n → Safe n.s)
    (l : List α) {o : Option Making} (safe : ∀ m, o = some m → Safe m.s) {n : Making}
    (made : l.foldl (fun (o : Option Making) a => o.bind (f · a)) o = some n) : Safe n.s := by
  induction l generalizing o with
  | nil => exact safe n made
  | cons a l ih =>
    refine ih (fun m found => ?_) made
    obtain ⟨m', from_, step⟩ := Option.bind_eq_some_iff.mp found
    exact makes m' m a (safe m' from_) step
theorem makeViews_safe {s : State} (safe : Safe s) {rg : Region} {vb : Bool} {vbank : Nat} {vs : List (Nat × View)}
    {m : Making} (made : makeViews s rg vb vbank vs = some m) : Safe m.s :=
  makings_safe (fun _ _ _ safe made => Making.acc_safe safe made) vs
    (fun _ made => makings_safe (fun _ _ _ safe made => Making.own_safe safe made) vs
      (fun _ start => by cases start; exact safe) made) made
@[simp] theorem Run.spawnChild_safe (v : Run) (p : PReg) (d : List W64) {m : Making} (safe : Safe m.s) :
    Safe (v.spawnChild p d m) := by
  simpa [Run.spawnChild] using safe
@[simp] theorem Run.spawn_safe {v : Run} (safe : Safe v.s) (p : PReg) (a : W64) : SafeTry (v.spawn p a) := by
  have drained := Run.drained_safe safe
  dsimp only [Run.spawn]
  (repeat' split) <;> simp [drained]
  next made => exact Run.spawnChild_safe _ _ _ (makeViews_safe drained made)

/-! #### Ports, groups and power -/

theorem State.closeIn_mem {s t : State} {r n : Nat} {rg : Region} (closed : s.closeIn r rg n = some t) :
    t.mem = s.mem := by
  unfold State.closeIn at closed
  split at closed <;> cases closed
  rfl
theorem State.cancelPort_mem {s t : State} {r n : Nat} {rg : Region} (done_ : s.cancelPort r rg n = some t) :
    t.mem = s.mem := by
  unfold State.cancelPort at done_
  split at done_ <;> cases done_
  rfl
theorem State.cancelQueue_mem {s t : State} {r n : Nat} (done_ : s.cancelQueue r n = some t) : t.mem = s.mem := by
  unfold State.cancelQueue at done_
  split at done_ <;> cases done_
  rfl
theorem Run.sclose_safe {v : Run} (safe : Safe v.s) (p : PReg) {x : Option State}
    (leaves : ∀ t, x = some t → t.mem = v.s.mem) : Safe (v.sclose p x) := by
  unfold Run.sclose
  split
  · simpa using safe
  · simpa [leaves _ rfl] using safe

theorem State.placeAll_mem {s t : State} {aff : Nat} {set : Nat → Bool} {ctr fresh : Bool} {l : List Nat}
    (placed : s.placeAll aff set ctr fresh l = some t) : t.mem = s.mem := by
  induction l generalizing s with
  | nil => cases placed; rfl
  | cons r l ih =>
    unfold State.placeAll at placed
    split at placed
    · cases placed
    · split at placed
      · exact ih placed
      · dsimp only at placed
        split at placed
        · cases placed
        · rw [ih placed, State.updRg_mem, State.takePlace_mem]
          (repeat' split) <;> rfl
theorem State.placeGroup_mem {s t : State} {gid dies : Nat} {g : Group} (placed : s.placeGroup gid g dies = some t) :
    t.mem = s.mem := by
  unfold State.placeGroup at placed
  dsimp only at placed
  split at placed
  · cases placed
  · obtain ⟨u, all, rfl⟩ := Option.map_eq_some_iff.mp placed
    have same := State.placeAll_mem all
    exact same
theorem State.firstStart_mem {s t : State} {x : Rank} (first : s.firstStart = some (x, some t)) : t.mem = s.mem := by
  obtain ⟨y, -, starts⟩ := List.mem_filterMap.mp (List.mem_of_head? first)
  split at starts
  · cases starts
  · obtain ⟨u, placed, same⟩ := Option.map_eq_some_iff.mp starts
    cases same
    exact State.placeGroup_mem placed
theorem State.unplaced_mem {s t : State} {aff : Nat} {set : Nat → Bool} {l : List Nat} {rg : Region}
    (left : s.unplaced aff set l = some (rg, t)) : t.mem = s.mem := by
  induction l generalizing s with
  | nil => cases left
  | cons r l ih =>
    unfold State.unplaced at left
    split at left
    · cases left
    · split at left
      · exact ih left
      · split at left
        · cases left; rfl
        · rw [ih left, State.takePlace_mem]
theorem State.startGroup_safe {s t : State} (safe : Safe s) (same : t.mem = s.mem) (x : Rank) (gid : Nat) :
    Safe (s.startGroup x gid t) := by
  unfold State.startGroup
  (repeat' split) <;> simpa [same] using safe
theorem State.receive_mem {s t : State} {v : Via} (got : s.receive v = some t) : t.mem = s.mem := by
  unfold State.receive at got
  dsimp only at got
  (repeat' split at got) <;> cases got
  all_goals rfl
@[simp] theorem State.delivered_mem (s : State) (v : Via) (i : Instr) : (s.delivered v i).1.mem = s.mem := by
  unfold State.delivered
  split
  · next got =>
    have same := State.receive_mem got
    dsimp only
    (repeat' split) <;> simp [same]
  · rfl

/-- A powered-off or reset device holds no memory. -/
@[simp] theorem State.powerOn_safe (s : State) (x : Security) : Safe (s.powerOn x) := rfl
@[simp] theorem State.shutDown_safe (s : State) (l : List TeleRec) : Safe (s.shutDown l) := by
  dsimp only [State.shutDown]; split <;> rfl
end Sys2Proof.Machine

/-! ### Memory keeps its form: every instruction and event -/
namespace Sys2Proof.Machine
open Sys2Proof

/-! #### The shapes of an arm -/

section Shapes
variable {s : State} (safe : Safe s)
include safe

theorem portEvent_safe (n : Nat) (f : Port → Option Port) : SafeOut (portEvent n s f) := by
  unfold portEvent; (repeat' split) <;> simp [safe]
theorem spdm_safe {k : State → State} (keeps : Safe (k s)) : SafeOut (spdm s k) := by
  unfold spdm; (repeat' split) <;> simp [safe, keeps]
theorem lifecycleReq_safe (f : Security → Option Security) : SafeOut (lifecycleReq s f) :=
  spdm_safe safe (by split <;> simp [safe])
theorem devCmd_safe {op : Nat} {fits : Msg → Bool} {m : Msg} {k : State → State} (keeps : Safe (k s)) :
    SafeOut (devCmd op fits m s k) := by
  unfold devCmd; (repeat' split) <;> simp [safe, keeps]
theorem portCmd_safe {op : Nat} {m : Msg} {k : State → Nat → Port → State} (keeps : ∀ n p, Safe (k s n p)) :
    SafeOut (portCmd op m s k) :=
  devCmd_safe safe (by split <;> simp [safe, keeps])
theorem ctxCmd_safe {op : Nat} {win lost : Bool} {fits : Msg → Bool} {m : Msg} {k : State → Nat → Ctx → State}
    (keeps : ∀ c x, Safe (k s c x)) : SafeOut (ctxCmd op win lost fits m s k) := by
  dsimp only [ctxCmd]; (repeat' split) <;> simp [safe, keeps]
theorem queueCmd_safe {op : Nat} {win : Bool} {n : Nat} {m : Msg} {k : State → Nat → Queue → State}
    (keeps : ∀ qn q, Safe (k s qn q)) : SafeOut (queueCmd op win n m s k) :=
  ctxCmd_safe safe fun c x => by dsimp only; (repeat' split) <;> simp [safe, keeps]

omit safe in
/-- A group placed, or not. -/
theorem State.placed_mem (gid dies : Nat) (g : Group) {t : State} (same : t.mem = s.mem) :
    ((t.placeGroup gid g dies).getD s).mem = s.mem := by
  cases placed : t.placeGroup gid g dies with
  | none => rfl
  | some u => exact (State.placeGroup_mem placed).trans same

/-! #### Events whose argument needs more than its frame -/

@[simp] theorem execFibreOpComplete_safe (id : Nat) : SafeOut (execFibreOpComplete id s) := by
  dsimp only [execFibreOpComplete]
  (repeat' split) <;> simp [safe]
  next at_ _ => simpa [State.nodeAt_s at_] using safe
@[simp] theorem execAccessPerformed_safe (w : AccessWho) : SafeOut (execAccessPerformed w s) := by
  dsimp only [execAccessPerformed]
  (repeat' split) <;> simp [safe]
  next at_ _ _ _ performed =>
    exact (performed ▸ Nd.performPos_safe (safe.of_mem (congrArg State.mem (State.nodeAt_s at_))) _ : SafeNd (some _))

@[simp] theorem execEngineCommandStart_safe (r q : Nat) : SafeOut (execEngineCommandStart r q s) := by
  dsimp only [execEngineCommandStart]
  split
  · exact safe
  · next at_ =>
    have e := State.engAt_safe safe at_
    split
    · exact safe
    · simpa using ((Eng.start_safe _).mpr e).now
@[simp] theorem execChainHoldReread_safe (r q : Nat) : SafeOut (execChainHoldReread r q s) := by
  dsimp only [execChainHoldReread]
  split
  · exact safe
  · next at_ =>
    have e := State.engAt_safe safe at_
    split
    · split
      · exact safe
      · exact EngM.run_safe (Eng.chainNext_safe e _)
    · exact safe
@[simp] theorem execEngineElement_safe (r q : Nat) : SafeOut (execEngineElement r q s) := by
  dsimp only [execEngineElement]
  split
  · exact safe
  · next at_ => exact Eng.element_safe (State.engAt_safe safe at_)
@[simp] theorem execEngineCommandComplete_safe (r q : Nat) : SafeOut (execEngineCommandComplete r q s) := by
  dsimp only [execEngineCommandComplete]
  split
  · exact safe
  · next at_ =>
    have settled := Eng.settleRemote_safe (State.engAt_safe safe at_)
    split
    · exact safe
    · split
      · simpa using settled.now
      · split
        · exact settled.now.of_mem rfl
        · exact Eng.complete_safe settled
@[simp] theorem execMcastDetach_safe (r q j : Nat) : SafeOut (execMcastDetach r q j s) := by
  dsimp only [execMcastDetach]
  split
  · exact safe
  · next at_ =>
    have now := (State.engAt_safe safe at_).now
    (repeat' split) <;> simpa using by assumption

@[simp] theorem execViewMergeElement_safe (r : Nat) : SafeOut (execViewMergeElement r s) := by
  dsimp only [execViewMergeElement]
  split
  · exact safe
  · next at_ =>
    have now := safe.of_mem (congrArg State.mem (State.mergeAt_s at_))
    (repeat' split) <;> simp [now]

@[simp] theorem execGroupAdmit_safe (gid : Nat) : SafeOut (execGroupAdmit gid s) := by
  dsimp only [execGroupAdmit]
  (repeat' split) <;> simp [safe]
  next placed => exact State.startGroup_safe (by simpa using safe) (State.placeGroup_mem placed) ..
@[simp] theorem execLoadComplete_safe (gid : Nat) : SafeOut (execLoadComplete gid s) := by
  dsimp only [execLoadComplete]
  have retired := fun (c i : Nat) (l : List Nat) (t : State) (safe : Safe t) =>
    foldl_safe (f := fun (s : State) r => s.retire r 1 c i) (fun s r safe => safe.retire ..) l safe
  (repeat' split) <;> simp [safe]
  all_goals exact retired _ _ _ _ (by simpa using safe)
@[simp] theorem execPreemptRequest_safe (gid : Nat) (why : Preempt) : SafeOut (execPreemptRequest gid why s) := by
  dsimp only [execPreemptRequest]
  (repeat' split) <;> simp [safe]
  exact foldl_safe (fun s e safe => safe.beginSnap ..) _ safe
@[simp] theorem execGroupRestore_safe (gid : Nat) : SafeOut (execGroupRestore gid s) := by
  dsimp only [execGroupRestore]
  (repeat' split) <;> simp [safe, State.placed_mem]
@[simp] theorem execRestoreComplete_safe (gid : Nat) (bad : Bool) : SafeOut (execRestoreComplete gid bad s) := by
  dsimp only [execRestoreComplete]
  (repeat' split) <;> simp [safe]
  exact foldl_safe (fun s e safe => safe.resumeMember ..) _ (by simpa using safe)
@[simp] theorem execLinkEnable_safe (port : Nat) : SafeOut (execLinkEnable port s) := by
  unfold execLinkEnable
  split
  · exact safe
  · exact portEvent_safe safe _ _

/-! #### Events that their frames settle -/

@[simp] theorem execFibreOpArrive_safe (id : Nat) : SafeOut (execFibreOpArrive id s) := by
  dsimp only [execFibreOpArrive]; (repeat' split) <;> simp [safe]
@[simp] theorem execScanSegmentDone_safe (id : Nat) : SafeOut (execScanSegmentDone id s) := by
  dsimp only [execScanSegmentDone]; (repeat' split) <;> simp [safe]
@[simp] theorem execFaultRetry_safe (id : Nat) : SafeOut (execFaultRetry id s) := by
  dsimp only [execFaultRetry]; (repeat' split) <;> simp [safe]
@[simp] theorem execFetchFault_safe (f : FetchErr) : SafeOut (execFetchFault f s) := by
  dsimp only [execFetchFault]; (repeat' split) <;> simp [safe]
@[simp] theorem execAsyncTrapTaken_safe (r : Nat) : SafeOut (execAsyncTrapTaken r s) := by
  dsimp only [execAsyncTrapTaken]; (repeat' split) <;> simp [safe]
@[simp] theorem execBudgetExpire_safe (r pg : Nat) : SafeOut (execBudgetExpire r pg s) := by
  dsimp only [execBudgetExpire]; (repeat' split) <;> simp [safe]
@[simp] theorem execDispatchDecision_safe : SafeOut (execDispatchDecision s) := by
  dsimp only [execDispatchDecision]; (repeat' split) <;> simp [safe]
@[simp] theorem execQueueCommandComplete_safe (qn seq : Nat) : SafeOut (execQueueCommandComplete qn seq s) :=
  safe.recStage ..
@[simp] theorem execLinkEqualisation_safe (port : Nat) : SafeOut (execLinkEqualisation port s) := safe
@[simp] theorem execErgCommandStart_safe (r : Nat) (load : Bool) : SafeOut (execErgCommandStart r load s) := by
  dsimp only [execErgCommandStart]; (repeat' split) <;> simp [safe]
@[simp] theorem execErgCommandComplete_safe (r : Nat) : SafeOut (execErgCommandComplete r s) := by
  dsimp only [execErgCommandComplete]; (repeat' split) <;> simp [safe]
@[simp] theorem execErgClearDone_safe (core : Nat) : SafeOut (execErgClearDone core s) := by
  dsimp only [execErgClearDone]; (repeat' split) <;> simp [safe]
@[simp] theorem execErgRestoreDone_safe (core : Nat) : SafeOut (execErgRestoreDone core s) := by
  dsimp only [execErgRestoreDone]; (repeat' split) <;> simp [safe]
@[simp] theorem execErgSaveDone_safe (core : Nat) (bad : Bool) : SafeOut (execErgSaveDone core bad s) := by
  dsimp only [execErgSaveDone]; (repeat' split) <;> simp [safe]
@[simp] theorem execSleepExpiry_safe (r pg : Nat) : SafeOut (execSleepExpiry r pg s) := by
  dsimp only [execSleepExpiry]; (repeat' split) <;> simp [safe]
@[simp] theorem execViewMergeStart_safe (r : Nat) : SafeOut (execViewMergeStart r s) := by
  dsimp only [execViewMergeStart]; (repeat' split) <;> simp [safe]
@[simp] theorem execViewMergeComplete_safe (r : Nat) : SafeOut (execViewMergeComplete r s) := by
  dsimp only [execViewMergeComplete]; (repeat' split) <;> simp [safe]
@[simp] theorem execChildPlaced_safe (r i : Nat) : SafeOut (execChildPlaced r i s) := by
  dsimp only [execChildPlaced]; (repeat' split) <;> simp [safe]
@[simp] theorem execRemoteAck_safe (id : Nat) (value : W64) : SafeOut (execRemoteAck id value s) := by
  dsimp only [execRemoteAck]; (repeat' split) <;> simp [safe]
@[simp] theorem execRemoteRetryExhausted_safe (id : Nat) : SafeOut (execRemoteRetryExhausted id s) := by
  dsimp only [execRemoteRetryExhausted]; (repeat' split) <;> simp [safe]
@[simp] theorem execConfigDrained_safe (r : Nat) : SafeOut (execConfigDrained r s) := by
  dsimp only [execConfigDrained]; (repeat' split) <;> simp [safe]
@[simp] theorem execResidencyRetire_safe (r : Nat) : SafeOut (execResidencyRetire r s) := by
  dsimp only [execResidencyRetire]; (repeat' split) <;> simp [safe]
@[simp] theorem execCloneWindow_safe (r b n : Nat) : SafeOut (execCloneWindow r b n s) := by
  dsimp only [execCloneWindow]; (repeat' split) <;> simp [safe]
@[simp] theorem execCloneDissolve_safe (r : Nat) : SafeOut (execCloneDissolve r s) := by
  dsimp only [execCloneDissolve]; (repeat' split) <;> simp [safe]
@[simp] theorem execNodeSnapshotSave_safe (r b n : Nat) : SafeOut (execNodeSnapshotSave r b n s) := by
  dsimp only [execNodeSnapshotSave]; (repeat' split) <;> simp [safe]
@[simp] theorem execHaboobQuiescence_safe (r : Nat) : SafeOut (execHaboobQuiescence r s) := by
  dsimp only [execHaboobQuiescence]; (repeat' split) <;> simp [safe]
@[simp] theorem execSnapshotComplete_safe (gid : Nat) (bad : Bool) : SafeOut (execSnapshotComplete gid bad s) := by
  dsimp only [execSnapshotComplete]; (repeat' split) <;> simp [safe]
@[simp] theorem execClaimMove_safe : SafeOut (execClaimMove s) := by
  dsimp only [execClaimMove]; (repeat' split) <;> simp [safe]
@[simp] theorem execRemapRequest_safe (core page pos : Nat) : SafeOut (execRemapRequest core page pos s) := by
  dsimp only [execRemapRequest]; (repeat' split) <;> simp [safe]
@[simp] theorem execRemapComplete_safe (core page : Nat) : SafeOut (execRemapComplete core page s) := by
  dsimp only [execRemapComplete]; (repeat' split) <;> simp [safe]
@[simp] theorem execContextTeardownDone_safe (c : Nat) : SafeOut (execContextTeardownDone c s) := by
  dsimp only [execContextTeardownDone]; (repeat' split) <;> simp [safe]
@[simp] theorem execCtxSyncDone_safe (c : Nat) : SafeOut (execCtxSyncDone c s) := by
  dsimp only [execCtxSyncDone]; (repeat' split) <;> simp [safe]
@[simp] theorem execRmaWrite_safe (x : Rma) (data : List Byte) : SafeOut (execRmaWrite x data s) := by
  dsimp only [execRmaWrite]; (repeat' split) <;> simp [safe]
@[simp] theorem execRmaRead_safe (x : Rma) (len : Nat) : SafeOut (execRmaRead x len s) := by
  dsimp only [execRmaRead]; (repeat' split) <;> simp [safe]
@[simp] theorem execRmaAtomic_safe (x : Rma) (op : Aop) (wide : Bool) (v cmp : W64) :
    SafeOut (execRmaAtomic x op wide v cmp s) := by
  dsimp only [execRmaAtomic]; (repeat' split) <;> simp [safe]
@[simp] theorem execUnsupportedPacket_safe (port : Nat) : SafeOut (execUnsupportedPacket port s) := by
  dsimp only [execUnsupportedPacket]; (repeat' split) <;> simp [safe]
@[simp] theorem execContractBudgetExhaust_safe (cid core : Nat) : SafeOut (execContractBudgetExhaust cid core s) := by
  dsimp only [execContractBudgetExhaust]; (repeat' split) <;> simp [safe]
@[simp] theorem execContractWindowExpire_safe (cid : Nat) : SafeOut (execContractWindowExpire cid s) := by
  dsimp only [execContractWindowExpire]; (repeat' split) <;> simp [safe]
omit safe in
@[simp] theorem execColdReset_safe : SafeOut (execColdReset s) := rfl
@[simp] theorem execWarmReset_safe : SafeOut (execWarmReset s) := by
  dsimp only [execWarmReset]; (repeat' split) <;> simp [safe]
@[simp] theorem execBootImagePacket_safe (off : Nat) (data : List Byte) (last : Bool) :
    SafeOut (execBootImagePacket off data last s) := by
  dsimp only [execBootImagePacket]; (repeat' split) <;> simp [safe]
@[simp] theorem execPowerStateEnter_safe (core : Nat) : SafeOut (execPowerStateEnter core s) := by
  dsimp only [execPowerStateEnter]; (repeat' split) <;> simp [safe]
@[simp] theorem execPowerStateWake_safe (core : Nat) : SafeOut (execPowerStateWake core s) := by
  dsimp only [execPowerStateWake]; (repeat' split) <;> simp [safe]
@[simp] theorem execThermalSensing_safe (temps : List Int) : SafeOut (execThermalSensing temps s) := by
  dsimp only [execThermalSensing]; (repeat' split) <;> simp [safe]
omit safe in
@[simp] theorem execSupplyFault_safe : SafeOut (execSupplyFault s) :=
  State.shutDown_safe ..
@[simp] theorem execHbmPatrolScrub_safe (stack sector : Nat) : SafeOut (execHbmPatrolScrub stack sector s) := by
  dsimp only [execHbmPatrolScrub]; (repeat' split) <;> simp [safe]
@[simp] theorem execSramScrub_safe (core : Nat) : SafeOut (execSramScrub core s) := by
  dsimp only [execSramScrub]; (repeat' split) <;> simp [safe]
@[simp] theorem execHbmRetraining_safe (stack : Nat) : SafeOut (execHbmRetraining stack s) := by
  dsimp only [execHbmRetraining]; (repeat' split) <;> simp [safe]
@[simp] theorem execHbmRetrainingDone_safe (stack : Nat) : SafeOut (execHbmRetrainingDone stack s) := safe
@[simp] theorem execHbmRowRepair_safe (stack row : Nat) : SafeOut (execHbmRowRepair stack row s) := by
  dsimp only [execHbmRowRepair]; (repeat' split) <;> simp [safe]
@[simp] theorem execHbmRowRepairDone_safe (stack row : Nat) : SafeOut (execHbmRowRepairDone stack row s) := by
  dsimp only [execHbmRowRepairDone]; (repeat' split) <;> simp [safe]
@[simp] theorem execTelemetryRecord_safe : SafeOut (execTelemetryRecord s) := by
  dsimp only [execTelemetryRecord]; (repeat' split) <;> simp [safe]
@[simp] theorem execMonitorNotice_safe (core sector : Nat) : SafeOut (execMonitorNotice core sector s) := by
  dsimp only [execMonitorNotice]; (repeat' split) <;> simp [safe]
@[simp] theorem execWatchClearReply_safe (core sector : Nat) : SafeOut (execWatchClearReply core sector s) := by
  dsimp only [execWatchClearReply]; (repeat' split) <;> simp [safe]
@[simp] theorem execStallSweep_safe (r : Nat) : SafeOut (execStallSweep r s) := by
  dsimp only [execStallSweep]; (repeat' split) <;> simp [safe]
end Shapes
end Sys2Proof.Machine

/-! ### Memory keeps its form: a step -/
namespace Sys2Proof.Machine
open Sys2Proof

/-- SNAP, with its stores and the trap that may cut them short (R148). -/
theorem Run.snap_safe {v : Run} (safe : Safe v.s) (base : W64) :
    SafeTry (if base.toNat % 64 != 0 then .error (alignTrap base)
      else match snapFrom base 0 v.snapDwords v with
        | (w, none) => .ok (w.set w.q)
        | (w, some t) => if t.waits then .error t else .ok ((w.set { w.q with pc := w.pc }).trap w.r w.pg w.pc t)) := by
  have kept := snapFrom_safe safe base 0 v.snapDwords
  split
  · trivial
  · split
    · next stored => rw [stored] at kept; simp [kept]
    · next stored => rw [stored] at kept; split <;> simp [kept]

/-- Every instruction and event keeps the form of memory. -/
theorem exec_safe (i : Instr) {s : State} (safe : Safe s) : SafeOut (exec i s) := by
  unfold exec
  cases i
  case extSi | nop | clz | popc | bitf | cmp | cmpSi | plog | sel | movGG | movGP | movPG | movPP | litSi |
      litSl | monarmClr | sleep | sleepSi | budget | budgetSi | budgetTest | budgetTestSi | best | bestSi |
      bestClr | bestClrSi | add | sub | mul | andR | orR | xorR | andn | shl | shr | sar | rot | mulh | min |
      max | ext | addSi | subSi | mulSi | andSi | orSi | xorSi | andnSi | shlSi | shrSi | sarSi | rotSi | mulhSi
      | minSi | maxSi =>
    dsimp only [binSR, binSI, execExtSi, execNop, execClz, execPopc, execBitf, execCmp, execCmpSi, execPlog,
      execSel, execMovGG, execMovGP,
      execMovPG, execMovPP, execLitSi, execLitSl, execMonarmClr, execSleep, execSleepSi, execBudget,
      execBudgetSi, execBudgetTest, execBudgetTestSi, execBest, execBestSi, execBestClr, execBestClrSi,
      execAdd, execSub, execMul, execAndR, execOrR, execXorR, execAndn, execShl, execShr, execSar, execRot,
      execMulh, execMin, execMax, execExt, execAddSi, execSubSi, execMulSi, execAndSi, execOrSi, execXorSi,
      execAndnSi, execShlSi, execShrSi, execSarSi, execRotSi, execMulhSi, execMinSi, execMaxSi]
    exact runRegs_safe safe
  case div | rem | divSi | remSi =>
    dsimp only [divSR, divSI, execDiv, execRem, execDivSi, execRemSi]
    exact runSeq_safe safe fun v safe => by split <;> simp [safe]
  case lea | st | br | brSbl | jmp | jmpSbl | call | callSbl | ret | loop | testseq | testseqSi | cfg | cfgSi |
      cfgList | cfgListSi | cfgstep | cfgstepSi | run | runSi | boundSi | accrst | accrstSi | accrd | accrdSi |
      portw | portwSi | portr | portrSi | trap | rett | csrr | csrw | csrx | sload | sloadSi | sstore | sstoreSi
      | cpy | cpySi | etbl | etblSi | xpose | xposeSi | gather | gatherSi | scatter | scatterSi | mcast |
      mcastSi | chainw | chainwSi | sbar | sbarSi | sstat | sstatSi | pin | pinSi | unpin | unpinSi | pref |
      prefSi | flush | flushSi | chaint | chaintSi | qpush | qpushSi | qpop | qpopSi | qfence | qfenceSi | qseq
      | qseqSi | barinit | barinitSi | bararr | bararrSi | bartest | bartestSi | spawn | spawnSi | vdecl |
      vdeclSi | tresume | tresumeSkip | tinfo | tinfoSi | tinfoCh | tinfoChSi | eload | eloadSi | ewire |
      ewireSi | ethr | ethrSi | exf | exfSi | epop | epopSi | exb | exbSi | esel | eselSi | eeval | eevalSi =>
    exact runSeq_safe safe fun v safe => by simp [safe]
  case ld | monarm | bound | rettNext =>
    exact runSeq_safe safe fun v safe => by dsimp only; (repeat' split) <;> simp [safe]
  case amo | fence | tend | tendChild | tsync | tsyncTake =>
    exact runSeq_safe safe fun v safe => by
      have drained := Run.drained_safe safe
      dsimp only; (repeat' split) <;> simp [drained]
  case sclose | scloseSi => exact runSeq_safe safe fun v safe => Run.sclose_safe safe _ fun _ => State.closeIn_mem
  case scloseCancel | scloseCancelSi =>
    exact runSeq_safe safe fun v safe => Run.sclose_safe safe _ fun _ => State.cancelPort_mem
  case scloseQueue | scloseQueueSi =>
    exact runSeq_safe safe fun v safe => Run.sclose_safe safe _ fun _ => State.cancelQueue_mem
  case halt => exact runSeq_safe safe fun v safe => by dsimp only; (repeat' split) <;> simp [safe]
  case snap => exact runSeq_safe safe fun v safe => Run.snap_safe safe _
  case ingr | ingrN64 | ingrN96 =>
    exact runNode_safe safe fun _ => Nd.ingr_leaves rfl
  case egr | egrN64 | egrN96 =>
    exact runNode_safe safe fun _ => Nd.egr_leaves rfl
  case cst | cstN64 | cstN96 =>
    exact runNode_safe safe fun _ => Nd.const_leaves rfl
  case addNode | addNodeN64 | addNodeN96 | subNode | subNodeN64 | subNodeN96 | mulNode | mulNodeN64 | mulNodeN96
      | mad | madN64 | madN96 | minNode | minNodeN64 | minNodeN96 | maxNode | maxNodeN64 | maxNodeN96 | absNode
      | absNodeN64 | absNodeN96 | andNode | andNodeN64 | andNodeN96 | orNode | orNodeN64 | orNodeN96 | xorNode |
      xorNodeN64 | xorNodeN96 | shlNode | shlNodeN64 | shlNodeN96 | shrNode | shrNodeN64 | shrNodeN96 | sarNode
      | sarNodeN64 | sarNodeN96 =>
    exact runNode_safe safe fun _ => Nd.intNode_leaves rfl
  case cmpNode | cmpNodeN64 | cmpNodeN96 =>
    exact runNode_safe safe fun _ => Nd.cmpNode_leaves rfl
  case selNode | selNodeN64 | selNodeN96 =>
    exact runNode_safe safe fun _ => Nd.selNode_leaves rfl
  case cvt | cvtN64 | cvtN96 =>
    exact runNode_safe safe fun _ => Nd.cvtNode_leaves rfl
  case fadd | faddN64 | faddN96 | fmul | fmulN64 | fmulN96 | fma | fmaN64 | fmaN96 | fmin | fminN64 | fminN96 |
      fmax | fmaxN64 | fmaxN96 =>
    exact runNode_safe safe fun _ => Nd.fltNode_leaves rfl
  case fcmp | fcmpN64 | fcmpN96 =>
    exact runNode_safe safe fun _ => Nd.fcmpNode_leaves rfl
  case frcp | frcpN64 | frcpN96 | frsq | frsqN64 | frsqN96 | fexp2 | fexp2N64 | fexp2N96 | flog2 | flog2N64 |
      flog2N96 =>
    exact runNode_safe safe fun _ => Nd.specialNode_leaves rfl
  case unpk3 | unpk3N64 | unpk3N96 =>
    exact runNode_safe safe fun _ => Nd.unpk3_leaves rfl
  case bmandN64 | bmandN96 =>
    exact runNode_safe safe fun _ => Nd.bmand_leaves rfl
  case pfxpop | pfxpopN64 | pfxpopN96 =>
    exact runNode_safe safe fun _ => Nd.pfxpop_leaves rfl
  case six | sixN64 | sixN96 =>
    exact runNode_safe safe fun _ => Nd.six_leaves rfl
  case sun | sunN64 | sunN96 =>
    exact runNode_safe safe fun _ => Nd.sun_leaves rfl
  case topk | topkN64 | topkN96 =>
    exact runNode_safe safe fun _ => Nd.topk_leaves rfl
  case mm | mmN64 | mmN96 | mmpl | mmplN64 | mmplN96 =>
    exact runNode_safe safe fun _ => Nd.mm_leaves rfl
  case acc | accN64 | accN96 =>
    exact runNode_safe safe fun _ => Nd.acc_leaves rfl
  case drain | drainN64 | drainN96 =>
    exact runNode_safe safe fun _ => Nd.drain_leaves rfl
  case cnt | cntN64 | cntN96 =>
    exact runNode_safe safe fun _ => Nd.cnt_leaves rfl
  case agen | agenN64 | agenN96 =>
    exact runNode_safe safe fun _ => Nd.agen_leaves rfl
  case join | joinN64 | joinN96 =>
    exact runNode_safe safe fun _ => Nd.join_leaves rfl
  case split | splitN64 | splitN96 =>
    exact runNode_safe safe fun _ => Nd.split_leaves rfl
  case merge | mergeN64 | mergeN96 =>
    exact runNode_safe safe fun _ => Nd.merge_leaves rfl
  case steer | steerN64 | steerN96 =>
    exact runNode_safe safe fun _ => Nd.steer_leaves rfl
  case bartok | bartokN64 | bartokN96 =>
    exact runNode_safe safe fun _ => Nd.bartok_leaves rfl
  case ldn | ldnN64 | ldnN96 | atomNode | atomNodeN64 | atomNodeN96 | acqn | acqnN64 | acqnN96 | wcvt | wcvtN64
      | wcvtN96 | mstore | mstoreN64 | mstoreN96 =>
    exact runNode_safe safe fun _ => Nd.begin_leaves rfl
  case stn | stnN64 | stnN96 =>
    exact runNode_safe safe fun _ => Nd.stn_leaves rfl
  case relnN64 | relnN96 =>
    exact runNode_safe safe fun _ => Nd.reln_leaves rfl
  case pivdiv | pivdivN64 | pivdivN96 =>
    exact runNode_safe safe fun _ => Nd.pivdiv_leaves rfl
  case resid | residN64 | residN96 =>
    exact runNode_safe safe fun _ => Nd.resid_leaves rfl
  case shuf | shufN64 | shufN96 =>
    exact runNode_safe safe fun _ => Nd.shuf_leaves rfl
  case fmerge | fmergeN64 | fmergeN96 =>
    exact runNode_safe safe fun _ => Nd.fibStream_leaves rfl
  case fins | finsN64 | finsN96 | fscan | fscanN64 | fscanN96 | fprobe | fprobeN64 | fprobeN96 | fcountN64 |
      fcountN96 | fclearN64 | fclearN96 | fcompactN64 | fcompactN96 | ftopk | ftopkN64 | ftopkN96 | fstatN64 |
      fstatN96 =>
    exact runNode_safe safe fun _ => Nd.fibNode_leaves rfl
  case finter | finterN64 | finterN96 =>
    exact runNode_safe safe fun _ => Nd.finter_leaves rfl
  case sleepExpiry | budgetExpire | fetchFault | mcastDetach | chainHoldReread | asyncTrapTaken |
      engineCommandStart | engineElement | engineCommandComplete | faultRetry | ergCommandStart |
      ergCommandComplete | fibreOpArrive | scanSegmentDone | fibreOpComplete | viewMergeStart | viewMergeElement
      | viewMergeComplete | childPlaced | monitorNotice | stallSweep | cloneWindow | cloneDissolve |
      configDrained | residencyRetire | claimMove | loadComplete | preemptRequest | nodeSnapshotSave |
      haboobQuiescence | snapshotComplete | restoreComplete | remoteAck | remoteRetryExhausted |
      contractBudgetExhaust | contractWindowExpire | contextTeardownDone | unsupportedPacket | ctxSyncDone |
      telemetryRecord | accessPerformed | ergClearDone | ergRestoreDone | ergSaveDone | dispatchDecision |
      groupAdmit | groupRestore | remapComplete | rmaAtomic | powerStateWake | watchClearReply | remapRequest |
      rmaWrite | rmaRead | linkEnable | bootImagePacket | powerStateEnter | thermalSensing | hbmPatrolScrub |
      sramScrub | hbmRetraining | hbmRowRepair | hbmRowRepairDone | queueCommandComplete | coldReset | warmReset
      | supplyFault | linkEqualisation | hbmRetrainingDone =>
    simp [safe]
  case linkRetryTimer | linkTrainingEnd | linkLaneFail | linkFerrIsolate | linkLevelRetry =>
    exact portEvent_safe safe _ _
  case provision | setNode | deploy =>
    exact lifecycleReq_safe safe _
  case getVersion | getCapabilities | negotiateAlgorithms | getDigests | getCertificate | challenge |
      getMeasurements | dbgNonce | decommission =>
    exact spdm_safe safe (by (repeat' split) <;> simp [safe])
  case dbgUnlock =>
    exact spdm_safe safe (by
      (repeat' split) <;> simp [safe]
      exact foldl_safe (fun s c safe => safe.lose ..) _ safe)
  case linkStat | linkIsolate | linkRestore =>
    exact portCmd_safe safe fun n p => by (repeat' split) <;> simp [safe]
  case devInfo =>
    exact devCmd_safe safe (by simp [safe])
  case pageStat | ctxCreate =>
    exact devCmd_safe safe (by dsimp only; (repeat' split) <;> simp [safe])
  case ctxKey | ctxStart | ctxSuspend | ctxResume | ctxSync =>
    exact ctxCmd_safe safe fun c x => by (repeat' split) <;> simp [safe]
  case ctxDestroy | ctxQuota | qCreate | qTail | contractCreate | contractDestroy | poolReg | poolFree |
      memWrite | memRead | chanBind =>
    exact ctxCmd_safe safe fun c x => by dsimp only; (repeat' split) <;> simp [safe]
  case qEnable | qDisable | qFlush | qRestart =>
    exact queueCmd_safe safe fun qn q => by (repeat' split) <;> simp [safe]
  case qDestroy =>
    exact queueCmd_safe safe fun qn q => by dsimp only; (repeat' split) <;> simp [safe]
  case qPop =>
    exact queueCmd_safe safe fun qn q => by
      (repeat' split) <;> simp [safe]
      next taken => exact safe.takeRec taken

/-! #### A turn -/

@[simp] theorem State.upset_safe {s : State} (safe : Safe s) (u : Upset) : Safe (s.upset u) := by
  cases u <;> dsimp only [State.upset] <;> (repeat' split) <;> simp [safe]
theorem execAs_safe {s : State} (safe : Safe s) (a : Agent) (i : Instr) : SafeOut (execAs a i s) :=
  exec_safe i (s := { s with agent := a }) safe
theorem stepSeq_safe {s : State} (safe : Safe s) (r pg : Nat) : SafeOut (stepSeq s r pg) := by
  unfold stepSeq
  split
  · exact safe
  · exact execAs_safe safe ..
  · exact execAs_safe (safe.fetch ..) ..
theorem stepNode_safe {s : State} (safe : Safe s) (r b n : Nat) : SafeOut (stepNode s r b n) := by
  unfold stepNode
  split
  · exact safe
  · exact execAs_safe safe ..
theorem stepMgmt_safe {s : State} (safe : Safe s) (m : MgmtTurn) : SafeOut (stepMgmt s m) := by
  have entered : Safe s.mgmtIn := by simpa using safe
  unfold stepMgmt
  split
  · exact safe
  · split
    · exact Safe.mgmtOut (by simpa using safe)
    · split
      · exact safe
      · next j _ =>
        have kept := exec_safe j entered
        split
        · next ran => rw [ran] at kept; exact Safe.mgmtOut kept
        · next x => exact kept
/-- Every turn keeps the form of memory. -/
theorem step_safe {s : State} (safe : Safe s) : SafeOut (step s) := by
  have begun : Safe (s.began s.turn) := by simpa using safe
  dsimp only [step]
  generalize s.began s.turn = s at begun ⊢
  split
  · exact begun
  · split
    · exact stepSeq_safe begun ..
    · exact stepNode_safe begun ..
    · split
      · exact execAs_safe begun ..
      · exact begun
    · split
      · exact execAs_safe (begun.of_mem (by simp)) ..
      · exact begun.of_mem (by simp)
    · exact State.upset_safe begun _
    · exact begun
    · exact stepMgmt_safe begun _
end Sys2Proof.Machine

namespace Sys2Proof
open Machine

/-- Settles O60: what every agent, event, packet and upset does keeps the canonical form of memory, and so does a turn. -/
theorem stepKeepsMemoryForm : Obligations.StepKeepsMemoryForm := by
  unfold Obligations.StepKeepsMemoryForm
  intro s safe s' stepped
  have kept := step_safe safe
  rw [stepped] at kept
  exact kept
end Sys2Proof


/-! ### Remote replies and accesses from outside (R333, R390, R417 to R422, R441) -/
namespace Sys2Proof
open Machine

/-- What is known of a remote access is `y`. -/
abbrev Machine.State.resolve (s : State) (id : Nat) (y : Remote) : State := { s with remotes := s.remotes.put id y }

section Replies
variable {s : State} {id : Nat} {x : Remote}

/-- The reply that comes is delivered. -/
theorem exec_remoteAck_delivers (sent : s.remotes.find id = some x) (open_ : x.result = none) (well : x.failed = false)
    (port : s.ports.any Port.carries = true) (v : W64) :
    exec (.remoteAck id v) s =
      .next ((s.resolve id { x with result := some v }).deliver id) := by
  simp [execRemoteAck, sent, open_, well, port]

/-- The access whose retry budget is spent has failed, and that is delivered. -/
theorem exec_remoteRetryExhausted_delivers (sent : s.remotes.find id = some x) (open_ : x.result = none)
    (well : x.failed = false) :
    exec (.remoteRetryExhausted id) s =
      .next ((s.resolve id { x with failed := true }).deliver id) := by
  simp [execRemoteRetryExhausted, sent, open_, well]

theorem Region.not_retired_of_resident {rg : Region} (resident : rg.resident = true) : rg.st ≠ .retired := by
  intro st; simp [Region.resident, st] at resident

variable {rg : Region} (sent : s.remotes.find id = some x) (resolved : x.result.isSome = true ∨ x.failed = true)
  (region : s.rg? x.rid = some rg) (resident : rg.resident = true)
include sent resolved region resident

/-- The outcome of a load reaches the sequencer that waits for it. -/
theorem deliver_ld (kind : x.kind = .ld) : s.deliver id = (s.dropRemote id).seqReply id x := by
  have live := Region.not_retired_of_resident resident
  have known : ¬(x.result = none ∧ x.failed = false) := by
    rintro ⟨open_, well⟩
    simp [open_, well] at resolved
  simp [State.deliver, sent, kind, region, resident, live, known]

/-- The acknowledgement of a store is no longer awaited. -/
theorem deliver_st (kind : x.kind = .st) (well : x.failed = false) :
    s.deliver id = (s.dropRemote id).updSeq x.rid x.pg (fun q => q.acked id) := by
  have live := Region.not_retired_of_resident resident
  have known : x.result ≠ none := by
    rintro open_
    simp [open_, well] at resolved
  simp [State.deliver, sent, kind, region, resident, live, known, well]


variable {q : Seq} {d : Reg} {ty : MTy} {n : Nat} (seat : rg.seqs[x.pg]? = some q)
  (waits : q.wait = some (.ld id d ty n))
include seat waits

theorem deliver_value (kind : x.kind = .ld) {v : W64} (replied : x.result = some v) :
    s.deliver id = (s.dropRemote id).setSeq x.rid x.pg
      { (q.resume n).setG d (tyExtend ty (v.toNat % 2 ^ (8 * tySize ty))) with lastTag := some {}, armed := none } := by
  have here : (s.dropRemote id).seq? x.rid x.pg = some q := by
    rw [State.seq?, show (s.dropRemote id).rg? x.rid = some rg from region]; exact seat
  rw [deliver_ld sent resolved region resident kind]
  simp [State.seqReply, here, waits, replied, SeqWait.ids, SeqWait.releases, Seq.receive]

theorem deliver_failed (kind : x.kind = .ld) (failed : x.result = none) :
    s.deliver id = ((s.dropRemote id).setSeq x.rid x.pg { q with wait := none }).trap x.rid x.pg q.pc
      (xlateTrap x.va remoteFault .read) := by
  have here : (s.dropRemote id).seq? x.rid x.pg = some q := by
    rw [State.seq?, show (s.dropRemote id).rg? x.rid = some rg from region]; exact seat
  rw [deliver_ld sent resolved region resident kind]
  simp [State.seqReply, here, waits, failed, SeqWait.ids, SeqWait.acc]
end Replies

/-- Replies to, and failures of, the accesses of sequencers. -/
theorem remoteReplies (s : State) (id : Nat) (x : Remote) (rg : Region) (q : Seq) (sent : s.remotes.find id = some x)
    (open_ : x.result = none) (well : x.failed = false) (region : s.rg? x.rid = some rg) (resident : rg.resident = true)
    (seat : rg.seqs[x.pg]? = some q) (port : s.ports.any Port.carries = true) :
    (∀ d ty n v, x.kind = .ld → q.wait = some (.ld id d ty n) →
      let s1 : State := { s with remotes := (s.remotes.put id { x with result := some v }).del id }
      exec (.remoteAck id v) s = .next (s1.setSeq x.rid x.pg
        { ({ q with wait := none, pc := q.pc + w64 (4 * n) } : Seq).setG d
            (tyExtend ty (v.toNat % 2 ^ (8 * tySize ty))) with
          lastTag := some {}, armed := none })) ∧
    (∀ d ty n, x.kind = .ld → q.wait = some (.ld id d ty n) →
      let s1 : State := { s with remotes := (s.remotes.put id { x with failed := true }).del id }
      exec (.remoteRetryExhausted id) s = .next ((s1.setSeq x.rid x.pg { q with wait := none }).trap x.rid x.pg q.pc
        (xlateTrap x.va remoteFault .read))) ∧
    (∀ v, x.kind = .st →
      let s1 : State := { s with remotes := (s.remotes.put id { x with result := some v }).del id }
      exec (.remoteAck id v) s = .next (s1.updSeq x.rid x.pg (fun q => q.acked id))) := by
  refine ⟨fun d ty n v kind waits => ?_, fun d ty n kind waits => ?_, fun v kind => ?_⟩
  · rw [exec_remoteAck_delivers sent open_ well port, deliver_value (s := s.resolve id { x with result := some v })
      (Assoc.find_put_same ..) (.inl rfl) region resident seat waits kind rfl]
    rfl
  · rw [exec_remoteRetryExhausted_delivers sent open_ well, deliver_failed (s := s.resolve id { x with failed := true })
      (Assoc.find_put_same ..) (.inr rfl) region resident seat waits kind open_]
    rfl
  · rw [exec_remoteAck_delivers sent open_ well port, deliver_st (s := s.resolve id { x with result := some v })
      (Assoc.find_put_same ..) (.inl rfl) region resident kind well]
    rfl

/-! #### Accesses from outside -/

theorem rmaCtx_of_live {s : State} {x : Rma} {c : Ctx} (here : s.ctx? x.ctx = some c) (kept : c.st ≠ .lost)
    (stays : c.st ≠ .destroying) (gen : c.gen = x.gen) (life : s.sec.life ≠ .decommissioned) : s.rmaCtx x = true := by
  simp [State.rmaCtx, here, kept, stays, gen, life]

section Outside
variable {s : State} {x : Rma} (running : s.sec.boot = .running)
include running

theorem rma_refused (refused : s.rmaCtx x = false) :
    (∀ data, data.length ≤ 4096 → exec (.rmaWrite x data) s = .next s.rmaRefuse) ∧
    (∀ n, n ≤ 4096 → exec (.rmaRead x n) s = .next s.rmaRefuse) :=
  ⟨fun data short => by simp [execRmaWrite, running, refused, Nat.not_lt.mpr short],
    fun n short => by simp [execRmaRead, running, refused, Nat.not_lt.mpr short]⟩

theorem rma_dropped :
    (∀ data, 4096 < data.length → exec (.rmaWrite x data) s = .next (s.drop.send .rmaError)) ∧
    (∀ n, 4096 < n → exec (.rmaRead x n) s = .next (s.drop.send .rmaError)) :=
  ⟨fun data long => by simp [execRmaWrite, running, long], fun n long => by simp [execRmaRead, running, long]⟩

variable (admitted : s.rmaCtx x = true)
include admitted

theorem rmaWrite_writes {data : List Byte} {l : List OutPiece} (short : data.length ≤ 4096)
    (mapped : s.outMap x.ctx x.addr data.length .write = some l) :
    exec (.rmaWrite x data) s = .next ((s.outWrite x.ctx l data (0, 0, 0) (rmaWid x)).send (.rmaReply [])) := by
  simp [execRmaWrite, running, admitted, mapped, Nat.not_lt.mpr short]

theorem rmaRead_reads {n : Nat} {l : List OutPiece} (short : n ≤ 4096)
    (mapped : s.outMap x.ctx x.addr n .read = some l) :
    exec (.rmaRead x n) s = .next (s.send (.rmaReply (s.outRead x.ctx l))) := by
  simp [execRmaRead, running, admitted, mapped, Nat.not_lt.mpr short]

theorem rmaAtomic_updates (op : Aop) (v cmp : W64) {p : OutPiece} (aligned : x.addr.toNat % 8 = 0)
    (mapped : s.outMap x.ctx x.addr 8 .atomic = some [p]) (clean : s.poisonedAt p.pa 8 = false) :
    let old := leNat (s.outRead x.ctx [p])
    let t := s.send (.rmaReply (s.outRead x.ctx [p]))
    exec (.rmaAtomic x op true v cmp) s = .next (if amoWrites op old cmp.toNat
      then t.write (s.keyOf x.ctx) p.pa (leBytes 8 (amoNew op 8 old v.toNat cmp.toNat)) else t) := by
  have wide (w : W64) : w.toNat % 18446744073709551616 = w.toNat :=
    Nat.mod_eq_of_lt w.isLt
  have clean' : (s.send (.rmaReply (s.outRead x.ctx [p]))).poisonedAt p.pa 8 = false := clean
  cases writes : amoWrites op (leNat (s.outRead x.ctx [p])) cmp.toNat with
  | false => simp [execRmaAtomic, running, admitted, aligned, mapped, clean', wide, writes]
  | true =>
    have key : (s.send (.rmaReply (s.outRead x.ctx [p]))).keyOf x.ctx = s.keyOf x.ctx := rfl
    simp [execRmaAtomic, running, admitted, aligned, mapped, clean', wide, writes, key]
end Outside

/-- Settles O52, instruction by instruction: each event and access is given its whole next state above. -/
theorem remoteAndOutside : Obligations.RemoteAndOutside := by
  unfold Obligations.RemoteAndOutside
  refine ⟨remoteReplies, fun s x running => ⟨rma_refused running, rma_dropped running,
    fun c here kept stays gen life => ?_⟩, fun s id f waits woken => ?_, fun s n p port st => ?_⟩
  · have admitted := rmaCtx_of_live here kept stays gen life
    refine ⟨fun data l => rmaWrite_writes running admitted, fun n l => rmaRead_reads running admitted,
      fun op v cmp p aligned mapped clean => ?_⟩
    have updates := rmaAtomic_updates running admitted op v cmp aligned mapped clean
    exact ⟨fun keeps => by simpa [keeps] using updates, fun writes => by simpa [writes] using updates⟩
  · simp [execFaultRetry, waits, woken, unpause]
  · simp [execUnsupportedPacket, port, Port.carries_iff.mpr st, State.drop]
end Sys2Proof

section
/-! Host commands on the device and on contexts (14 R339 to R351; 19 R423 to R425). -/
namespace Sys2Proof.Machine

theorem Assoc.find_del_same {α : Type} (l : Assoc α) (n : Nat) : (l.del n).find n = none := by
  induction l with
  | nil => rfl
  | cons e l ih =>
    by_cases same : e.1 = n
    · rw [show Assoc.del (e :: l) n = Assoc.del l n by simp [Assoc.del, same]]
      exact ih
    · rw [show Assoc.del (e :: l) n = e :: Assoc.del l n by simp [Assoc.del, same]]
      simpa only [Assoc.find, if_neg same] using ih

/-! ### Commands on the device -/

section Device
variable {s : State} {m : Msg}

theorem devInfo_answers (h : DevMsg s m 0x01 0) :
    exec (.devInfo m) s = .next (s.send (.response 0x01 m.tag 0
      [w64 ((s.sec.nodeId.map BitVec.toNat).getD 0), w64 s.sec.life.code, Config.firmwareVersion s.sec.image])) := by
  rw [exec_devInfo, execDevInfo, devCmd_accepted h, State.reply, response, h.opcode]
  rfl

theorem pageStat_answers (h : DevMsg s m 0x02 2) (core : (msgDw m 0).toNat < 192) (page : (msgDw m 1).toNat < 12) :
    exec (.pageStat m) s =
      .next (s.send (.response 0x02 m.tag 0 [s.pageWord (msgDw m 0).toNat (msgDw m 1).toNat])) := by
  have inside : (coreCount ≤ (msgDw m 0).toNat || 12 ≤ (msgDw m 1).toNat) = false := by
    simp [coreCount, Nat.not_le.mpr core, Nat.not_le.mpr page]
  rw [exec_pageStat, execPageStat, devCmd_accepted h]
  simp only [inside, Bool.false_eq_true, if_false, State.reply, response, h.opcode, stOK]

theorem ctxCreate_makes {c : Nat} (h : DevMsg s m 0x10 8) (good : ctxDescBad m.payload = false)
    (free : s.freeCtx = some c) (new : s.queue? (fld (dw m.payload 6) 0 13) = none)
    (held : s.reservable (ctxReserve m.payload) = true) :
    exec (.ctxCreate m) s = .next
      ((s.newCtx c m.payload).send (.response 0x10 m.tag 0 [(s.newCtx c m.payload).ctxid c])) := by
  rw [exec_ctxCreate, execCtxCreate, devCmd_accepted h]
  simp [good, free, new, held, State.reply, response, h.opcode, stOK]

theorem ctxCreate_malformed (h : DevMsg s m 0x10 8) (bad : ctxDescBad m.payload = true) :
    exec (.ctxCreate m) s = .next (s.reply m stBADDESC []) := by
  rw [exec_ctxCreate, execCtxCreate, devCmd_accepted h]
  simp only [bad, if_true]

theorem ctxCreate_lacks (h : DevMsg s m 0x10 8) (good : ctxDescBad m.payload = false)
    (lacking : s.freeCtx = none ∨ (s.queue? (fld (dw m.payload 6) 0 13)).isSome = true ∨
      s.reservable (ctxReserve m.payload) = false) :
    exec (.ctxCreate m) s = .next (s.reply m stNORES []) := by
  rw [exec_ctxCreate, execCtxCreate, devCmd_accepted h]
  obtain none_ | ⟨c, free⟩ : s.freeCtx = none ∨ ∃ c, s.freeCtx = some c := by
    cases s.freeCtx <;> simp
  · simp [good, none_]
  · have short : ((s.queue? (fld (dw m.payload 6) 0 13)).isSome || !s.reservable (ctxReserve m.payload)) = true := by
      rw [free] at lacking
      simpa using lacking
    simp only [good, free, short, Bool.false_eq_true, if_false, if_true]

/-- A command on the device that the checks of R423 to R425 refuse is answered with their status. -/
theorem devCmd_refused {op st : Nat} {fits : Msg → Bool} (running : s.sec.boot = .running) (opcode : msgOpc m = op)
    (gate : devGate s m op (fits m) = st) (bad : st ≠ 0) (f : State → State) :
    devCmd op fits m s f = .next (s.reply m st []) := by
  simp only [devCmd, running, opcode, gate, bne_self_eq_false, Bool.false_eq_true, if_false]

end Device

/-! ### Commands on a context -/

section Context
variable {s : State} {m : Msg} {c : Nat} {x : Ctx}

theorem ctxKey_eq (h : CtxMsg s m 0x11 false true m.payload.length c x) (long : 9 ≤ m.payload.length) :
    exec (.ctxKey m) s = .next (if x.st = .created then
      (s.setCtx c { x with st := .keyed, keys := m.payload.drop 1 }).ok m else s.reply m stSTATE []) := by
  rw [exec_ctxKey, execCtxKey, ctxCmd_accepted h (by simp [dwords, long])]
  by_cases created : x.st = .created <;> simp [created]

theorem ctxStart_eq (h : CtxMsg s m 0x12 false true 1 c x) :
    exec (.ctxStart m) s = .next (if x.st = .keyed then (s.setCtx c { x with st := .active }).ok m
      else s.reply m stSTATE []) := by
  rw [exec_ctxStart, execCtxStart, ctxCmd_accepted h rfl]
  by_cases keyed : x.st = .keyed <;> simp [keyed]

theorem ctxSuspend_eq (h : CtxMsg s m 0x13 false true 1 c x) :
    exec (.ctxSuspend m) s = .next (if x.st = .active ∧ x.becoming = none then
      s.hold c .suspended [response m stOK []] else s.reply m stSTATE []) := by
  rw [exec_ctxSuspend, execCtxSuspend, ctxCmd_accepted h rfl]
  by_cases active : x.st = .active <;> by_cases still : x.becoming = none <;>
    simp [active, still, Option.isSome_iff_ne_none]

theorem ctxResume_eq (h : CtxMsg s m 0x14 false true 1 c x) :
    exec (.ctxResume m) s = .next (if (x.st = .suspended ∨ x.st = .faulted) ∧ x.becoming = none then
      ((s.setCtx c { x with st := .active }).refillAll c x.heldRecs.length).ok m else s.reply m stSTATE []) := by
  rw [exec_ctxResume, execCtxResume, ctxCmd_accepted h rfl]
  cases st : x.st <;> by_cases still : x.becoming = none <;> simp [still, Option.isSome_iff_ne_none]

/-- CTX_DESTROY stops a context that has run, and leaves it Destroying with the answer noted (R348). -/
theorem ctxDestroy_eq (h : CtxMsg s m 0x15 false true 1 c x) :
    let t := if x.st = .active ∨ x.st = .suspended ∨ x.st = .faulted then s.stop c .destroying .destroy else s
    let gone := fun (x : Ctx) => { x with st := .destroying, becoming := none, note := [.response 0x15 m.tag 0 []] }
    exec (.ctxDestroy m) s = .next { t with ctxs := t.ctxs.upd c gone } := by
  rw [exec_ctxDestroy, execCtxDestroy, ctxCmd_accepted h rfl]
  cases st : x.st <;> simp [response, h.opcode, stOK]

theorem ctxQuota_sets (h : CtxMsg s m 0x16 false true 5 c x) (q1 : 1 ≤ (msgDw m 1).toNat)
    (q2 : (msgDw m 1).toNat ≤ 8192) (p1 : 1 ≤ (msgDw m 2).toNat) (p2 : (msgDw m 2).toNat ≤ 2304)
    (sp : (msgDw m 3).toNat ≤ 256) (pin : (msgDw m 4).toNat ≤ 294912) :
    exec (.ctxQuota m) s = .next ((s.setCtx c { x with
      nq := (msgDw m 1).toNat, pageq := (msgDw m 2).toNat, spq := (msgDw m 3).toNat
      pinq := (msgDw m 4).toNat }).ok m) := by
  have within : ((msgDw m 1).toNat = 0 || 8192 < (msgDw m 1).toNat || (msgDw m 2).toNat = 0 ||
      2304 < (msgDw m 2).toNat || 256 < (msgDw m 3).toNat || 294912 < (msgDw m 4).toNat : Bool) = false := by
    simp only [Bool.or_eq_false_iff, decide_eq_false_iff_not]
    omega
  rw [exec_ctxQuota, execCtxQuota, ctxCmd_accepted h rfl]
  simp only [within, Bool.false_eq_true, if_false]

theorem ctxSync_waits (h : CtxMsg s m 0x17 false false 1 c x) :
    exec (.ctxSync m) s = .next (s.setCtx c { x with syncs := x.syncs ++ [m] }) := by
  rw [exec_ctxSync, execCtxSync, ctxCmd_accepted h rfl]

theorem ctxSyncDone_answers {more : List Msg} (there : s.ctx? c = some x) (first : x.syncs = m :: more) :
    exec (.ctxSyncDone c) s = .next (({ s with
      ctxs := s.ctxs.put c { x with syncs := more }
      cores := s.cores.map (fun (e : Nat × Core) => (e.1, { e.2 with tlb := e.2.tlb.filter (fun t => t.ctx != c) }))
      faults := s.faults.map (fun (e : Nat × FaultRec) =>
        if e.2.ctx = c then (e.1, { e.2 with woken := true }) else e) } : State).ok m) := by
  rw [exec_ctxSyncDone]
  simp only [execCtxSyncDone, there, first]

/-- Teardown leaves nothing of the context: not its number, queues, contracts, pools or translations (R351). -/
theorem contextTeardownDone_leaves_nothing (there : s.ctx? c = some x) (destroying : x.st = .destroying) :
    ∃ t, exec (.contextTeardownDone c) s = .next t ∧ t.ctx? c = none ∧
      (∀ e ∈ t.queues, e.2.ctx ≠ c) ∧ (∀ e ∈ t.contracts, e.2.ctx ≠ c) ∧ (∀ e ∈ t.pools, e.1 / 4096 ≠ c) ∧
      (∀ e ∈ t.cores, ∀ u ∈ e.2.tlb, u.ctx ≠ c) ∧
      t.sent = s.sent ++ x.syncs.map (fun m => .response (msgOpc m) m.tag 0 []) ++ x.note ∧ t.mem = s.mem := by
  rw [exec_contextTeardownDone]
  simp only [execContextTeardownDone, there, destroying, bne_self_eq_false, Bool.false_eq_true, if_false]
  refine ⟨_, rfl, Assoc.find_del_same _ c, fun e mem => ?_, fun e mem => ?_, fun e mem => ?_, fun e mem u cached => ?_,
    rfl, rfl⟩
  · simpa using (List.mem_filter.mp mem).2
  · simpa using (List.mem_filter.mp mem).2
  · simpa using (List.mem_filter.mp mem).2
  · obtain ⟨e', -, rfl⟩ := List.mem_map.mp mem
    simpa using (List.mem_filter.mp cached).2

end Context

end Sys2Proof.Machine

namespace Sys2Proof
open Machine

/-- The part of O53 on the device and on CTX_CREATE. -/
theorem deviceCommands (s : State) (m : Msg) :
    let no := fun (st : Nat) => Host.Outcome.next (s.send (.response (msgOpc m) m.tag st []))
    (DevMsg s m 0x10 8 → ctxDescBad m.payload = true → exec (.ctxCreate m) s = no 1) ∧
    (∀ st, s.sec.boot = .running → msgOpc m = 0x10 → devGate s m 0x10 (dwords 8 m) = st → st ≠ 0 →
      exec (.ctxCreate m) s = no st) := by
  refine ⟨fun h bad => ?_, fun st running opcode gate refused => ?_⟩
  · rw [ctxCreate_malformed h bad]
    rfl
  · rw [exec_ctxCreate, execCtxCreate, devCmd_refused running opcode gate refused]
    rfl

/-- Settles O53: the device's commands by the checks that are left once R423 and R425 are passed, a context's by the
state that the state table asks for. -/
theorem contextCommands : Obligations.ContextCommands := by
  refine ⟨fun s m => ⟨devInfo_answers, pageStat_answers, fun c h good free new held =>
    ctxCreate_makes h good free new held, (deviceCommands s m).1, ctxCreate_lacks, (deviceCommands s m).2⟩,
    fun s m c x => ⟨fun h long => ?key, fun h => ?start, fun h => ?suspend, fun h => ?resume, ctxDestroy_eq,
      ctxQuota_sets, ctxSync_waits,
      fun more there first => ctxSyncDone_answers there first, contextTeardownDone_leaves_nothing⟩⟩
  case key =>
    rw [ctxKey_eq h long]
    exact ⟨fun created => by rw [if_pos created]; rfl, fun other => by rw [if_neg other]; rfl⟩
  case start =>
    rw [ctxStart_eq h]
    exact ⟨fun keyed => by rw [if_pos keyed]; rfl, fun other => by rw [if_neg other]; rfl⟩
  case suspend =>
    rw [ctxSuspend_eq h]
    refine ⟨fun active still => ?_, fun other => ?_⟩
    · rw [if_pos ⟨active, still⟩, response, h.opcode, stOK]
    · rw [if_neg (fun both => other both.1)]
      rfl
  case resume =>
    rw [ctxResume_eq h]
    refine ⟨fun held still => ?_, fun running sound => ?_⟩
    · rw [if_pos ⟨held, still⟩]
      rfl
    · rw [if_neg (fun both => both.1.elim running sound)]
      rfl

end Sys2Proof
end

section
/-! The command processor: ready heads, groups, and the completion of a command (15 R359 to R363, R373 to R378). -/
namespace Sys2Proof.Machine

variable {s : State}

/-! ### The first ready head -/

section Heads
variable {x : Rank} {r : QRec} {q q' q'' : Queue}

section Record
variable (first : (s.readHeads.makeRoom s.readHeads.pressRuns).firstStart = some (x, none))
  (what : x.what = .record r) (there : (s.readHeads.makeRoom s.readHeads.pressRuns).queue? x.q = some q)
include first what there

/-- A record that does not leave its head, as a LAUNCH whose group then stands there, ages no head. -/
theorem dispatchDecision_stays
    (after : ((s.readHeads.makeRoom s.readHeads.pressRuns).startRecord x.q q r).queue? x.q = some q')
    (stays : q'.taken = q.taken) :
    exec .dispatchDecision s = .next ((s.readHeads.makeRoom s.readHeads.pressRuns).startRecord x.q q r) := by
  rw [exec_dispatchDecision, execDispatchDecision]
  simp [first, what, there, after, stays]

/-- A record that leaves its head ages the heads that were ready before it (R362). -/
theorem dispatchDecision_leaves
    (after : ((s.readHeads.makeRoom s.readHeads.pressRuns).startRecord x.q q r).queue? x.q = some q')
    (leaves : q'.taken ≠ q.taken) (aged : ((s.readHeads.makeRoom s.readHeads.pressRuns).age x).queue? x.q = some q'') :
    exec .dispatchDecision s =
      .next (((s.readHeads.makeRoom s.readHeads.pressRuns).age x).startRecord x.q q'' r) := by
  rw [exec_dispatchDecision, execDispatchDecision]
  simp [first, what, there, after, leaves, aged]

end Record

/-- The first head that can start is a Pending group, and it is placed (R374). -/
theorem groupAdmit_places {y t : State} {gid : Nat} {g : Group} (first : s.readHeads.firstStart = some (x, some y))
    (what : x.what = .group gid g) (pending : g.st = .pending)
    (placed : (s.readHeads.age x).placeGroup gid
      { g with skip := (s.readHeads.queue? x.q).elim 0 (s.readHeads.headSkip x.q) } (s.readHeads.openDies x) = some t) :
    exec (.groupAdmit gid) s = .next ((s.readHeads.age x).startGroup x gid t) := by
  have own : (gid != gid || g.st != .pending) = false := by simp [pending]
  rw [exec_groupAdmit, execGroupAdmit]
  simp only [first, what, own, Bool.false_eq_true, if_false, placed]

end Heads

/-! ### Groups and residencies -/

section Load
variable {gid : Nat} {g : Group} (there : s.group? gid = some g) (loading : g.st = .loading)
  (awake : g.members.any s.asleep = false)
include there loading awake

theorem loadComplete_starts {l : List (Nat × Image)} (loaded : loadAll s g.since (s.liveOf g) = .ok l) :
    exec (.loadComplete gid) s =
      .next (({ l.foldl (fun (s : State) (e : Nat × Image) => (s.startMember e.1 e.2).updRg e.1 Region.fillViews) s with
        selfRefresh := [] } : State).updGroup gid (fun g => { g with st := .running })) := by
  rw [exec_loadComplete, execLoadComplete]
  simp [there, loading, awake, loaded]

theorem loadComplete_refused {bad code i c : Nat} (refused : loadAll s g.since (s.liveOf g) = .error (bad, code, i))
    (ctx : s.groupCtx g = some c) :
    exec (.loadComplete gid) s = .next ((g.members.foldl (fun (s : State) r => s.retire r 1 code i)
      (s.updGroup gid (fun g => { g with refused := g.members.findIdx? (· = bad) }))).settle c) := by
  rw [exec_loadComplete, execLoadComplete]
  simp [there, loading, awake, refused, ctx]

end Load

section Residency
variable {r : Nat} {rg : Region} (there : s.rg? r = some rg)
include there

theorem configDrained_arms (live : rg.live = true) (resident : rg.resident = true) (drained : s.drained r rg = true) :
    exec (.configDrained r) s = .next
      ((s.setRg r { rg with live := false, st := if rg.st = .draining then .draining else .armed }).freeClones r) := by
  rw [exec_configDrained, execConfigDrained]
  simp [there, live, resident, drained]

variable (may : s.mayRetire r rg = true) (free : s.devBusy (8192 + r) = false)
include may free

/-- Dwords 1 to 7 of a residency's record are written first (R376). -/
theorem residencyRetire_tail (has : rg.rra ≠ 0) (first : rg.recHalf = false) :
    exec (.residencyRetire r) s =
      .next ((s.devStore { who := 8192 + r, ctx := rg.ctx, va := rg.rra + 8
                           bytes := dwBytes (rg.retireRec (if rg.faulted then 6 else 0) 0 0).tail }).updRg r
        (fun x => { x with recHalf := true })) := by
  have unwritten : (rg.rra != 0 && !rg.recHalf) = true := by
    rw [first, Bool.not_false, Bool.and_true]
    exact bne_iff_ne.mpr has
  rw [exec_residencyRetire, execResidencyRetire]
  simp only [there, may, free, unwritten, Bool.not_true, Bool.or_self, Bool.false_eq_true, if_false, if_true,
    State.storeRetireTail]

/-- A residency with no record, or with dwords 1 to 7 of it written, retires (R376, R378). -/
theorem residencyRetire_retires (second : rg.rra = 0 ∨ rg.recHalf = true) :
    exec (.residencyRetire r) s =
      let dead := ((List.range 8).zip rg.eqs).flatMap (fun q => q.2.cmds.map (fun c => (q.1, c.seq)))
      .next ((({ s with
        fops := s.fops.filter (fun (e : Nat × FOp) => e.2.rid != r)
        regions := s.regions.map (fun (e : Nat × Region) =>
          (e.1, dead.foldl (fun (g : Region) x => g.gone r x.1 x.2) e.2)) } : State).retire r
            (if rg.faulted then 6 else 0) 0 0).settle rg.ctx) := by
  have written : (rg.rra != 0 && !rg.recHalf) = false := by
    rcases second with none_ | half
    · simp [none_]
    · simp [half]
  rw [exec_residencyRetire, execResidencyRetire]
  simp only [there, may, free, written, Bool.not_true, Bool.or_self, Bool.false_eq_true, if_false]

end Residency

/-! ### The stages of a command's completion (R359, R361) -/

/-- A command is a WRITE that ended well: its record stores a value of its own. -/
abbrev Started.writes (t : Started) : Prop := t.status = 0 ∧ t.rec_.cmd = 3

section Todo
variable {t : Started}

theorem Started.todo_value (stage : t.stage = 0) (writes : t.writes) : t.todo = 0 := by
  simp [Started.todo, stage, writes.1, writes.2]

theorem Started.todo_word (record : t.rec_.cra ≠ 0#64) (stage : (t.stage = 0 ∧ ¬ t.writes) ∨ t.stage = 1) :
    t.todo = 1 := by
  rcases stage with ⟨none_, other⟩ | one
  · have other' : (t.status = 0 && t.rec_.cmd = 3 : Bool) = false := by simpa [Started.writes] using other
    simp [Started.todo, none_, other', record]
  · simp [Started.todo, one, record]

theorem Started.todo_seq (record : t.rec_.cra ≠ 0#64) (stage : t.stage = 2) : t.todo = 2 := by
  simp [Started.todo, stage, record]

theorem Started.todo_report (stage : 3 ≤ t.stage ∨ (t.rec_.cra = 0#64 ∧ (t.stage ≠ 0 ∨ ¬ t.writes))) : 3 ≤ t.todo := by
  rcases stage with past | ⟨none_, later | other⟩
  · have some_ : t.stage ≠ 0 := by omega
    by_cases record : t.rec_.cra = 0#64 <;> simp [Started.todo, some_, record, past]
  · simp [Started.todo, later, none_]
  · have other' : (t.status = 0 && t.rec_.cmd = 3 : Bool) = false := by simpa [Started.writes] using other
    by_cases stage : t.stage = 0 <;> simp [Started.todo, stage, other', none_]

end Todo

section Stages
variable {k : Nat} {q : Queue} {t : Started} {pre post : List Started}

/-- The command's next stage stores one dword for the queue. -/
abbrev State.putStage (s : State) (k : Nat) (q : Queue) (t : Started) (n : Nat) (va x : W64) : State :=
  (s.setQueue k { q with
    started := q.started.map (fun y => if y.seq = t.seq then { y with stage := n } else y) }).devStore
    { who := k, ctx := q.ctx, va := va, bytes := leBytes 8 x.toNat }

section Ready
variable (there : s.queue? k = some q) (kept : q.st ≠ .lost) (started : q.started = pre ++ t :: post)
  (first : ∀ x ∈ pre, x.seq ≠ t.seq) (finished : t.finished = true) (unreported : t.reported = false)
  (ready : t.atOnce = true ∨ s.devBusy k = false) (made : s.groupBusy t = false)
include there kept started first finished unreported ready made

/-- A finished command that waits for nothing takes the stage that it stands at. -/
theorem queueCommandComplete_eq : exec (.queueCommandComplete k t.seq) s = .next
    (if t.todo = 0 then s.putStage k q t 1 (rdw t.rec_ 5) (rdw t.rec_ 6)
     else if t.todo = 1 then s.putStage k q t 2 (t.rec_.cra + 8) (s.doneWord k q t)
     else if t.todo = 2 then s.putStage k q t 3 t.rec_.cra (w64 t.seq)
     else s.reportDone k q t.seq) := by
  have found : q.started.find? (fun x => x.seq = t.seq) = some t := by
    rw [started, List.find?_append, List.find?_eq_none.mpr (by simpa using first)]
    simp
  have free : (!t.atOnce && s.devBusy k) = false := by
    rcases ready with atOnce | free
    · simp [atOnce]
    · simp [free]
  have goes : (!t.finished || t.reported || decide (q.st = .lost) || (!t.atOnce && s.devBusy k) ||
      s.groupBusy t) = false := by
    simp [finished, unreported, kept, free, made]
  rw [exec_queueCommandComplete, execQueueCommandComplete, State.recStage]
  simp only [there, found, goes, Bool.false_eq_true, if_false]
  match todo : t.todo with
  | 0 => simp
  | 1 => simp
  | 2 => simp
  | n + 3 => simp

end Ready

/-- The only command of a queue, the next after DONE, has completed: DONE rises by one and is stored (R361, R364). -/
theorem reportDone_next (only : q.started = [t]) (next : t.seq = (q.done + 1).toNat) :
    s.reportDone k q t.seq =
      let s2 := s.setQueue k { q with done := q.done + 1, started := [] }
      let left := fun (c : Contract) =>
        { c with acts := c.acts.filter (fun a => !(a.queue = k && tailReached (q.done + 1) a.last)) }
      ({ s2 with
        contracts := s2.contracts.map (fun (e : Nat × Contract) => (e.1, left e.2)) } : State).storeDone k := by
  have word : w64 t.seq = q.done + 1 := by rw [next, w64, BitVec.ofNat_toNat, BitVec.setWidth_eq]
  have rises : q.done + 1 ≠ q.done := by bv_omega
  have reached : tailReached (q.done + 1) (w64 t.seq) = true := by simp [tailReached, word]
  have done : prefixDone q.done 1 [{ t with reported := true }] = q.done + 1 := by
    simp [prefixDone, next]
  simp only [State.reportDone, only, List.map_cons, List.map_nil, if_true, List.length_singleton, done,
    List.filter_cons, List.filter_nil, reached, Bool.not_true, Bool.false_eq_true, if_false, rises]

end Stages

end Sys2Proof.Machine

namespace Sys2Proof
open Machine

/-- Settles O49: each decision of the command processor is given its whole next state above. -/
theorem dispatch : Obligations.Dispatch := by
  intro s
  refine ⟨fun x r q first what there => ⟨fun q' after stays => dispatchDecision_stays first what there after stays,
      fun q' q'' after leaves aged => dispatchDecision_leaves first what there after leaves aged⟩,
    fun x y gid g t first what pending placed => groupAdmit_places first what pending placed,
    fun gid g there loading awake => ⟨fun l loaded => loadComplete_starts there loading awake loaded,
      fun bad code i c refused ctx => loadComplete_refused there loading awake refused ctx⟩,
    fun r rg there live resident drained => configDrained_arms there live resident drained,
    fun r rg there may free => ⟨residencyRetire_tail there may free, residencyRetire_retires there may free⟩,
    fun k q t pre post there kept started first finished unreported ready made => ?_⟩
  have stage := queueCommandComplete_eq there kept started first finished unreported ready made
  refine ⟨fun zero writes => ?value, fun record at_ => ?word, fun record two => ?seq,
    fun past none_ nil next => ?report⟩
  case value =>
    rw [stage, if_pos (Started.todo_value zero writes)]
    rfl
  case word =>
    have todo := Started.todo_word record at_
    rw [stage, if_neg (by omega), if_pos todo]
    rfl
  case seq =>
    have todo := Started.todo_seq record two
    rw [stage, if_neg (by omega), if_neg (by omega), if_pos todo]
    rfl
  case report =>
    have todo := Started.todo_report past
    rw [stage, if_neg (by omega), if_neg (by omega), if_neg (by omega),
      reportDone_next (by rw [started, none_, nil, List.nil_append]) next]

end Sys2Proof
end

section
/-! Contract limits, clone sets, notices, sweeps, a claim's move, remaps (15 R364; 16 R380, R381; 18 R405 to R416). -/
namespace Sys2Proof.Machine

variable {s : State}

/-! ### Contract limits (R364) -/

section Contracts
variable {cid core : Nat} {k : Contract} {a : Activation} (there : s.contracts.find cid = some k)
include there

theorem contractBudgetExhaust_ends (running : k.acts.find? (fun a => !a.exh && s.actOn core a) = some a)
    (names : contractHas k core = true) :
    exec (.contractBudgetExhaust cid core) s =
      let t := s.pass core (k.budget - a.cycles.get core 0)
      .next { t with
        contracts := t.contracts.upd cid (fun k => k.setAct a.order (fun a => { a with exh := true })) } := by
  rw [exec_contractBudgetExhaust, execContractBudgetExhaust]
  simp only [there, running, names, Bool.not_true, Bool.false_eq_true, if_false]

theorem contractWindowExpire_ends (open_ : k.acts.find? (fun a => !a.miss) = some a) :
    exec (.contractWindowExpire cid) s =
      let t := s.pass k.lead (k.window - ((s.core k.lead).cyc - w64 a.at_).toNat)
      .next { t with
        contracts := t.contracts.upd cid (fun k => k.setAct a.order (fun a => { a with miss := true })) } := by
  rw [exec_contractWindowExpire, execContractWindowExpire]
  simp only [there, open_]

end Contracts

/-! ### Clone sets (R405, R407) -/

section Clones
variable {r : Nat} {rg : Region} (there : s.rg? r = some rg)
include there

section Window
variable {b n : Nat} (live : rg.live = true) (resident : rg.resident = true)

/-- What the window's end makes of the node's own counts. -/
abbrev State.windowed (s : State) (r : Nat) (rg : Region) (i : Nat) : State :=
  if (rg.nodes.get i {}).win < windowLen then s
  else s.setRg r { rg with nodes := rg.nodes.put i { rg.nodes.get i {} with win := 0, press := 0 } }

/-- The free pages of the residency's core. -/
abbrev State.freeHere (s : State) (rg : Region) : List Nat :=
  (List.range 12).filter (fun p => (s.page rg.core p).st = .free)

/-- What the context may still hold. -/
abbrev State.quotaLeft (s : State) (c : Nat) : Nat := (s.ctx? c).elim 0 (fun x => x.pageq - s.pagesOf c)

include live resident

theorem cloneWindow_quiet
    (due : 65536 ≤ (rg.nodes.get (128 * b + n) {}).win ∨ 49152 ≤ (rg.nodes.get (128 * b + n) {}).press)
    (quiet : (rg.nodes.get (128 * b + n) {}).press < 49152) :
    exec (.cloneWindow r b n) s = .next (s.windowed r rg (128 * b + n)) := by
  have open_ : (!rg.live || !rg.resident || (decide ((rg.nodes.get (128 * b + n) {}).win < windowLen) &&
      decide ((rg.nodes.get (128 * b + n) {}).press < 49152))) = false := by
    have past := due.resolve_right (by omega)
    simp [live, resident, windowLen, Nat.not_lt.mpr past]
  rw [exec_cloneWindow, execCloneWindow]
  simp only [there, open_, Bool.false_eq_true, if_false]
  exact if_pos (by simp [quiet])

/-- A node back-pressured for three quarters of a window, with no clone set and with pages to borrow, gets a set of one
to three pages. -/
theorem cloneWindow_clones (pressed : 49152 ≤ (rg.nodes.get (128 * b + n) {}).press)
    (none_ : ∀ x ∈ rg.cloneSets, ¬ (x.1 = b ∧ x.2.1 = n)) (few : rg.cloneSets.length < 4)
    (room : 0 < min (s.freeHere rg).length (s.quotaLeft rg.ctx)) :
    ∃ k, 1 ≤ k ∧ k ≤ 3 ∧ k ≤ (s.freeHere rg).length ∧ exec (.cloneWindow r b n) s =
      .next (((((s.freeHere rg).take k).map (fun p => (rg.core, p))).foldl (fun (s : State) (p : Nat × Nat) =>
        s.holdPage p.1 p.2 .spare r rg) (s.windowed r rg (128 * b + n))).updRg r (fun x =>
          { x with cloneSets := x.cloneSets ++ [(b, n, ((s.freeHere rg).take k).map (fun p => (rg.core, p)))]
                   clones := min 255 (x.clones + 1) })) := by
  have open_ : (!rg.live || !rg.resident || (decide ((rg.nodes.get (128 * b + n) {}).win < windowLen) &&
      decide ((rg.nodes.get (128 * b + n) {}).press < 49152))) = false := by
    simp [live, resident, Nat.not_lt.mpr pressed]
  have most : 0 < min 3 (min (s.freeHere rg).length (s.quotaLeft rg.ctx)) := by omega
  have goes : (decide ((rg.nodes.get (128 * b + n) {}).press < 49152) ||
      rg.cloneSets.any (fun (x : Nat × Nat × List (Nat × Nat)) => x.1 = b && x.2.1 = n) ||
      decide (4 ≤ rg.cloneSets.length) ||
      decide (min 3 (min (s.freeHere rg).length (s.quotaLeft rg.ctx)) = 0)) = false := by
    have unset : rg.cloneSets.any (fun (x : Nat × Nat × List (Nat × Nat)) => x.1 = b && x.2.1 = n) = false := by
      simpa using none_
    simp only [Nat.not_lt.mpr pressed, unset, Nat.not_le.mpr few, most.ne', decide_false, Bool.or_self]
  have pick := Nat.mod_lt (Config.pick (s.freeIx * 65536)) most
  refine ⟨1 + Config.pick (s.freeIx * 65536) % min 3 (min (s.freeHere rg).length (s.quotaLeft rg.ctx)),
    by omega, by omega, by omega, ?_⟩
  rw [exec_cloneWindow, execCloneWindow]
  simp only [there, open_, Bool.false_eq_true, if_false]
  exact if_neg (by rw [goes]; decide)

end Window

theorem cloneDissolve_frees
    (unwanted : rg.live = false ∨ rg.faulted = true ∨ rg.snap = true ∨ s.wantsBorrowed rg = true) :
    exec (.cloneDissolve r) s = .next (s.freeClones r) := by
  have goes : (rg.live && !rg.faulted && !rg.snap && !s.wantsBorrowed rg) = false := by
    rcases unwanted with h | h | h | h <;> simp [h]
  rw [exec_cloneDissolve, execCloneDissolve]
  simp only [there, goes, Bool.false_eq_true, if_false]

end Clones

/-! ### Notices (R133, R408, R409) -/

section Notices
variable {core sector : Nat}

theorem monitorNotice_wakes {n : Notice}
    (there : s.notices.find? (fun n => n.core = core && n.sector = sector) = some n) :
    exec (.monitorNotice core sector) s = .next { s with
      notices := s.notices.erase n
      clears := if s.regions.all (fun (e : Nat × Region) => !e.2.onCore core || e.2.seqs.all (fun q => q.filter = 0))
        then s.clears ++ [(core, sector)] else s.clears
      regions := s.regions.map (fun (e : Nat × Region) =>
        if e.2.onCore core then (e.1, e.2.notified e.1 n) else e) } := by
  have found : s.notices.find? (·.is core sector) = some n := there
  rw [exec_monitorNotice, execMonitorNotice]
  simp only [found]

/-- A word holds both of two bits when masking with them leaves them. -/
theorem and_twoBits_eq_iff {w i j : Nat} (x : BitVec w) (hi : i < w) (hj : j < w) :
    x &&& (1#w <<< i ||| 1#w <<< j) = 1#w <<< i ||| 1#w <<< j ↔ x.getLsbD i = true ∧ x.getLsbD j = true := by
  constructor
  · intro same
    have at_ (n : Nat) := congrArg (BitVec.getLsbD · n) same
    exact ⟨by simpa [hi] using at_ i, by simpa [hj] using at_ j⟩
  · rintro ⟨first, second⟩
    apply BitVec.eq_of_getLsbD_eq
    intro n inside
    by_cases ni : n = i
    · simp [ni, first]
    · by_cases nj : n = j
      · simp [nj, second]
      · have far (m : Nat) (ne : n ≠ m) : (1#w <<< m).getLsbD n = false := by
          simp only [BitVec.getLsbD_shiftLeft, BitVec.getLsbD_one]
          grind
        simp [far i ni, far j nj]

theorem Seq.watches_iff (q : Seq) (sec : Nat) : q.watches sec = true ↔
    q.monmask.getLsbD 0 = true ∧ q.filter.getLsbD (sec % 256) = true ∧ q.filter.getLsbD (sec / 256 % 256) = true := by
  have low : 64 * sec / 64 % 256 = sec % 256 := by omega
  have high : 64 * sec / 2 ^ 14 % 256 = sec / 256 % 256 := by omega
  rw [Seq.watches, filterBits, low, high, Bool.and_eq_true, decide_eq_true_iff, and_twoBits_eq_iff _
    (Nat.mod_lt _ (by decide)) (Nat.mod_lt _ (by decide)), bit]

theorem mem_watchers {r pg sec : Nat} {x : Region} {q : Seq} (mem : (r, x) ∈ s.regions) (here : x.onCore core = true)
    (seat : x.seqs[pg]? = some q) (watches : q.watches sec = true) : (r, pg, q.clrs) ∈ s.watchers core sec := by
  have seated : (pg, q) ∈ (List.range x.seqs.length).zip x.seqs := by
    obtain ⟨inside, rfl⟩ := List.getElem?_eq_some_iff.mp seat
    exact List.mem_iff_getElem.mpr ⟨pg, by simpa using inside, by simp⟩
  rw [State.watchers]
  refine List.mem_flatMap.mpr ⟨(r, x), List.mem_filter.mpr ⟨mem, here⟩, ?_⟩
  exact List.mem_map.mpr ⟨(pg, q), List.mem_filter.mpr ⟨seated, watches⟩, rfl⟩

theorem watchClearReply_clears (asked : (core, sector) ∈ s.clears) :
    exec (.watchClearReply core sector) s = .next (s.watchClear core sector) := by
  have asked' : s.clears.contains (core, sector) = true := List.contains_iff_mem.mpr asked
  rw [exec_watchClearReply, execWatchClearReply, if_pos asked']

end Notices

/-! ### The sweep of a quiet configuration (R412) -/

theorem stallSweep_reports {r : Nat} {rg : Region} {x : Ctx} {q : Queue} (there : s.rg? r = some rg)
    (live : rg.live = true) (resident : rg.resident = true) (seqs : rg.seqs ≠ []) (quiet : 65536 ≤ rg.quiet)
    (first : rg.swept = false) (undrained : s.drained r rg = false) (ctx : s.ctx? rg.ctx = some x)
    (queue : s.queue? x.faultq = some q) :
    let s1 := s.setRg r { rg with swept := true, sweeps := rg.sweeps + 1 }
    let l := s1.stallReport r rg
    q.slotsUsed + l.length ≤ q.nslot → rg.leadHalted = false →
    exec (.stallSweep r) s = .next (((s1.pushAll x.faultq l).updSeq r 0 Seq.endSleep).raise r
      { cause := 6, einfo := q.issued + 1 } (.seq 0)) := by
  intro s1 l room awake
  have due : (!rg.live || !rg.resident || rg.seqs.isEmpty || decide (rg.quiet < 65536) || rg.swept ||
      s.drained r rg) = false := by
    simp [live, resident, seqs, Nat.not_lt.mpr quiet, first, undrained]
  have ctx' : s1.ctx? rg.ctx = some x := ctx
  have queue' : s1.queue? x.faultq = some q := queue
  have fits : ¬ q.nslot < q.slotsUsed + (s1.stallReport r rg).length := Nat.not_lt.mpr room
  rw [exec_stallSweep, execStallSweep]
  simp only [there, due, Bool.false_eq_true, if_false]
  change Host.Outcome.next (s1.reportStall r rg) = _
  rw [State.reportStall]
  simp only [ctx', queue', if_neg fits, awake, Bool.false_eq_true, if_false]
  rfl

/-! ### A claim's move (R380, R381) -/

theorem claimMove_reserves {x : Rank} {k d gid r : Nat} {g : Group} {q : Queue} {m rg : Region} {t : State}
    (claim : s.claim = some x) (what : x.what = .group k g) (queue : s.queue? x.q = some q)
    (unclaimed : q.claimed = false) (still : s.move = none)
    (wants : s.unplaced q.aff (s.groupBounds g).set g.members = some (m, t))
    (best : s.bestMove t q.aff g (s.coresFor q.aff m.erg (s.groupBounds g).set) (m.pm1 + 1) = some (r, rg, d))
    (member : rg.gid = some gid) :
    exec .claimMove s =
      let s1 := s.setRun rg.core d (rg.pm1 + 1) (fun p =>
        { p with st := .reserved, ctx := rg.ctx, member := rg.member, first := d, pm1 := rg.pm1 })
      .next { s1 with
        move := some (r, 12 * rg.core + d)
        queues := s1.queues.upd x.q (fun q => { q with claimed := true })
        groups := s1.groups.upd gid (fun g => g.ask .move) } := by
  have free : (q.claimed || s.move.isSome) = false := by simp [unclaimed, still]
  rw [exec_claimMove, execClaimMove]
  simp only [claim, what, queue, free, Bool.false_eq_true, if_false, wants, best, member]

/-! ### Remaps (R415, R416) -/

section Remap
variable {core page pos : Nat}

theorem remapRequest_asks (core_ : core < 192) (page_ : page < 12) (pos_ : pos < 8)
    (worn : s.worn core page pos = true) :
    exec (.remapRequest core page pos) s = .next (s.askRemap core page pos true) := by
  have inside : (decide (coreCount ≤ core) || decide (12 ≤ page) || decide (8 ≤ pos) ||
      !s.worn core page pos) = false := by
    simp [coreCount, Nat.not_le.mpr core_, Nat.not_le.mpr page_, Nat.not_le.mpr pos_, worn]
  rw [exec_remapRequest, execRemapRequest]
  simp only [inside, Bool.false_eq_true, if_false]

/-- A page with one position more to remap, for wear. -/
abbrev Page.wanting (p : Page) (pos : Nat) : Page := { p with want := p.want ++ [pos], wear := p.wear ++ [pos] }

section Ask
variable (new : (s.page core page).want.contains pos = false)
include new

theorem askRemap_withdraws (idle : (s.page core page).st = .free ∨ (s.page core page).st = .quarantined) :
    s.askRemap core page pos true =
      s.setPage core page { (s.page core page).wanting pos with st := .quarantined } := by
  have idle' : (decide ((s.page core page).st = .free) || decide ((s.page core page).st = .quarantined)) = true := by
    simpa using idle
  simp only [State.askRemap, new, Bool.false_eq_true, if_false, if_true, idle']

variable (used : (s.page core page).st ≠ .free) (unwithdrawn : (s.page core page).st ≠ .quarantined)
include used unwithdrawn

/-- A page in use is noted, and the group that holds it, if one does, is asked to move off it. -/
theorem askRemap_used :
    s.askRemap core page pos true =
      let s1 := s.setPage core page ((s.page core page).wanting pos)
      (if (s.page core page).ctr then none else ((s1.holder core page).bind s1.rg?).bind (·.gid)).elim s1
        (fun k => ({ s1 with groups := s1.groups.upd k (fun g => g.ask .remap) } : State).spoilMove) := by
  have busy : (decide ((s.page core page).st = .free) || decide ((s.page core page).st = .quarantined)) = false := by
    simp [used, unwithdrawn]
  simp only [State.askRemap, new, Bool.false_eq_true, if_false, if_true, busy]
  split
  case h_1 k asked => simp only [Page.wanting, asked, Option.elim_some]
  case h_2 none_ => simp only [Page.wanting, none_, Option.elim_none]

/-- A page that no group holds, a contract's or a page without a residency, waits until it is free. -/
theorem askRemap_waits
    (alone : (s.page core page).ctr = true ∨
      (s.setPage core page ((s.page core page).wanting pos)).holder core page = none) :
    s.askRemap core page pos true = s.setPage core page ((s.page core page).wanting pos) := by
  rw [askRemap_used new used unwithdrawn]
  rcases alone with contract | none_
  · simp only [contract, if_true, Option.elim_none]
  · simp only [none_, Option.bind_none, ite_self, Option.elim_none]

theorem askRemap_asksGroup {id gid : Nat} {rg : Region} (own : (s.page core page).ctr = false)
    (held : (s.setPage core page ((s.page core page).wanting pos)).holder core page = some id)
    (region : (s.setPage core page ((s.page core page).wanting pos)).rg? id = some rg) (group : rg.gid = some gid) :
    s.askRemap core page pos true =
      let s1 := s.setPage core page ((s.page core page).wanting pos)
      ({ s1 with groups := s1.groups.upd gid (fun g => g.ask .remap) } : State).spoilMove := by
  rw [askRemap_used new used unwithdrawn]
  simp only [own, held, region, group, Option.bind_some, Bool.false_eq_true, if_false, Option.elim_some]

end Ask

theorem remapComplete_remaps (idle : (s.page core page).st = .quarantined) (left_ : 0 < (s.core core).spLeft)
    (next : (if s.windowOpen then (s.page core page).want.find? (fun x => !(s.page core page).wear.contains x)
      else (s.page core page).want.head?) = some pos) :
    exec (.remapComplete core page) s =
      let p := s.page core page
      let left := p.want.filter (· != pos)
      let done := { p with
        remap := p.remap ||| BitVec.ofNat 8 (2 ^ pos), want := left, wear := p.wear.filter (· != pos) }
      let s1 := s.setPage core page (if left = [] then done.clear else done)
      .next ((s1.setCore core { s1.core core with
        spLeft := (s.core core).spLeft - 1, wear := (s1.core core).wear.del (8 * page + pos) }).report
          (.remap core page pos)) := by
  rw [exec_remapComplete, execRemapComplete]
  simp only [idle, next, left_.ne', if_false, List.isEmpty_iff]

end Remap

end Sys2Proof.Machine

namespace Sys2Proof
open Machine

/-- Settles O50: each service is given its whole next state above. -/
theorem coreServices : Obligations.CoreServices := by
  intro s
  refine ⟨fun cid core k a there running names => contractBudgetExhaust_ends there running names,
    fun cid k a there open_ => contractWindowExpire_ends there open_,
    fun r rg b n there live resident due => ⟨cloneWindow_quiet there live resident due,
      cloneWindow_clones there live resident⟩,
    fun r rg there unwanted => cloneDissolve_frees there unwanted,
    fun core sector n there => ?notice,
    fun core sec r pg x q mem here seat => ⟨q.watches_iff sec, mem_watchers mem here seat⟩,
    fun core sector asked => watchClearReply_clears asked,
    fun r rg x q there live resident seqs quiet first undrained ctx queue =>
      stallSweep_reports there live resident seqs quiet first undrained ctx queue,
    fun x k g q m t r rg d gid claim what queue unclaimed still wants best member =>
      claimMove_reserves claim what queue unclaimed still wants best member,
    fun core page pos core_ page_ pos_ worn => ?request,
    fun core page pos idle left_ next => remapComplete_remaps idle left_ next⟩
  case notice =>
    rw [monitorNotice_wakes there]
    simp only [Region.notified, Notice.wakes, List.contains_iff_mem]
  case request =>
    rw [remapRequest_asks core_ page_ pos_ worn]
    intro p new
    refine ⟨fun idle => congrArg _ (askRemap_withdraws new idle), fun used unwithdrawn => ⟨fun alone =>
      congrArg _ (askRemap_waits new used unwithdrawn alone), fun id rg gid own held region group =>
      congrArg _ (askRemap_asksGroup new used unwithdrawn own held region group)⟩⟩

end Sys2Proof
end

section
/-! Groups are snapshotted, restored and abandoned (16 R384 to R395). -/
namespace Sys2Proof.Machine

variable {s : State} {gid : Nat} {g : Group}

/-! ### A request is taken up (R384, R395) -/

section Preempt
variable {why : Preempt} (there : s.group? gid = some g) (asked : g.req = some why)
include there asked

theorem preemptRequest_stops (running : g.st = .running)
    (due : ¬ (why = .remap ∧ s.windowOpen = true ∧ s.wearOnly g = true)) :
    exec (.preemptRequest gid why) s =
      .next (((s.liveOf g).foldl (fun (s : State) (e : Nat × Region) => s.beginSnap e.1 why) s).updGroup gid
        (fun g => { g with st := .snapshotting })) := by
  have due' : (why = .remap && s.windowOpen && s.wearOnly g : Bool) = false := by
    simpa [and_assoc] using due
  rw [exec_preemptRequest, execPreemptRequest]
  simp only [there, asked, running, bne_self_eq_false, Bool.false_eq_true, if_false, due']

theorem preemptRequest_abandons {c : Nat} (placing : g.st = .loading ∨ g.st = .restoring) (contract : why = .contract)
    (ctx : (s.abandonPlace gid g).groupCtx g = some c) :
    exec (.preemptRequest gid why) s = .next ((s.abandonPlace gid g).settle c) := by
  subst contract
  rw [exec_preemptRequest, execPreemptRequest]
  rcases placing with loading | restoring
  · simp only [there, asked, loading, bne_self_eq_false, Bool.false_eq_true, if_false, ctx]
  · simp only [there, asked, restoring, bne_self_eq_false, Bool.false_eq_true, if_false, ctx]

end Preempt

/-! ### The nodes save (R385 to R387) -/

section Nodes
variable {r : Nat} {rg : Region} (there : s.rg? r = some rg) (snap : rg.snap = true) (live : rg.live = true)
  (uncloned : rg.cloneSets = [])
include there snap live uncloned

theorem nodeSnapshotSave_saves {b n : Nat} {blk : Block} {cfg : NodeCfg} (node : rg.nodeCfg b n = some (blk, cfg))
    (unsaved : (rg.nodes.get (128 * b + n) {}).saved = false)
    (marked : ∀ i ∈ blk.markerSlots n, ((rg.nodes.get (128 * b + n) {}).slot i).mark = true) :
    exec (.nodeSnapshotSave r b n) s = .next (s.setRg r (rg.saveNode b n cfg.view)) := by
  have due : (!rg.snap || !rg.live || !rg.cloneSets.isEmpty || (rg.nodes.get (128 * b + n) {}).saved ||
      !(blk.markerSlots n).all (fun i => ((rg.nodes.get (128 * b + n) {}).slot i).mark)) = false := by
    simpa [snap, live, uncloned, unsaved] using marked
  rw [exec_nodeSnapshotSave, execNodeSnapshotSave]
  simp only [there, node, due, Bool.false_eq_true, if_false]

/-- When no node can fire and none that is left has been reached by every marker, the rest are saved as they stand. -/
theorem haboobQuiescence_saves
    (quiet : ∀ e ∈ rg.allNodes, (rg.nodes.get e.1 {}).saved = false → s.fires r e.1 = false ∧
      ∃ i ∈ e.2.1.markerSlots (e.1 % 128), ((rg.nodes.get e.1 {}).slot i).mark = false) :
    exec (.haboobQuiescence r) s = .next (s.setRg r { rg with
      nodes := rg.allNodes.map (fun e => (e.1, { rg.nodes.get e.1 {} with saved := true })) }) := by
  have none_ : rg.allNodes.any (fun e => !(rg.nodes.get e.1 {}).saved &&
      ((e.2.1.markerSlots (e.1 % 128)).all (fun i => ((rg.nodes.get e.1 {}).slot i).mark) ||
        s.fires r e.1)) = false := by
    rw [List.any_eq_false]
    intro e mem
    cases saved : (rg.nodes.get e.1 {}).saved with
    | true => simp
    | false =>
      obtain ⟨still, i, slot, unmarked⟩ := quiet e mem saved
      have open_ : (e.2.1.markerSlots (e.1 % 128)).all (fun i => ((rg.nodes.get e.1 {}).slot i).mark) = false :=
        List.all_eq_false.mpr ⟨i, slot, by simp [unmarked]⟩
      simp [still, open_]
  rw [exec_haboobQuiescence, execHaboobQuiescence]
  simp only [there]
  exact if_neg (by rw [none_]; simp [snap, live, uncloned])

end Nodes

/-! ### The snapshot is complete (R388, R392) -/

section Complete
variable {c : Nat} (there : s.group? gid = some g) (saving : g.st = .snapshotting) (ctx : s.groupCtx g = some c)
include there saving ctx

/-- An error that the save meets, or one that an image holds, loses the context. -/
theorem snapshotComplete_loses {bad : Bool} (error : bad = true ∨ ∃ e ∈ s.liveOf g, e.2.unsaved = true) :
    exec (.snapshotComplete gid bad) s = .next (s.lose c .save) := by
  have lost : (bad || (s.liveOf g).any (fun e => e.2.unsaved)) = true := by simpa using error
  rw [exec_snapshotComplete, execSnapshotComplete]
  simp only [there, saving, bne_self_eq_false, Bool.false_eq_true, if_false, ctx, lost, if_true]

theorem snapshotComplete_frees (whole : ∀ e ∈ s.liveOf g, e.2.unsaved = false ∧ s.imaged e.1 e.2 = true) :
    exec (.snapshotComplete gid false) s =
      .next ((((s.liveOf g).foldl (fun (s : State) (e : Nat × Region) =>
        ((s.leavePlace e.1).withdrawOpers e.1 e.2).updRg e.1
          (fun x => { x with st := .saved, snap := false })) s).updGroup gid
            (fun g => { g with st := .saved, req := none })).spoilMove.settle c) := by
  have sound : (false || (s.liveOf g).any (fun e => e.2.unsaved)) = false := by
    rw [Bool.false_or, List.any_eq_false]
    exact fun e mem => by simp [(whole e mem).1]
  have images : (s.liveOf g).all (fun e => s.imaged e.1 e.2) = true := List.all_eq_true.mpr fun e mem => (whole e mem).2
  rw [exec_snapshotComplete, execSnapshotComplete]
  simp only [there, saving, bne_self_eq_false, Bool.false_eq_true, if_false, ctx, sound, images, Bool.not_true]

end Complete

/-! ### A saved group is placed again (R393, R394) -/

section Restore
variable (there : s.readHeads.group? gid = some g) (saved : g.st = .saved)
include there saved

/-- A group with no record of a queue is placed when its context is Active. -/
theorem groupRestore_places_child {c : Nat} {x : Ctx} {t : State} (child : g.from_ = none)
    (ctx : s.readHeads.groupCtx g = some c) (context : s.readHeads.ctx? c = some x) (active : x.st = .active)
    (stays : x.becoming = none) (placed : s.readHeads.placeGroup gid g 15 = some t) :
    exec (.groupRestore gid) s = .next t := by
  rw [exec_groupRestore, execGroupRestore]
  simp [there, saved, child, ctx, context, active, stays, placed]

/-- A group of a queue is placed when it is the first ready head that can start. -/
theorem groupRestore_places_head {f : Nat × Nat} {x : Rank} {y t : State} {g2 : Group} (head : g.from_ = some f)
    (first : s.readHeads.firstStart = some (x, some y)) (what : x.what = .group gid g2)
    (placed : (s.readHeads.age x).placeGroup gid g (s.readHeads.openDies x) = some t) :
    exec (.groupRestore gid) s = .next t := by
  rw [exec_groupRestore, execGroupRestore]
  simp [there, saved, head, first, what, placed]

end Restore

section Resume
variable {c : Nat} (there : s.group? gid = some g) (restoring : g.st = .restoring)
  (awake : g.members.any s.asleep = false) (ctx : s.groupCtx g = some c)
include there restoring awake ctx

theorem restoreComplete_loses {bad : Bool} (error : bad = true ∨ ∃ e ∈ s.liveOf g, e.2.unsaved = true) :
    exec (.restoreComplete gid bad) s = .next (s.lose c .restore) := by
  have lost : (bad || (s.liveOf g).any (fun e => e.2.unsaved)) = true := by simpa using error
  rw [exec_restoreComplete, execRestoreComplete]
  simp only [there, restoring, awake, bne_self_eq_false, Bool.or_self, Bool.false_eq_true, if_false, ctx, lost, if_true]

theorem restoreComplete_resumes (sound : ∀ e ∈ s.liveOf g, e.2.unsaved = false) :
    exec (.restoreComplete gid false) s =
      let u := s.updGroup gid (fun g => { g with st := .running })
      .next (((u.liveOf g).foldl (fun (s : State) (e : Nat × Region) => s.resumeMember e.1) u).settle c) := by
  have kept : (false || (s.liveOf g).any (fun e => e.2.unsaved)) = false := by
    rw [Bool.false_or, List.any_eq_false]
    exact fun e mem => by simp [sound e mem]
  rw [exec_restoreComplete, execRestoreComplete]
  simp only [there, restoring, awake, bne_self_eq_false, Bool.or_self, Bool.false_eq_true, if_false, ctx, kept]

end Resume

end Sys2Proof.Machine

namespace Sys2Proof
open Machine

/-- Settles O51: each event of a group's snapshot and restore is given its whole next state above. -/
theorem groupSnapshots : Obligations.GroupSnapshots := by
  intro s
  exact ⟨fun gid g why there asked => ⟨preemptRequest_stops there asked, fun c => preemptRequest_abandons there asked⟩,
    fun r rg b n blk cfg there node snap live uncloned => nodeSnapshotSave_saves there snap live uncloned node,
    fun r rg there snap live uncloned => haboobQuiescence_saves there snap live uncloned,
    fun gid g c there saving ctx => ⟨snapshotComplete_loses there saving ctx (.inl rfl),
      fun error => snapshotComplete_loses there saving ctx (.inr error), snapshotComplete_frees there saving ctx⟩,
    fun gid g there saved => ⟨fun c x t => groupRestore_places_child there saved,
      fun f x y g2 t => groupRestore_places_head there saved⟩,
    fun gid g c there restoring awake ctx => ⟨restoreComplete_loses there restoring awake ctx (.inl rfl),
      fun error => restoreComplete_loses there restoring awake ctx (.inr error),
      restoreComplete_resumes there restoring awake ctx⟩⟩

end Sys2Proof
end
